-- ==== Sys2Proof/Word.lean ====
section
/-! DEFINITION. The word types of SK-7716 and their plainest arithmetic. -/

namespace Sys2Proof

/-- A 32-bit register word (R13). -/
abbrev Word := BitVec 32

/-- A byte of memory. -/
abbrev Byte := BitVec 8

/-- Bits `lo .. lo + w - 1` of a number. -/
def bitsOf (x lo w : Nat) : Nat := (x >>> lo) % 2 ^ w

/-- `x` with bits `lo .. lo + w - 1` replaced by the low `w` bits of `v`. -/
def putBits (x lo w v : Nat) : Nat :=
  x - (bitsOf x lo w) * 2 ^ lo + (v % 2 ^ w) * 2 ^ lo

/-- The two's-complement value of the low `w` bits of `x`. -/
def sext (w x : Nat) : Int :=
  let y := x % 2 ^ w
  if 2 * y < 2 ^ w then (y : Int) else (y : Int) - (2 ^ w : Nat)

/-- The `w`-bit two's-complement pattern of an integer. -/
def wrapNat (w : Nat) (x : Int) : Nat := (x % ((2 ^ w : Nat) : Int)).toNat

/-- `x` limited to the interval `lo .. hi`. -/
def clampI (lo hi x : Int) : Int := max lo (min hi x)

/-- `x` limited to the interval `lo .. hi`. -/
def clampN (lo hi x : Nat) : Nat := max lo (min hi x)

/-- A change of FSYNC_IN: its new level, and whether it falls within the aperture in which the synchroniser samples
(R25). -/
structure FsyncChange where
  level : Bool
  aperture : Bool
  deriving DecidableEq, Repr

/-- A fetch that fails: 0 an address without contents, 1 an uncorrectable HBM block, 2 an uncorrectable word of an SRAM array
that has no system address; and the address it went to (R260, R268, R272). -/
structure BadFetch where
  cause : Nat
  addr : Nat
  deriving DecidableEq, Repr

/-- A 32-bit word from a number. -/
def w32 (x : Nat) : Word := BitVec.ofNat 32 x

end Sys2Proof
end

