-- ==== Sys2Proof/Syntax.lean ====
section
/-! DEFINITION. The commands of SK-7716: one constructor per row of the opcode table, with the operands the row's
event carries. -/

namespace Sys2Proof

/-- A command. -/
inductive Instr where
  /-- FRAME_TICK (R20) -/
  | frameTick
  /-- FSYNC_IN_CHANGE (R25) -/
  | fsyncInChange (change : FsyncChange)
  /-- GENLOCK_EDGE (R27) -/
  | genlockEdge
  /-- GENLOCK_HOLDOVER (R26) -/
  | genlockHoldover
  /-- TICK_RUN (R24) -/
  | tickRun (run : Bool)
  /-- TICK_SRC (R28) -/
  | tickSrc (src : Bool)
  /-- RESYNC (R28) -/
  | resync
  /-- TICK_PERIOD_WRITE (R23) -/
  | tickPeriodWrite (frac : Bool) (v : Nat)
  /-- LINE_TICK (R35) -/
  | lineTick (n : Nat)
  /-- VPLL_LOCK (R38) -/
  | vpllLock (k : Nat)
  /-- VPLL_UNLOCK (R40) -/
  | vpllUnlock (k : Nat)
  /-- VPLL_MULT_WRITE (R39) -/
  | vpllMultWrite (k : Nat) (v : Nat)
  /-- VPLL_CTRL_WRITE (R39) -/
  | vpllCtrlWrite (k : Nat) (v : Nat)
  /-- ENGINE_ENABLE (R54) -/
  | engineEnable (n : Nat) (v : Nat)
  /-- RASTER_WRITE (R37) -/
  | rasterWrite (n : Nat) (r : Nat) (v : Nat)
  /-- COMPOSE_START (R44) -/
  | composeStart (n : Nat)
  /-- LINE_COMPLETE (R46) -/
  | lineComplete (n : Nat)
  /-- SPILL_RELAX (R52) -/
  | spillRelax (n : Nat)
  /-- SCHED_LOAD (R57) -/
  | schedLoad (n : Nat)
  /-- SCHED_COMMIT (R58) -/
  | schedCommit (n : Nat)
  /-- SCHED_DROP (R58) -/
  | schedDrop (n : Nat)
  /-- SCHED_CHECK_DONE (R60) -/
  | schedCheckDone (n : Nat)
  /-- LL_END (R64) -/
  | llEnd (n : Nat)
  /-- LL_LINE (R65) -/
  | llLine (n : Nat) (k : Nat)
  /-- LL_WREG (R67) -/
  | llWreg (n : Nat) (off : Nat) (v : Nat)
  /-- LL_WBLK (R67) -/
  | llWblk (n : Nat) (off : Nat) (vals : List Nat)
  /-- LL_PAL (R87) -/
  | llPal (n : Nat) (p : Nat) (first : Nat) (cnt : Nat) (addr : Nat)
  /-- LL_SCROLL (R88) -/
  | llScroll (n : Nat) (t : Nat) (wx : Bool) (wy : Bool) (x : Nat) (y : Nat)
  /-- LL_AFFINE (R93) -/
  | llAffine (n : Nat) (t : Nat) (a : Nat) (b : Nat) (c : Nat) (d : Nat) (x0 : Nat) (y0 : Nat)
  /-- LL_ORDER (R133) -/
  | llOrder (n : Nat) (j : Nat)
  /-- LL_SND_START (R307) -/
  | llSndStart (n : Nat) (voice : Nat) (preset : Nat)
  /-- LL_SND_RELEASE (R307) -/
  | llSndRelease (n : Nat) (voice : Nat)
  /-- LL_SND_STOP (R307) -/
  | llSndStop (n : Nat) (voice : Nat)
  /-- LL_SIG (R67) -/
  | llSig (n : Nat) (j : Nat)
  /-- LL_WAITX (R67) -/
  | llWaitx (n : Nat) (x : Nat)
  /-- LL_NOP (R65) -/
  | llNop (n : Nat)
  /-- LL_READ_ERROR (R70) -/
  | llReadError (n : Nat) (cause : Nat)
  /-- FETCH_POISON (R102) -/
  | fetchPoison (n : Nat) (k : Nat) (e : BadFetch)
  /-- PAL_DATA0_WRITE (R85) -/
  | palData0Write (n : Nat) (v : Nat)
  /-- PAL_DATA0_READ (R85) -/
  | palData0Read (n : Nat)
  /-- PAL_DATA1_WRITE (R87) -/
  | palData1Write (n : Nat) (v : Nat)
  /-- PAL_DATA1_READ (R85) -/
  | palData1Read (n : Nat)
  /-- TC_INVALIDATE (R100) -/
  | tcInvalidate (n : Nat)
  /-- OC_INVALIDATE (R126) -/
  | ocInvalidate (n : Nat)
  /-- OBJ_POOL_WRITE (R107) -/
  | objPoolWrite (ix : Nat) (w : Nat) (v : Nat)
  /-- OBJ_LOAD_START (R108) -/
  | objLoadStart (first : Nat) (countM1 : Nat)
  /-- OBJ_LOAD_WRITE (R108) -/
  | objLoadWrite
  /-- OBJ_LOAD_ERROR (R111) -/
  | objLoadError (cause : Nat)
  /-- OBJ_DISCARD (R111) -/
  | objDiscard
  /-- OBJ_LINE_START (R121) -/
  | objLineStart (n : Nat)
  /-- OBJ_LINE_DONE (R121) -/
  | objLineDone (n : Nat)
  /-- OBJ_SOURCE_POISON (R127) -/
  | objSourcePoison (n : Nat) (e : BadFetch)
  /-- FLIP_REQ (R143) -/
  | flipReq (n : Nat) (b : Nat) (v : Nat)
  /-- FLIP_CANCEL (R144) -/
  | flipCancel (n : Nat) (b : Nat)
  /-- FLIP_STALL (R145) -/
  | flipStall (n : Nat) (b : Nat)
  /-- LUT_DATA0_WRITE (R148) -/
  | lutData0Write (p : Nat) (v : Nat)
  /-- LUT_DATA0_READ (R148) -/
  | lutData0Read (p : Nat)
  /-- LUT_DATA1_WRITE (R148) -/
  | lutData1Write (p : Nat) (v : Nat)
  /-- LUT_DATA1_READ (R148) -/
  | lutData1Read (p : Nat)
  /-- PLD_TBL_WRITE (R152) -/
  | pldTblWrite (b : Nat) (ix : Nat) (w : Nat) (v : Nat)
  /-- PLD_CHECK (R158) -/
  | pldCheck
  /-- PLD_CHECK_DONE (R159) -/
  | pldCheckDone
  /-- PLD_REFRESH_ALL (R170) -/
  | pldRefreshAll
  /-- POLDER_FREEZE (R168) -/
  | polderFreeze (ix : Nat)
  /-- STATIC_ENTER (R169) -/
  | staticEnter (ix : Nat)
  /-- STATIC_REFRESH (R169) -/
  | staticRefresh (ix : Nat)
  /-- WARD_ENABLE (R171) -/
  | wardEnable (en : Bool)
  /-- WATCH_END (R171) -/
  | watchEnd
  /-- WARDEN_CONFIRM (R174) -/
  | wardenConfirm
  /-- WARD_RELEASE (R175) -/
  | wardRelease
  /-- WARD_FENCE_CLEAR (R175) -/
  | wardFenceClear (mask : Nat)
  /-- PVW_ENABLE (R182) -/
  | pvwEnable (n : Nat) (en : Bool)
  /-- HPD_PLUG (R182) -/
  | hpdPlug (n : Nat)
  /-- HPD_LOW_TIMEOUT (R182) -/
  | hpdLowTimeout (n : Nat)
  /-- IRQ_HPD (R182) -/
  | irqHpd (n : Nat) (lockLost : Bool)
  /-- DP_TRAIN_DONE (R182) -/
  | dpTrainDone (n : Nat) (ok : Bool) (rate : Nat) (lanes : Nat)
  /-- DP_TRAIN_RETRY (R182) -/
  | dpTrainRetry (n : Nat)
  /-- AUX_GO (R176) -/
  | auxGo (n : Nat) (v : Nat)
  /-- AUX_DONE (R176) -/
  | auxDone (n : Nat) (result : Nat) (bytes : List Nat)
  /-- BLOCK_LOCK (R189) -/
  | blockLock (l : Nat)
  /-- BLOCK_LOCK_LOSS (R189) -/
  | blockLockLoss (l : Nat)
  /-- TRAIN_SEND (R189) -/
  | trainSend (l : Nat)
  /-- TRAIN (R189) -/
  | train (l : Nat) (locked : Bool) (seen : Bool) (version : Nat)
  /-- IDLE (R185) -/
  | idle (l : Nat)
  /-- SOR (R186) -/
  | sor (l : Nat)
  /-- ACK (R197) -/
  | ack (l : Nat) (next : Nat)
  /-- NAK (R197) -/
  | nak (l : Nat) (next : Nat)
  /-- FLOW (R201) -/
  | flow (l : Nat) (stop : Bool)
  /-- ECHO_REQ (R210) -/
  | echoReq (l : Nat) (tag : Nat)
  /-- ECHO_RSP (R210) -/
  | echoRsp (l : Nat) (tag : Nat) (turn : Nat)
  /-- LCB_ERR (R184) -/
  | lcbErr (l : Nat)
  /-- BAD_CELL (R198) -/
  | badCell (l : Nat) (cut : Bool)
  /-- PIXEL (R207) -/
  | cellPixel (l : Nat) (seq : Nat) (mode : Nat) (addr : Nat) (w1 : Nat) (w2 : Nat) (w3 : Nat) (pay : Nat)
  /-- TICK (R206) -/
  | cellTick (l : Nat) (seq : Nat) (mode : Nat) (addr : Nat) (w1 : Nat) (w2 : Nat) (w3 : Nat) (pay : Nat)
  /-- CFG_WR (R220) -/
  | cellCfgWr (l : Nat) (seq : Nat) (mode : Nat) (addr : Nat) (w1 : Nat) (w2 : Nat) (w3 : Nat) (pay : Nat)
  /-- CFG_RD (R220) -/
  | cellCfgRd (l : Nat) (seq : Nat) (mode : Nat) (addr : Nat) (w1 : Nat) (w2 : Nat) (w3 : Nat) (pay : Nat)
  /-- CFG_RSP (R220) -/
  | cellCfgRsp (l : Nat) (seq : Nat) (mode : Nat) (addr : Nat) (w1 : Nat) (w2 : Nat) (w3 : Nat) (pay : Nat)
  /-- DISC (R222) -/
  | cellDisc (l : Nat) (seq : Nat) (mode : Nat) (addr : Nat) (w1 : Nat) (w2 : Nat) (w3 : Nat) (pay : Nat)
  /-- DISC_RSP (R226) -/
  | cellDiscRsp (l : Nat) (seq : Nat) (mode : Nat) (addr : Nat) (w1 : Nat) (w2 : Nat) (w3 : Nat) (pay : Nat)
  /-- TELEM (R238) -/
  | cellTelem (l : Nat) (seq : Nat) (mode : Nat) (addr : Nat) (w1 : Nat) (w2 : Nat) (w3 : Nat) (pay : Nat)
  /-- AUTH (R229) -/
  | cellAuth (l : Nat) (seq : Nat) (mode : Nat) (addr : Nat) (w1 : Nat) (w2 : Nat) (w3 : Nat) (pay : Nat)
  /-- AUTH_RSP (R231) -/
  | cellAuthRsp (l : Nat) (seq : Nat) (mode : Nat) (addr : Nat) (w1 : Nat) (w2 : Nat) (w3 : Nat) (pay : Nat)
  /-- NOTE (R228) -/
  | cellNote (l : Nat) (seq : Nat) (mode : Nat) (addr : Nat) (w1 : Nat) (w2 : Nat) (w3 : Nat) (pay : Nat)
  /-- RETRY_TIMEOUT (R197) -/
  | retryTimeout (l : Nat)
  /-- NAK_REPEAT (R198) -/
  | nakRepeat (l : Nat)
  /-- ACK_TIMER (R198) -/
  | ackTimer (l : Nat)
  /-- FLOW_REPEAT (R201) -/
  | flowRepeat (l : Nat)
  /-- FLOW_TIMEOUT (R201) -/
  | flowTimeout (l : Nat)
  /-- ECHO_PERIOD (R210) -/
  | echoPeriod (l : Nat)
  /-- CELL_SEND (R200) -/
  | cellSend (l : Nat)
  /-- PIXEL_HOLD_END (R208) -/
  | pixelHoldEnd (p : Nat)
  /-- RETRAIN (R189) -/
  | retrain (p : Nat)
  /-- PORT_ENABLE (R203) -/
  | portEnable (p : Nat) (en : Bool)
  /-- PORT_STOP_DONE (R203) -/
  | portStopDone (p : Nat)
  /-- PLK_PRES_WRITE (R209) -/
  | plkPresWrite (v : Nat)
  /-- TILE_PRESENT (R206) -/
  | tilePresent (k : Nat)
  /-- TILE_READY (R223) -/
  | tileReady (k : Nat)
  /-- TELEM_SEND (R238) -/
  | telemSend (k : Nat)
  /-- DISC_TIMEOUT (R223) -/
  | discTimeout (p : Nat)
  /-- READY_TIMEOUT (R223) -/
  | readyTimeout (p : Nat)
  /-- PATROL (R226) -/
  | patrol (p : Nat)
  /-- REDISC (R226) -/
  | redisc (p : Nat)
  /-- CHALLENGE_TIMEOUT (R231) -/
  | challengeTimeout (k : Nat)
  /-- VERIFY_DONE (R417) -/
  | verifyDone
  /-- SIGN_DONE (R417) -/
  | signDone
  /-- REBALANCE (R236) -/
  | rebalance (a : Nat)
  /-- TELEM_STALE (R239) -/
  | telemStale (k : Nat)
  /-- BLT_Q_ENABLE (R242) -/
  | bltQEnable (q : Nat) (v : Nat)
  /-- BLT_TAIL_WRITE (R240) -/
  | bltTailWrite (q : Nat) (v : Nat)
  /-- BLT_NOP (R245) -/
  | bltNop (q : Nat)
  /-- BLT_DRAW (R246) -/
  | bltDraw (q : Nat)
  /-- BLT_WAIT_FENCE (R245) -/
  | bltWaitFence (q : Nat)
  /-- FENCE_WAIT_DONE (R245) -/
  | fenceWaitDone (q : Nat)
  /-- BLT_WAIT_TICK (R245) -/
  | bltWaitTick (q : Nat)
  /-- BLT_FENCE (R254) -/
  | bltFence (q : Nat)
  /-- BLT_DONE (R254) -/
  | bltDone
  /-- WATERMARK (R255) -/
  | watermark
  /-- BLT_EXEC_ERROR (R257) -/
  | bltExecError
  /-- SRAM_WRITEBACK (R268) -/
  | sramWriteback (a : Nat)
  /-- SRAM_MERGE_FLUSH (R269) -/
  | sramMergeFlush (a : Nat)
  /-- HBM_RMW_FLUSH (R274) -/
  | hbmRmwFlush (a : Nat)
  /-- SCRUB_BLOCK (R275) -/
  | scrubBlock
  /-- SCRUB_WINDOW (R277) -/
  | scrubWindow
  /-- MEM_LOG_POP (R280) -/
  | memLogPop (v : Nat)
  /-- DMA_ENABLE (R292) -/
  | dmaEnable (n : Nat) (v : Nat)
  /-- DMA_DESC_FETCH (R285) -/
  | dmaDescFetch (n : Nat)
  /-- DMA_TRIGGER (R287) -/
  | dmaTrigger (n : Nat)
  /-- DMA_BURST (R288) -/
  | dmaBurst
  /-- DMA_DESC_DONE (R286) -/
  | dmaDescDone (n : Nat) (abort : Bool)
  /-- DMA_PAUSE (R291) -/
  | dmaPause (n : Nat) (pause : Bool)
  /-- DMA_PAUSE_DRAINED (R291) -/
  | dmaPauseDrained (n : Nat)
  /-- DMA_ABORT (R291) -/
  | dmaAbort (hi : Bool) (v : Nat)
  /-- DMA_ERROR (R291) -/
  | dmaError (n : Nat)
  /-- SAMPLE_BOUNDARY (R294) -/
  | sampleBoundary (late : List Nat)
  /-- VOICE_ENABLE (R304) -/
  | voiceEnable (v : Nat) (w : Nat)
  /-- VOICE_KILL (R304) -/
  | voiceKill (v : Nat)
  /-- TONE_ENABLE (R304) -/
  | toneEnable (c : Nat) (v : Nat)
  /-- TONE_KILL (R304) -/
  | toneKill (c : Nat)
  /-- PRESET_READ (R307) -/
  | presetRead
  /-- AUD_TRIG_START (R308) -/
  | audTrigStart (voice : Nat) (preset : Nat)
  /-- AUD_TRIG_RELEASE (R308) -/
  | audTrigRelease (voice : Nat)
  /-- AUD_TRIG_STOP (R308) -/
  | audTrigStop (voice : Nat)
  /-- SEND_WRITE (R312) -/
  | sendWrite (src : Nat) (k : Nat) (v : Nat)
  /-- EQ_APPLY (R315) -/
  | eqApply (b : Nat) (mask : Nat)
  /-- TDM_OUT_ENABLE (R322) -/
  | tdmOutEnable (p : Nat) (v : Nat)
  /-- TDM_IN_ENABLE (R323) -/
  | tdmInEnable (ix : Nat) (v : Nat)
  /-- TDM_IN_FRAME (R323) -/
  | tdmInFrame (ix : Nat) (vals : List Nat)
  /-- TDM_IN_LOCK (R323) -/
  | tdmInLock (ix : Nat)
  /-- IN_UNLOCK (R323) -/
  | inUnlock (ix : Nat)
  /-- ADD (R331) -/
  | add (c : Nat)
  /-- SUB (R331) -/
  | sub (c : Nat)
  /-- AND (R331) -/
  | and (c : Nat)
  /-- OR (R331) -/
  | or (c : Nat)
  /-- XOR (R331) -/
  | xor (c : Nat)
  /-- NOR (R331) -/
  | nor (c : Nat)
  /-- SLT (R331) -/
  | slt (c : Nat)
  /-- SLTU (R331) -/
  | sltu (c : Nat)
  /-- SLL (R331) -/
  | sll (c : Nat)
  /-- SRL (R331) -/
  | srl (c : Nat)
  /-- SRA (R331) -/
  | sra (c : Nat)
  /-- SLLI (R331) -/
  | slli (c : Nat)
  /-- SRLI (R331) -/
  | srli (c : Nat)
  /-- SRAI (R331) -/
  | srai (c : Nat)
  /-- MIN (R331) -/
  | min (c : Nat)
  /-- MAX (R331) -/
  | max (c : Nat)
  /-- MINU (R331) -/
  | minu (c : Nat)
  /-- MAXU (R331) -/
  | maxu (c : Nat)
  /-- CLZ (R331) -/
  | clz (c : Nat)
  /-- MUL (R331) -/
  | mul (c : Nat)
  /-- MULH (R331) -/
  | mulh (c : Nat)
  /-- MULHU (R331) -/
  | mulhu (c : Nat)
  /-- DIV (R332) -/
  | div (c : Nat)
  /-- DIVU (R332) -/
  | divu (c : Nat)
  /-- REM (R332) -/
  | rem (c : Nat)
  /-- REMU (R332) -/
  | remu (c : Nat)
  /-- JR (R333) -/
  | jr (c : Nat)
  /-- CALLR (R334) -/
  | callr (c : Nat)
  /-- RET (R334) -/
  | ret (c : Nat)
  /-- ADDI (R331) -/
  | addi (c : Nat)
  /-- SLTI (R331) -/
  | slti (c : Nat)
  /-- SLTIU (R331) -/
  | sltiu (c : Nat)
  /-- ANDI (R331) -/
  | andi (c : Nat)
  /-- ORI (R331) -/
  | ori (c : Nat)
  /-- XORI (R331) -/
  | xori (c : Nat)
  /-- LUI (R331) -/
  | lui (c : Nat)
  /-- BEQ (R333) -/
  | beq (c : Nat)
  /-- BNE (R333) -/
  | bne (c : Nat)
  /-- BLT (R333) -/
  | blt (c : Nat)
  /-- BGE (R333) -/
  | bge (c : Nat)
  /-- BLTU (R333) -/
  | bltu (c : Nat)
  /-- BGEU (R333) -/
  | bgeu (c : Nat)
  /-- LD (R335) -/
  | ld (c : Nat)
  /-- LDU (R335) -/
  | ldu (c : Nat)
  /-- ST (R337) -/
  | st (c : Nat)
  /-- LR (R341) -/
  | lr (c : Nat)
  /-- SC (R341) -/
  | sc (c : Nat)
  /-- TAS (R340) -/
  | tas (c : Nat)
  /-- JMP (R333) -/
  | jmp (c : Nat)
  /-- CALL (R334) -/
  | call (c : Nat)
  /-- BEQZ (R333) -/
  | beqz (c : Nat)
  /-- BNEZ (R333) -/
  | bnez (c : Nat)
  /-- BLTZ (R333) -/
  | bltz (c : Nat)
  /-- BGEZ (R333) -/
  | bgez (c : Nat)
  /-- MFS (R351) -/
  | mfs (c : Nat)
  /-- MTS (R351) -/
  | mts (c : Nat)
  /-- ERET (R345) -/
  | eret (c : Nat)
  /-- TRAP (R345) -/
  | trap (c : Nat)
  /-- BRK (R349) -/
  | brk (c : Nat)
  /-- SYNC_I (R344) -/
  | syncI (c : Nat)
  /-- DRAIN (R339) -/
  | drain (c : Nat)
  /-- STKSAVE (R334) -/
  | stksave (c : Nat)
  /-- STKLOAD (R334) -/
  | stkload (c : Nat)
  /-- WFI (R347) -/
  | wfi (c : Nat)
  /-- INTERRUPT_ENTRY (R346) -/
  | interruptEntry (c : Nat)
  /-- STORE_ACK (R337) -/
  | storeAck (c : Nat)
  /-- STORE_BUS (R345) -/
  | storeBus (c : Nat)
  /-- DBG_HALT (R349) -/
  | dbgHalt (c : Nat)
  /-- DBG_RESUME (R349) -/
  | dbgResume (c : Nat)
  /-- DBG_STEP (R349) -/
  | dbgStep (c : Nat)
  /-- BREAKPOINT (R349) -/
  | breakpoint (c : Nat)
  /-- CORE_RESET (R350) -/
  | coreReset (c : Nat) (v : Nat)
  /-- IRQ_CLAIM (R355) -/
  | irqClaim (c : Nat)
  /-- IRQ_PEEK (R356) -/
  | irqPeek (c : Nat)
  /-- IRQ_EOI (R357) -/
  | irqEoi (c : Nat)
  /-- IRQ_SWI (R358) -/
  | irqSwi (v : Nat)
  /-- IRQ_CLR (R359) -/
  | irqClr (n : Nat)
  /-- WAKE_EVENT (R360) -/
  | wakeEvent
  /-- SLC_COMMIT (R372) -/
  | slcCommit (v : Nat)
  /-- SLC_CHECK_DONE (R373) -/
  | slcCheckDone
  /-- SLC_SWEV (R363) -/
  | slcSwev (v : Nat)
  /-- SLC_LOCK (R374) -/
  | slcLock (n : Nat) (v : Nat)
  /-- PMX_WRITE (R382) -/
  | pmxWrite (p : Nat) (v : Nat)
  /-- PIN_CHANGE (R384) -/
  | pinChange (p : Nat) (d : Nat)
  /-- PIN_FILTER_EXPIRE (R384) -/
  | pinFilterExpire (p : Nat)
  /-- GPIO_FLAG_CLEAR (R385) -/
  | gpioFlagClear (b : Nat) (v : Nat)
  /-- GPIO_TASK (R386) -/
  | gpioTask (p : Nat)
  /-- BANK_SENSE (R377, R490): 0 is 1.8 V, 1 is 3.3 V, 2 no supply -/
  | bankSense (b : Nat) (v33 : Nat)
  /-- GPIO_RELEASE (R389) -/
  | gpioRelease (v : Nat)
  /-- CLV_ENABLE (R401) -/
  | clvEnable (n : Nat) (v : Nat)
  /-- CLV_RESTART (R402) -/
  | clvRestart (n : Nat)
  /-- CLV_CYCLE (R390) -/
  | clvCycle (n : Nat)
  /-- CLV_NOP (R394) -/
  | clvNop (n : Nat)
  /-- EMIT (R394) -/
  | emit (n : Nat)
  /-- SAMPLE (R394) -/
  | sample (n : Nat)
  /-- FETCH (R394) -/
  | fetch (n : Nat)
  /-- DEPOSIT (R394) -/
  | deposit (n : Nat)
  /-- LDCA (R394) -/
  | ldca (n : Nat)
  /-- LDCB (R394) -/
  | ldcb (n : Nat)
  /-- DECC (R394) -/
  | decc (n : Nat)
  /-- CLV_TXDATA (R399) -/
  | clvTxdata (n : Nat) (v : Nat)
  /-- CLV_RXDATA_READ (R399) -/
  | clvRxdataRead (n : Nat) (core : Bool)
  /-- CLV_TRIGGER (R400) -/
  | clvTrigger (n : Nat)
  /-- CLV_PROG_WRITE (R402) -/
  | clvProgWrite (n : Nat) (ix : Nat) (hi : Bool) (v : Nat)
  /-- TMR_ENABLE (R408) -/
  | tmrEnable (n : Nat) (v : Nat)
  /-- COUNT_CLOCK (R404) -/
  | countClock (n : Nat)
  /-- PERIOD_EVENT (R404) -/
  | periodEvent (n : Nat)
  /-- COMPARE_MATCH (R410) -/
  | compareMatch (n : Nat) (k : Nat)
  /-- CAPTURE_RISE (R411) -/
  | captureRise (n : Nat)
  /-- CAPTURE_FALL (R412) -/
  | captureFall (n : Nat)
  /-- TMR_TASK_CLEAR (R414) -/
  | tmrTaskClear (n : Nat)
  /-- TMR_TASK_ENABLE (R414) -/
  | tmrTaskEnable (n : Nat)
  /-- PERIOD_HI_WRITE (R405) -/
  | periodHiWrite (n : Nat) (v : Nat)
  /-- COUNT_HI_WRITE (R406) -/
  | countHiWrite (n : Nat) (v : Nat)
  /-- CMP_HI_WRITE (R409) -/
  | cmpHiWrite (n : Nat) (k : Nat) (v : Nat)
  /-- COUNT_LO_READ (R407) -/
  | countLoRead (n : Nat)
  /-- CAPR_LO_READ (R413) -/
  | caprLoRead (n : Nat)
  /-- CAPF_LO_READ (R413) -/
  | capfLoRead (n : Nat)
  /-- NONCE_REQ (R431) -/
  | nonceReq (k : Nat)
  /-- OPEN (R432) -/
  | open (k : Nat)
  /-- CLOSE (R434) -/
  | close (k : Nat)
  /-- PING (R430) -/
  | ping (k : Nat)
  /-- ATTEST (R436) -/
  | attest (k : Nat)
  /-- OTP_PROGRAM (R422) -/
  | otpProgram (k : Nat)
  /-- OTP_REVOKE (R422) -/
  | otpRevoke (k : Nat)
  /-- ROLLBACK (R425) -/
  | rollback (k : Nat)
  /-- PROVISION (R423) -/
  | provision (k : Nat)
  /-- ADVANCE (R425) -/
  | advance (req : Nat)
  /-- OTP_BIT_DONE (R424) -/
  | otpBitDone (fails : Bool)
  /-- TRNG_FAIL (R419) -/
  | trngFail
  /-- TRNG_RETEST (R419) -/
  | trngRetest (pass : Bool)
  /-- SESSION_TIMEOUT (R434) -/
  | sessionTimeout (ix : Nat)
  /-- SESS_CLOSE (R434) -/
  | sessClose (ix : Nat)
  /-- NONCE_EXPIRE (R431) -/
  | nonceExpire
  /-- PORST_N (R493) -/
  | porstN
  /-- PORST_RELEASE (R446) -/
  | porstRelease (size : Nat) (mode : Nat)
  /-- HBM_TRAIN_DONE (R446) -/
  | hbmTrainDone (height : Nat)
  /-- SECTION_LOADED (R446) -/
  | sectionLoaded
  /-- LIST_WRITE (R445) -/
  | listWrite
  /-- LIST_WAIT (R445) -/
  | listWait
  /-- LIST_WAIT_TIMEOUT (R445) -/
  | listWaitTimeout
  /-- LIST_DELAY (R445) -/
  | listDelay
  /-- LIST_END (R445) -/
  | listEnd
  /-- SBY_ENTER (R451) -/
  | sbyEnter (v : Nat)
  /-- SBY_CUTOFF (R452) -/
  | sbyCutoff
  /-- SBY_SELF_REFRESH (R452) -/
  | sbySelfRefresh
  /-- SBY_REACHED (R452) -/
  | sbyReached
  /-- WAKE_HBM (R455) -/
  | wakeHbm (ok : Bool)
  /-- WAKE_RESTORE (R455) -/
  | wakeRestore
  /-- WAKE_PORTS (R455) -/
  | wakePorts
  /-- WAKE_FIRST_TICK (R457) -/
  | wakeFirstTick
  /-- ERR_N_PULSE_END (R465) -/
  | errNPulseEnd
  /-- QUIET_EXPIRE (R469) -/
  | quietExpire
  /-- FLT_ACK (R468) -/
  | fltAck (v : Nat)
  /-- FLT_RECOVER (R469) -/
  | fltRecover (v : Nat)
  /-- FLT_AUTO_WRITE (R469) -/
  | fltAutoWrite (v : Nat)
  /-- FLT_LOCK (R472) -/
  | fltLock (v : Nat)
  /-- FLT_LOG_POP (R473) -/
  | fltLogPop (v : Nat)
  /-- TEMP_MEASURE (R471) -/
  | tempMeasure (t : Nat)
  /-- THERMTRIP (R502) -/
  | thermtrip
  /-- PCIE_LINK_CHANGE (R476) -/
  | pcieLinkChange (up : Bool) (speed : Nat) (width : Nat) (l1 : Bool) (bme : Bool) (msixEn : Bool) (fmask : Bool)
  /-- PM_CHANGE (R487) -/
  | pmChange (d3 : Bool) (bme : Bool) (msixEn : Bool) (fmask : Bool)
  /-- BAR0_BAD_ACCESS (R477) -/
  | bar0BadAccess (wr : Bool)
  /-- BAR2_ACCESS (R478) -/
  | bar2Access (wr : Bool) (off : Nat) (n : Nat) (bytes : List Nat)
  /-- MB_DOORBELL (R481) -/
  | mbDoorbell (v : Nat)
  /-- FLASH_ERASE (R482) -/
  | flashErase (k : Nat)
  /-- FLASH_WRITE (R482) -/
  | flashWrite (k : Nat)
  /-- FLASH_READ (R482) -/
  | flashRead (k : Nat)
  /-- DEVICE_RESET (R483) -/
  | deviceReset (k : Nat)
  /-- DEVICE_RESET_EFFECT (R483) -/
  | deviceResetEffect
  /-- FW_COMMAND (R484) -/
  | fwCommand (k : Nat)
  /-- FW_DONE (R484) -/
  | fwDone (v : Nat)
  /-- CQ_ENTRY_WRITE (R485) -/
  | cqEntryWrite
  /-- CQ_HEAD_WRITE (R485) -/
  | cqHeadWrite (q : Nat) (v : Nat)
  /-- CQ_MOD_TIMER (R486) -/
  | cqModTimer (q : Nat)
  /-- MSIX_UNMASK (R487) -/
  | msixUnmask (v : Nat)
  /-- OUTBOUND_TIMEOUT (R479) -/
  | outboundTimeout (req : Nat)
  /-- REG_WRITE (R17): a write of a value, or a read where there is none -/
  | regWrite (req : Nat) (off : Nat) (val : Option Nat)
  /-- CELL_CLOCK_EDGE (R370) -/
  | cellClockEdge
  /-- TICK_OUT_END (R379) -/
  | tickOutEnd
  /-- HPD_LOW (R182) -/
  | hpdLow (n : Nat)
  /-- RAIL_LOSS (R491) -/
  | railLoss
  /-- ILLEGAL (R330) -/
  | illegal (c : Nat)
  /-- FETCH_EXCEPTION (R328) -/
  | fetchException (c : Nat)
  deriving DecidableEq, Repr

end Sys2Proof
end

