-- ==== Sys2Proof/Config.lean ====
section
/-! DEFINITION. What the spec leaves open or takes from outside its own text: opaque constants without a body.
Nothing in Lean can evaluate them, so a statement holds for every value of them (log 8, 9). -/

namespace Sys2Proof.Config

/-- The free values: value number `i` that the spec leaves open (log 8). The step supplies `i` from the plain
counter `State.freeCnt`. -/
opaque freeNat : Nat → Nat

/-- Which of several values that the spec allows a fetch takes (R100): the number of the choice, the pixel, the address
(log 10). -/
opaque pick : Nat → Nat → Nat → Nat

/-- The shared secret of an OPEN whose HOST_EPK is no point of the curve (R432), which the spec does not state: the key and
the ephemeral private key (log 9). -/
opaque badShare : List Byte → Nat → Nat

/-- The 48 kHz sample that an input port's rate converter makes for an instant, from a channel's samples and their times
relative to that instant (R323): the spec fixes its latency, not its arithmetic (log 8). -/
opaque rateConvert : List (Int × Int) → Int

/-- The level of a clock or data pin of the sound unit (GPIO number) at a time (log 14). -/
opaque padWave : Nat → Nat → Bool

/-- What a tile at 64 * port + hop - 1 is: its DISC_RSP payload but for CUR_ADDR and the link bits of FLAGS, KEYHASH, its
certificates, its public key X and Y and its signature under it, the telemetry it measures, and its maker's registers: tiles are other parts,
and the spec fixes only the form of what they send (log 13). -/
opaque tileIdent : Nat → Nat
opaque tileCert : Nat → Nat → List Byte
opaque tileKey : Nat → Nat
opaque tileSign : Nat → List Byte → Nat
opaque tileSense : Nat → Nat → Nat
opaque tileReg : Nat → Nat → Nat

end Sys2Proof.Config
end

