-- ==== Sys2Proof/Machine/Regs.lean ====
section
/-! DEFINITION. The register space (R512-R514, R17): the offset of every register, its fields, and per
register its reset value and its access masks, transcribed from the register tables of the chapters.
`R.<name>` is the register-space offset of a register (instance numbers are its arguments, in the spec's
letters; `PLK_TILE` takes 64 x port + address), `F.<register>.<field>` a field of it. -/

namespace Sys2Proof.Machine

/-- A field of a register: the register's offset, the field's lowest bit and its width. -/
structure Fld where
  off : Nat
  lo : Nat
  w : Nat
  deriving DecidableEq, Repr

/-- One register (or an array of one shape) of a block: offset in the block, two array dimensions (count and
stride), its reset value and the access masks of R17. -/
structure RegSpec where
  off : Nat
  n1 : Nat
  s1 : Nat
  n2 : Nat
  s2 : Nat
  reset : Nat
  rw : Nat
  rws : Nat
  rwl : Nat
  w1c : Nat
  w1s : Nat
  wo : Nat
  rc : Nat
  ro : Nat
  deriving DecidableEq, Repr

/-- A block of the register space: base, instances, stride, span (R512) and its registers. -/
structure Block where
  base : Nat
  count : Nat
  stride : Nat
  span : Nat
  regs : List RegSpec
  deriving DecidableEq, Repr

namespace R
def BOOT_DEVID : Nat := 0x0
def ENG_TICK_CTRL : Nat := 0x200000
def ENG_TICK_PERIOD : Nat := 0x200004
def ENG_TICK_FRAC : Nat := 0x200008
def ENG_TICK_STATUS : Nat := 0x20000c
def ENG_GLK_DELAY : Nat := 0x200010
def ENG_GLK_WIN : Nat := 0x200014
def ENG_GLK_PERIOD : Nat := 0x200018
def ENG_GLK_PHASE : Nat := 0x20001c
def ENG_FRAME_CNT_LO : Nat := 0x200020
def ENG_FRAME_CNT_HI : Nat := 0x200024
def ENG_VPLLk_MULT (k : Nat) : Nat := 0x200040 + 0x8 * k
def ENG_VPLLk_CTRL (k : Nat) : Nat := 0x200044 + 0x8 * k
def ENGn_CTRL (n : Nat) : Nat := 0x300000 + 0x10000 * n
def ENGn_HTIME0 (n : Nat) : Nat := 0x300004 + 0x10000 * n
def ENGn_HTIME1 (n : Nat) : Nat := 0x300008 + 0x10000 * n
def ENGn_VTIME0 (n : Nat) : Nat := 0x30000c + 0x10000 * n
def ENGn_VTIME1 (n : Nat) : Nat := 0x300010 + 0x10000 * n
def ENGn_LINE_CREDITS (n : Nat) : Nat := 0x300014 + 0x10000 * n
def ENGn_SLACK (n : Nat) : Nat := 0x300018 + 0x10000 * n
def ENGn_SPILL (n : Nat) : Nat := 0x30001c + 0x10000 * n
def ENGn_DIKE_SUBST (n : Nat) : Nat := 0x300020 + 0x10000 * n
def ENGn_DIKE_FRAME (n : Nat) : Nat := 0x300024 + 0x10000 * n
def ENGn_STATUS (n : Nat) : Nat := 0x300028 + 0x10000 * n
def ENGn_SCHED_BASE_LO (n : Nat) : Nat := 0x300040 + 0x10000 * n
def ENGn_SCHED_BASE_HI (n : Nat) : Nat := 0x300044 + 0x10000 * n
def ENGn_SCHED_CTRL (n : Nat) : Nat := 0x300048 + 0x10000 * n
def ENGn_SCHED_STATUS (n : Nat) : Nat := 0x30004c + 0x10000 * n
def ENGn_SCHED_ERRLOC (n : Nat) : Nat := 0x300050 + 0x10000 * n
def ENGn_SCHED_ID (n : Nat) : Nat := 0x300054 + 0x10000 * n
def ENGn_COST_CHK (n : Nat) : Nat := 0x300058 + 0x10000 * n
def ENGn_Tt_CTRL (n t : Nat) : Nat := 0x301000 + 0x10000 * n + 0x80 * t
def ENGn_Tt_MAP_BASE (n t : Nat) : Nat := 0x301004 + 0x10000 * n + 0x80 * t
def ENGn_Tt_TILE_BASE (n t : Nat) : Nat := 0x301008 + 0x10000 * n + 0x80 * t
def ENGn_Tt_SCROLL (n t : Nat) : Nat := 0x30100c + 0x10000 * n + 0x80 * t
def ENGn_Tt_LTBL_BASE (n t : Nat) : Nat := 0x301010 + 0x10000 * n + 0x80 * t
def ENGn_Tt_COL_BASE (n t : Nat) : Nat := 0x301014 + 0x10000 * n + 0x80 * t
def ENGn_Tt_EDGE (n t : Nat) : Nat := 0x301018 + 0x10000 * n + 0x80 * t
def ENGn_Tt_AFF_A (n t : Nat) : Nat := 0x301020 + 0x10000 * n + 0x80 * t
def ENGn_Tt_AFF_B (n t : Nat) : Nat := 0x301024 + 0x10000 * n + 0x80 * t
def ENGn_Tt_AFF_C (n t : Nat) : Nat := 0x301028 + 0x10000 * n + 0x80 * t
def ENGn_Tt_AFF_D (n t : Nat) : Nat := 0x30102c + 0x10000 * n + 0x80 * t
def ENGn_Tt_AFF_X0 (n t : Nat) : Nat := 0x301030 + 0x10000 * n + 0x80 * t
def ENGn_Tt_AFF_Y0 (n t : Nat) : Nat := 0x301034 + 0x10000 * n + 0x80 * t
def ENGn_WINw_X (n w : Nat) : Nat := 0x301400 + 0x10000 * n + 0x8 * w
def ENGn_WINw_Y (n w : Nat) : Nat := 0x301404 + 0x10000 * n + 0x8 * w
def ENGn_PAL_ADDR (n : Nat) : Nat := 0x300080 + 0x10000 * n
def ENGn_PAL_DATA0 (n : Nat) : Nat := 0x300084 + 0x10000 * n
def ENGn_PAL_DATA1 (n : Nat) : Nat := 0x300088 + 0x10000 * n
def ENGn_TC_CTRL (n : Nat) : Nat := 0x300090 + 0x10000 * n
def ENGn_TC_LOOKUP (n : Nat) : Nat := 0x300094 + 0x10000 * n
def ENGn_TC_MISS (n : Nat) : Nat := 0x300098 + 0x10000 * n
def ENGn_MC_LOOKUP (n : Nat) : Nat := 0x30009c + 0x10000 * n
def ENGn_MC_MISS (n : Nat) : Nat := 0x3000a0 + 0x10000 * n
def OBJ_CTRL : Nat := 0x100000
def OBJ_STATUS : Nat := 0x100004
def OBJ_LOAD_SRC_LO : Nat := 0x100008
def OBJ_LOAD_SRC_HI : Nat := 0x10000c
def OBJ_LOAD_CTRL : Nat := 0x100010
def OBJ_LOAD_POS : Nat := 0x100014
def OBJ_POOL (i : Nat) : Nat := 0x180000 + 0x4 * i
def ENGn_Op_CTRL (n p : Nat) : Nat := 0x301800 + 0x10000 * n + 0x20 * p
def ENGn_OBJ_ORG (n : Nat) : Nat := 0x301840 + 0x10000 * n
def ENGn_OC_LOOKUP (n : Nat) : Nat := 0x3000a4 + 0x10000 * n
def ENGn_OC_MISS (n : Nat) : Nat := 0x3000a8 + 0x10000 * n
def ENGn_OBJ_WAIT (n : Nat) : Nat := 0x3000ac + 0x10000 * n
def ENGn_OC_CTRL (n : Nat) : Nat := 0x3000b0 + 0x10000 * n
def ENGn_COMP_CTRL (n : Nat) : Nat := 0x301c00 + 0x10000 * n
def ENGn_BACKDROP0 (n : Nat) : Nat := 0x301c04 + 0x10000 * n
def ENGn_BACKDROP1 (n : Nat) : Nat := 0x301c08 + 0x10000 * n
def ENGn_ORDERj_LO (n j : Nat) : Nat := 0x301c40 + 0x10000 * n + 0x8 * j
def ENGn_ORDERj_HI (n j : Nat) : Nat := 0x301c44 + 0x10000 * n + 0x8 * j
def ENGn_PBLENDc (n c : Nat) : Nat := 0x301c80 + 0x10000 * n + 0x4 * c
def ENGn_WINw_FX (n w : Nat) : Nat := 0x301410 + 0x10000 * n + 0x10 * w
def ENGn_Bb_CTRL (n b : Nat) : Nat := 0x301a00 + 0x10000 * n + 0x20 * b
def ENGn_Bb_BASE0 (n b : Nat) : Nat := 0x301a04 + 0x10000 * n + 0x20 * b
def ENGn_Bb_BASE1 (n b : Nat) : Nat := 0x301a08 + 0x10000 * n + 0x20 * b
def ENGn_Bb_PITCH (n b : Nat) : Nat := 0x301a0c + 0x10000 * n + 0x20 * b
def ENGn_Bb_SIZE (n b : Nat) : Nat := 0x301a10 + 0x10000 * n + 0x20 * b
def ENGn_Bb_POS (n b : Nat) : Nat := 0x301a14 + 0x10000 * n + 0x20 * b
def ENGn_Bb_FLIP (n b : Nat) : Nat := 0x3000c0 + 0x10000 * n + 0x8 * b
def ENGn_Bb_FLIP_VAL (n b : Nat) : Nat := 0x3000c4 + 0x10000 * n + 0x8 * b
def ENGn_Bb_FLIP_STATUS (n b : Nat) : Nat := 0x3000d0 + 0x10000 * n + 0x4 * b
def ENGn_FLIP_STALL (n : Nat) : Nat := 0x3000d8 + 0x10000 * n
def PLKn_OUT_CTRL (n : Nat) : Nat := 0x600800 + 0x10000 * n
def PLKn_LUT_ADDR (n : Nat) : Nat := 0x600804 + 0x10000 * n
def PLKn_LUT_DATA0 (n : Nat) : Nat := 0x600808 + 0x10000 * n
def PLKn_LUT_DATA1 (n : Nat) : Nat := 0x60080c + 0x10000 * n
def PLD_CTRL : Nat := 0x80000
def PLD_STATUS : Nat := 0x80004
def PLD_STATIC : Nat := 0x80008
def PLD_FREEZE : Nat := 0x8000c
def PLD_TBLb (i : Nat) : Nat := 0xa0000 + 0x4 * i
def PLD_SIG (i : Nat) : Nat := 0xe0000 + 0x8 * i
def PLD_STAT (i : Nat) : Nat := 0xe0004 + 0x8 * i
def ENGn_FS_BASE0 (n : Nat) : Nat := 0x300100 + 0x10000 * n
def ENGn_FS_BASE1 (n : Nat) : Nat := 0x300104 + 0x10000 * n
def ENGn_FS_STATUS (n : Nat) : Nat := 0x300108 + 0x10000 * n
def ENGn_GANG (n : Nat) : Nat := 0x300110 + 0x10000 * n
def ENGn_GANG_POS (n : Nat) : Nat := 0x300114 + 0x10000 * n
def ENG_WARD_CTRL : Nat := 0x200080
def ENG_WARD_MASK : Nat := 0x200084
def ENG_WARD_STATUS : Nat := 0x200088
def ENG_WARD_FENCE : Nat := 0x20008c
def ENG_WARD_MISCNT : Nat := 0x200090
def PVWn_CTRL (n : Nat) : Nat := 0xe000 + 0x1000 * n
def PVWn_CROP_POS (n : Nat) : Nat := 0xe004 + 0x1000 * n
def PVWn_CROP_SIZE (n : Nat) : Nat := 0xe008 + 0x1000 * n
def PVWn_HTIME0 (n : Nat) : Nat := 0xe00c + 0x1000 * n
def PVWn_HTIME1 (n : Nat) : Nat := 0xe010 + 0x1000 * n
def PVWn_STATUS (n : Nat) : Nat := 0xe014 + 0x1000 * n
def PVWn_FILL_CNT (n : Nat) : Nat := 0xe018 + 0x1000 * n
def PVWn_AUX_CMD (n : Nat) : Nat := 0xe020 + 0x1000 * n
def PVWn_AUX_STATUS (n : Nat) : Nat := 0xe024 + 0x1000 * n
def PVWn_AUX_DATAj (n j : Nat) : Nat := 0xe030 + 0x1000 * n + 0x4 * j
def PLK_PRES : Nat := 0x500000
def PLK_STATUS : Nat := 0x500004
def PLKn_CTRL (n : Nat) : Nat := 0x600000 + 0x10000 * n
def PLKn_LSTAT (n : Nat) : Nat := 0x600004 + 0x10000 * n
def PLKn_RETRY (n : Nat) : Nat := 0x600008 + 0x10000 * n
def PLKn_ECHO (n : Nat) : Nat := 0x60000c + 0x10000 * n
def PLKn_LINK_DELAY (n : Nat) : Nat := 0x600010 + 0x10000 * n
def PLKn_TICK_LAT (n : Nat) : Nat := 0x600014 + 0x10000 * n
def PLKn_RETX_FRAME (n : Nat) : Nat := 0x600018 + 0x10000 * n
def PLKn_CELLS_TX (n : Nat) : Nat := 0x600020 + 0x10000 * n
def PLKn_CELLS_RX (n : Nat) : Nat := 0x600024 + 0x10000 * n
def PLKn_CRC_ERR (n : Nat) : Nat := 0x600028 + 0x10000 * n
def PLKn_NAK_TX (n : Nat) : Nat := 0x60002c + 0x10000 * n
def PLKn_NAK_RX (n : Nat) : Nat := 0x600030 + 0x10000 * n
def PLKn_RETX (n : Nat) : Nat := 0x600034 + 0x10000 * n
def PLKn_TIMEOUT (n : Nat) : Nat := 0x600038 + 0x10000 * n
def PLKn_RETRAIN (n : Nat) : Nat := 0x60003c + 0x10000 * n
def PLKn_OVERRUN_CNT (n : Nat) : Nat := 0x600040 + 0x10000 * n
def PLKn_DISCARD (n : Nat) : Nat := 0x600044 + 0x10000 * n
def PLK_AUTH : Nat := 0x500100
def PLK_THERM : Nat := 0x500104
def PLK_THERM2 : Nat := 0x500108
def PLK_LIMITS : Nat := 0x50010c
def PLK_MAXCORR : Nat := 0x500110
def PLK_TILE0 (k : Nat) : Nat := 0x540000 + 0x20 * k
def PLK_TILE1 (k : Nat) : Nat := 0x540004 + 0x20 * k
def PLK_TILE2 (k : Nat) : Nat := 0x540008 + 0x20 * k
def PLK_TILE3 (k : Nat) : Nat := 0x54000c + 0x20 * k
def PLK_TILE4 (k : Nat) : Nat := 0x540010 + 0x20 * k
def PLK_TILE5 (k : Nat) : Nat := 0x540014 + 0x20 * k
def PLK_TILE6 (k : Nat) : Nat := 0x540018 + 0x20 * k
def PLK_TILE7 (k : Nat) : Nat := 0x54001c + 0x20 * k
def PLKn_RING (n : Nat) : Nat := 0x600100 + 0x10000 * n
def PLKn_REBAL (n : Nat) : Nat := 0x600104 + 0x10000 * n
def PLKn_REBAL_RANGE (n : Nat) : Nat := 0x600108 + 0x10000 * n
def PLKn_RSTAT (n : Nat) : Nat := 0x60010c + 0x10000 * n
def PLKn_DISC (n : Nat) : Nat := 0x600110 + 0x10000 * n
def PLKn_CSTAT (n : Nat) : Nat := 0x600114 + 0x10000 * n
def PLKn_BRIGHT (n : Nat) : Nat := 0x600118 + 0x10000 * n
def BLT_CTRL : Nat := 0x9000
def BLT_STATUS : Nat := 0x9004
def BLT_FENCEf (f : Nat) : Nat := 0x9100 + 0x4 * f
def BLT_Qq_CTRL (q : Nat) : Nat := 0x9400 + 0x40 * q
def BLT_Qq_BASE_LO (q : Nat) : Nat := 0x9404 + 0x40 * q
def BLT_Qq_BASE_HI (q : Nat) : Nat := 0x9408 + 0x40 * q
def BLT_Qq_SIZE (q : Nat) : Nat := 0x940c + 0x40 * q
def BLT_Qq_HEAD (q : Nat) : Nat := 0x9410 + 0x40 * q
def BLT_Qq_TAIL (q : Nat) : Nat := 0x9414 + 0x40 * q
def BLT_Qq_STATUS (q : Nat) : Nat := 0x9418 + 0x40 * q
def BLT_Qq_PROG (q : Nat) : Nat := 0x941c + 0x40 * q
def BLT_Qq_CMDS (q : Nat) : Nat := 0x9420 + 0x40 * q
def MEM_CTRL : Nat := 0xa000
def MEM_STATUS : Nat := 0xa004
def MEM_ARB_MINk (k : Nat) : Nat := 0xa010 + 0x4 * k
def MEM_ENGn_SHARE (n : Nat) : Nat := 0xa040 + 0x4 * n
def MEM_SRAM_CE_CNT : Nat := 0xa080
def MEM_SRAM_UE_CNT : Nat := 0xa084
def MEM_HBM_CE_CNT : Nat := 0xa088
def MEM_HBM_UE_CNT : Nat := 0xa08c
def MEM_DECODE_CNT : Nat := 0xa090
def MEM_REPAIR_CNT : Nat := 0xa094
def MEM_LOG_STATUS : Nat := 0xa0a0
def MEM_LOG_ADDR_LO : Nat := 0xa0a4
def MEM_LOG_ADDR_HI : Nat := 0xa0a8
def MEM_LOG_INFO : Nat := 0xa0ac
def MEM_LOG_POP : Nat := 0xa0b0
def MEM_SCRUB_CTRL : Nat := 0xa100
def MEM_SCRUB_ADAPT : Nat := 0xa104
def MEM_SCRUB_STATUS : Nat := 0xa108
def MEM_SCRUB_POS : Nat := 0xa10c
def MEM_INJ_ADDR_LO : Nat := 0xa120
def MEM_INJ_ADDR_HI : Nat := 0xa124
def MEM_INJ_CTRL : Nat := 0xa128
def HBM_STATUS : Nat := 0xb000
def HBM_PCp_CE (p : Nat) : Nat := 0xb100 + 0x4 * p
def DMA_ABORT0 : Nat := 0xc000
def DMA_ABORT1 : Nat := 0xc004
def DMA_ACTIVE0 : Nat := 0xc008
def DMA_ACTIVE1 : Nat := 0xc00c
def DMAn_CTRL (n : Nat) : Nat := 0xd000 + 0x40 * n
def DMAn_STATUS (n : Nat) : Nat := 0xd004 + 0x40 * n
def DMAn_DESC_LO (n : Nat) : Nat := 0xd008 + 0x40 * n
def DMAn_DESC_HI (n : Nat) : Nat := 0xd00c + 0x40 * n
def DMAn_CUR_SRC_LO (n : Nat) : Nat := 0xd010 + 0x40 * n
def DMAn_CUR_SRC_HI (n : Nat) : Nat := 0xd014 + 0x40 * n
def DMAn_CUR_DST_LO (n : Nat) : Nat := 0xd018 + 0x40 * n
def DMAn_CUR_DST_HI (n : Nat) : Nat := 0xd01c + 0x40 * n
def DMAn_RESIDUE (n : Nat) : Nat := 0xd020 + 0x40 * n
def DMAn_CRC (n : Nat) : Nat := 0xd024 + 0x40 * n
def DMAn_TRIG (n : Nat) : Nat := 0xd028 + 0x40 * n
def DMAn_COUNT (n : Nat) : Nat := 0xd02c + 0x40 * n
def AUD_CTRL : Nat := 0x800000
def AUD_SPF : Nat := 0x800004
def AUD_CLK_STATUS : Nat := 0x800008
def AUD_SLIP : Nat := 0x80000c
def AUD_SCNT_LO : Nat := 0x800010
def AUD_SCNT_HI : Nat := 0x800014
def AUD_PRESET_BASE : Nat := 0x800018
def AUD_TRIG : Nat := 0x80001c
def AUD_STATUS : Nat := 0x800020
def AUD_VENDi (i : Nat) : Nat := 0x800040 + 0x4 * i
def AUD_Tc_CTRL (c : Nat) : Nat := 0x801000 + 0x40 * c
def AUD_Tc_FREQ (c : Nat) : Nat := 0x801004 + 0x40 * c
def AUD_Tc_PARAM (c : Nat) : Nat := 0x801008 + 0x40 * c
def AUD_Tc_ENV (c : Nat) : Nat := 0x80100c + 0x40 * c
def AUD_Tc_GAIN (c : Nat) : Nat := 0x801010 + 0x40 * c
def AUD_Tc_OPk (c k : Nat) : Nat := 0x801014 + 0x40 * c + 0x4 * k
def AUD_Vv_CTRL (v : Nat) : Nat := 0x804000 + 0x40 * v
def AUD_Vv_ADDR_LO (v : Nat) : Nat := 0x804004 + 0x40 * v
def AUD_Vv_ADDR_HI (v : Nat) : Nat := 0x804008 + 0x40 * v
def AUD_Vv_LEN (v : Nat) : Nat := 0x80400c + 0x40 * v
def AUD_Vv_LOOP_START (v : Nat) : Nat := 0x804010 + 0x40 * v
def AUD_Vv_PITCH (v : Nat) : Nat := 0x804014 + 0x40 * v
def AUD_Vv_ENV (v : Nat) : Nat := 0x804018 + 0x40 * v
def AUD_Vv_GAIN (v : Nat) : Nat := 0x80401c + 0x40 * v
def AUD_Vv_POS (v : Nat) : Nat := 0x804020 + 0x40 * v
def AUD_Vv_STATUS (v : Nat) : Nat := 0x804024 + 0x40 * v
def AUD_Ss_SENDk (s k : Nat) : Nat := 0x810000 + 0x20 * s + 0x4 * k
def AUD_Ss_RAMP (s : Nat) : Nat := 0x810010 + 0x20 * s
def AUD_Bb_CTRL (b : Nat) : Nat := 0x820000 + 0x100 * b
def AUD_Bb_GAIN (b : Nat) : Nat := 0x820004 + 0x100 * b
def AUD_Bb_DLY_BASE (b : Nat) : Nat := 0x820008 + 0x100 * b
def AUD_Bb_DLY (b : Nat) : Nat := 0x82000c + 0x100 * b
def AUD_Bb_COMP0 (b : Nat) : Nat := 0x820010 + 0x100 * b
def AUD_Bb_COMP1 (b : Nat) : Nat := 0x820014 + 0x100 * b
def AUD_Bb_COMP2 (b : Nat) : Nat := 0x820018 + 0x100 * b
def AUD_Bb_STATUS (b : Nat) : Nat := 0x82001c + 0x100 * b
def AUD_Bb_EQk_B0 (b k : Nat) : Nat := 0x820040 + 0x100 * b + 0x14 * k
def AUD_Bb_EQk_B1 (b k : Nat) : Nat := 0x820044 + 0x100 * b + 0x14 * k
def AUD_Bb_EQk_B2 (b k : Nat) : Nat := 0x820048 + 0x100 * b + 0x14 * k
def AUD_Bb_EQk_A1 (b k : Nat) : Nat := 0x82004c + 0x100 * b + 0x14 * k
def AUD_Bb_EQk_A2 (b k : Nat) : Nat := 0x820050 + 0x100 * b + 0x14 * k
def AUD_Op_CTRL (p : Nat) : Nat := 0x830000 + 0x100 * p
def AUD_Op_FMT (p : Nat) : Nat := 0x830004 + 0x100 * p
def AUD_Op_SLOTj (p j : Nat) : Nat := 0x830040 + 0x100 * p + 0x4 * j
def CPUn_CTRL (n : Nat) : Nat := 0x10000 + 0x1000 * n
def CPUn_BOOT_PC (n : Nat) : Nat := 0x10004 + 0x1000 * n
def CPUn_STATUS (n : Nat) : Nat := 0x10008 + 0x1000 * n
def CPUn_WAIT_CNT (n : Nat) : Nat := 0x1000c + 0x1000 * n
def CPUn_DBG_CTRL (n : Nat) : Nat := 0x10010 + 0x1000 * n
def CPUn_DBG_STATUS (n : Nat) : Nat := 0x10014 + 0x1000 * n
def CPUn_DBG_PC (n : Nat) : Nat := 0x10018 + 0x1000 * n
def CPUn_DBG_SR_SEL (n : Nat) : Nat := 0x1001c + 0x1000 * n
def CPUn_DBG_SR_DATA (n : Nat) : Nat := 0x10020 + 0x1000 * n
def CPUn_BPk (n k : Nat) : Nat := 0x10040 + 0x1000 * n + 0x4 * k
def CPUn_GPRj (n j : Nat) : Nat := 0x10080 + 0x1000 * n + 0x4 * j
def IRQ_CLAIMc (c : Nat) : Nat := 0x4000 + 0x40 * c
def IRQ_EOIc (c : Nat) : Nat := 0x4004 + 0x40 * c
def IRQ_STATc (c : Nat) : Nat := 0x4008 + 0x40 * c
def IRQ_THRESHc (c : Nat) : Nat := 0x400c + 0x40 * c
def IRQ_SWI : Nat := 0x4100
def IRQ_PENDk (k : Nat) : Nat := 0x4200 + 0x4 * k
def IRQ_SRCs (s : Nat) : Nat := 0x5000 + 0x4 * s
def IRQ_WAKEk (k : Nat) : Nat := 0x4400 + 0x4 * k
def IRQ_WAKE_HIT : Nat := 0x4480
def IRQ_WAKE_STATUS : Nat := 0x4484
def SLC_COMMIT : Nat := 0x3000
def SLC_STATUS : Nat := 0x3004
def SLC_SWEV : Nat := 0x3008
def SLC_CHn_CFG (n : Nat) : Nat := 0x3100 + 0x8 * n
def SLC_CHn_STAT (n : Nat) : Nat := 0x3104 + 0x8 * n
def SLC_CELLk_IN01 (k : Nat) : Nat := 0x3400 + 0x10 * k
def SLC_CELLk_IN23 (k : Nat) : Nat := 0x3404 + 0x10 * k
def SLC_CELLk_CFG (k : Nat) : Nat := 0x3408 + 0x10 * k
def SLC_CELLk_STAT (k : Nat) : Nat := 0x340c + 0x10 * k
def GPIO_OUTb (b : Nat) : Nat := 0x6000 + 0x40 * b
def GPIO_OUT_SETb (b : Nat) : Nat := 0x6004 + 0x40 * b
def GPIO_OUT_CLRb (b : Nat) : Nat := 0x6008 + 0x40 * b
def GPIO_OEb (b : Nat) : Nat := 0x600c + 0x40 * b
def GPIO_INb (b : Nat) : Nat := 0x6010 + 0x40 * b
def GPIO_INb_RAW (b : Nat) : Nat := 0x6014 + 0x40 * b
def GPIO_IRQ_FLAGb (b : Nat) : Nat := 0x6018 + 0x40 * b
def GPIO_BANKb_CFG (b : Nat) : Nat := 0x601c + 0x40 * b
def GPIO_SBY_CTRL : Nat := 0x6400
def GPIO_PINp_CFG (p : Nat) : Nat := 0x7000 + 0x10 * p
def GPIO_PINp_IRQ (p : Nat) : Nat := 0x7004 + 0x10 * p
def GPIO_PINp_TASK (p : Nat) : Nat := 0x7008 + 0x10 * p
def GPIO_PINp_SBY (p : Nat) : Nat := 0x700c + 0x10 * p
def PMX_PINp (p : Nat) : Nat := 0x8000 + 0x4 * p
def PMX_STATUS : Nat := 0x8200
def CLVn_CTRL (n : Nat) : Nat := 0x20000 + 0x1000 * n
def CLVn_CLKDIV (n : Nat) : Nat := 0x20004 + 0x1000 * n
def CLVn_PINS (n : Nat) : Nat := 0x20008 + 0x1000 * n
def CLVn_WRAP (n : Nat) : Nat := 0x2000c + 0x1000 * n
def CLVn_LC (n : Nat) : Nat := 0x20010 + 0x1000 * n
def CLVn_TASK (n : Nat) : Nat := 0x20014 + 0x1000 * n
def CLVn_TXDATA (n : Nat) : Nat := 0x20018 + 0x1000 * n
def CLVn_RXDATA (n : Nat) : Nat := 0x2001c + 0x1000 * n
def CLVn_STATUS (n : Nat) : Nat := 0x20020 + 0x1000 * n
def CLVn_SREG (n : Nat) : Nat := 0x20024 + 0x1000 * n
def CLVn_TXSH (n : Nat) : Nat := 0x20028 + 0x1000 * n
def CLVn_RXSH (n : Nat) : Nat := 0x2002c + 0x1000 * n
def CLVn_STALL_CNT (n : Nat) : Nat := 0x20030 + 0x1000 * n
def CLVn_PROGi_LO (n i : Nat) : Nat := 0x20100 + 0x1000 * n + 0x8 * i
def CLVn_PROGi_HI (n i : Nat) : Nat := 0x20104 + 0x1000 * n + 0x8 * i
def TMRn_CTRL (n : Nat) : Nat := 0x30000 + 0x1000 * n
def TMRn_STATUS (n : Nat) : Nat := 0x30004 + 0x1000 * n
def TMRn_COUNT_LO (n : Nat) : Nat := 0x30008 + 0x1000 * n
def TMRn_COUNT_HI (n : Nat) : Nat := 0x3000c + 0x1000 * n
def TMRn_PERIOD_LO (n : Nat) : Nat := 0x30010 + 0x1000 * n
def TMRn_PERIOD_HI (n : Nat) : Nat := 0x30014 + 0x1000 * n
def TMRn_CMPk_LO (n k : Nat) : Nat := 0x30020 + 0x1000 * n + 0x8 * k
def TMRn_CMPk_HI (n k : Nat) : Nat := 0x30024 + 0x1000 * n + 0x8 * k
def TMRn_CAPR_LO (n : Nat) : Nat := 0x30040 + 0x1000 * n
def TMRn_CAPR_HI (n : Nat) : Nat := 0x30044 + 0x1000 * n
def TMRn_CAPF_LO (n : Nat) : Nat := 0x30048 + 0x1000 * n
def TMRn_CAPF_HI (n : Nat) : Nat := 0x3004c + 0x1000 * n
def TMRn_WIDTH (n : Nat) : Nat := 0x30050 + 0x1000 * n
def TMRn_OUT (n : Nat) : Nat := 0x30054 + 0x1000 * n
def TMRn_TASK (n : Nat) : Nat := 0x30058 + 0x1000 * n
def SEC_STATUS : Nat := 0x1000
def SEC_OTP : Nat := 0x1004
def SEC_CTRL : Nat := 0x1008
def SEC_SESS_CFG : Nat := 0x100c
def SEC_DENY_CNT : Nat := 0x1010
def SEC_DEVID_LO : Nat := 0x1018
def SEC_DEVID_HI : Nat := 0x101c
def SEC_DEVPUBj (j : Nat) : Nat := 0x1100 + 0x4 * j
def SEC_SIGNERk_HASHj (k j : Nat) : Nat := 0x1200 + 0x40 * k + 0x4 * j
def SEC_MEASm_j (m j : Nat) : Nat := 0x1800 + 0x40 * m + 0x4 * j
def SEC_SESSs_CTRL (s : Nat) : Nat := 0x1400 + 0x10 * s
def SEC_SESSs_SID (s : Nat) : Nat := 0x1404 + 0x10 * s
def SEC_SESSs_IDLE (s : Nat) : Nat := 0x1408 + 0x10 * s
def SEC_SESSs_SEQ (s : Nat) : Nat := 0x140c + 0x10 * s
def BOOT_STATUS : Nat := 0x4
def BOOT_LIST_IDX : Nat := 0x8
def BOOT_SEC_FAIL : Nat := 0xc
def BOOT_TIMEk (k : Nat) : Nat := 0x10 + 0x4 * k
def BOOT_FLASH : Nat := 0x40
def BOOT_SBY_CTRL : Nat := 0x44
def BOOT_WAKE : Nat := 0x48
def FLT_CTRL : Nat := 0x2000
def FLT_STATUS : Nat := 0x2004
def FLT_QUIET : Nat := 0x2008
def FLT_PIN : Nat := 0x200c
def FLT_CLASS : Nat := 0x2010
def FLT_ACK : Nat := 0x2014
def FLT_ESC_CAP : Nat := 0x2018
def FLT_RECOV : Nat := 0x201c
def FLT_TEMP : Nat := 0x2020
def FLT_THERM : Nat := 0x2024
def FLT_LOG_STATUS : Nat := 0x2040
def FLT_LOG_ENTRY : Nat := 0x2044
def FLT_LOG_FRAME : Nat := 0x2048
def FLT_LOG_POP : Nat := 0x204c
def FLT_SRCs_CFG (s : Nat) : Nat := 0x2400 + 0x8 * s
def FLT_SRCs_CNT (s : Nat) : Nat := 0x2404 + 0x8 * s
def HST_LINK : Nat := 0x40000
def HST_STATUS : Nat := 0x40004
def HST_BAR2_WIN : Nat := 0x40008
def HST_OUT_BASE_LO : Nat := 0x4000c
def HST_OUT_BASE_HI : Nat := 0x40010
def HST_MB_DOORBELL : Nat := 0x40020
def HST_MB_STATE : Nat := 0x40024
def HST_FW_CTRL : Nat := 0x40028
def HST_FW_CMD : Nat := 0x4002c
def HST_FW_DONE : Nat := 0x40030
def HST_CQq_BASE_LO (q : Nat) : Nat := 0x40100 + 0x20 * q
def HST_CQq_BASE_HI (q : Nat) : Nat := 0x40104 + 0x20 * q
def HST_CQq_CFG (q : Nat) : Nat := 0x40108 + 0x20 * q
def HST_CQq_MOD (q : Nat) : Nat := 0x4010c + 0x20 * q
def HST_CQq_HEAD (q : Nat) : Nat := 0x40110 + 0x20 * q
def HST_CQq_TAIL (q : Nat) : Nat := 0x40114 + 0x20 * q
def PLK_LIMITS2 : Nat := 0x500114
def ENGn_WINw_FXCOL0 (n w : Nat) : Nat := 0x301414 + 0x10000 * n + 0x10 * w
def ENGn_WINw_FXCOL1 (n w : Nat) : Nat := 0x301418 + 0x10000 * n + 0x10 * w
def AUD_Ip_CTRL (i : Nat) : Nat := 0x831000 + 0x100 * i
def AUD_Ip_FMT (i : Nat) : Nat := 0x831004 + 0x100 * i
end R

namespace F
def BOOT_DEVID.PART : Fld := ⟨R.BOOT_DEVID, 16, 16⟩
def BOOT_DEVID.REV : Fld := ⟨R.BOOT_DEVID, 8, 8⟩
def BOOT_DEVID.HBM_GIB : Fld := ⟨R.BOOT_DEVID, 0, 8⟩
def ENG_TICK_CTRL.RUN : Fld := ⟨R.ENG_TICK_CTRL, 0, 1⟩
def ENG_TICK_CTRL.SRC : Fld := ⟨R.ENG_TICK_CTRL, 1, 1⟩
def ENG_TICK_CTRL.EDGE : Fld := ⟨R.ENG_TICK_CTRL, 2, 1⟩
def ENG_TICK_CTRL.RESYNC : Fld := ⟨R.ENG_TICK_CTRL, 3, 1⟩
def ENG_TICK_CTRL.FILT : Fld := ⟨R.ENG_TICK_CTRL, 8, 8⟩
def ENG_TICK_CTRL.HOLD_N : Fld := ⟨R.ENG_TICK_CTRL, 16, 4⟩
def ENG_TICK_PERIOD.PERIOD : Fld := ⟨R.ENG_TICK_PERIOD, 0, 25⟩
def ENG_TICK_FRAC.DEN : Fld := ⟨R.ENG_TICK_FRAC, 0, 16⟩
def ENG_TICK_FRAC.NUM : Fld := ⟨R.ENG_TICK_FRAC, 16, 16⟩
def ENG_TICK_STATUS.GLK_STATE : Fld := ⟨R.ENG_TICK_STATUS, 0, 2⟩
def ENG_TICK_STATUS.CFG_REJECT : Fld := ⟨R.ENG_TICK_STATUS, 8, 1⟩
def ENG_TICK_STATUS.MISS : Fld := ⟨R.ENG_TICK_STATUS, 9, 1⟩
def ENG_TICK_STATUS.MISS_CNT : Fld := ⟨R.ENG_TICK_STATUS, 16, 8⟩
def ENG_GLK_DELAY.DELAY : Fld := ⟨R.ENG_GLK_DELAY, 0, 25⟩
def ENG_GLK_WIN.WIN : Fld := ⟨R.ENG_GLK_WIN, 0, 16⟩
def ENG_GLK_WIN.SLEW : Fld := ⟨R.ENG_GLK_WIN, 16, 16⟩
def ENG_GLK_PERIOD.PERIOD : Fld := ⟨R.ENG_GLK_PERIOD, 0, 25⟩
def ENG_GLK_PHASE.ERR : Fld := ⟨R.ENG_GLK_PHASE, 0, 32⟩
def ENG_FRAME_CNT_LO.COUNT_LO : Fld := ⟨R.ENG_FRAME_CNT_LO, 0, 32⟩
def ENG_FRAME_CNT_HI.COUNT_HI : Fld := ⟨R.ENG_FRAME_CNT_HI, 0, 16⟩
def ENG_VPLLk_MULT.MULT (k : Nat) : Fld := ⟨R.ENG_VPLLk_MULT k, 0, 32⟩
def ENG_VPLLk_CTRL.POSTDIV (k : Nat) : Fld := ⟨R.ENG_VPLLk_CTRL k, 0, 8⟩
def ENG_VPLLk_CTRL.PWR (k : Nat) : Fld := ⟨R.ENG_VPLLk_CTRL k, 8, 1⟩
def ENG_VPLLk_CTRL.TRACK (k : Nat) : Fld := ⟨R.ENG_VPLLk_CTRL k, 9, 1⟩
def ENG_VPLLk_CTRL.LOCKED (k : Nat) : Fld := ⟨R.ENG_VPLLk_CTRL k, 16, 1⟩
def ENG_VPLLk_CTRL.REJECT (k : Nat) : Fld := ⟨R.ENG_VPLLk_CTRL k, 17, 1⟩
def ENG_VPLLk_CTRL.RANGE (k : Nat) : Fld := ⟨R.ENG_VPLLk_CTRL k, 18, 1⟩
def ENGn_CTRL.ENABLE (n : Nat) : Fld := ⟨R.ENGn_CTRL n, 0, 1⟩
def ENGn_CTRL.STATE (n : Nat) : Fld := ⟨R.ENGn_CTRL n, 2, 2⟩
def ENGn_CTRL.BERM (n : Nat) : Fld := ⟨R.ENGn_CTRL n, 4, 5⟩
def ENGn_CTRL.VPLL (n : Nat) : Fld := ⟨R.ENGn_CTRL n, 12, 2⟩
def ENGn_HTIME0.H_ACTIVE (n : Nat) : Fld := ⟨R.ENGn_HTIME0 n, 0, 14⟩
def ENGn_HTIME0.H_FP (n : Nat) : Fld := ⟨R.ENGn_HTIME0 n, 16, 12⟩
def ENGn_HTIME1.H_SYNC (n : Nat) : Fld := ⟨R.ENGn_HTIME1 n, 0, 12⟩
def ENGn_HTIME1.H_BP (n : Nat) : Fld := ⟨R.ENGn_HTIME1 n, 16, 12⟩
def ENGn_VTIME0.V_ACTIVE (n : Nat) : Fld := ⟨R.ENGn_VTIME0 n, 0, 13⟩
def ENGn_VTIME0.V_FP (n : Nat) : Fld := ⟨R.ENGn_VTIME0 n, 16, 12⟩
def ENGn_VTIME1.V_SYNC (n : Nat) : Fld := ⟨R.ENGn_VTIME1 n, 0, 12⟩
def ENGn_VTIME1.V_BP (n : Nat) : Fld := ⟨R.ENGn_VTIME1 n, 16, 12⟩
def ENGn_LINE_CREDITS.CREDITS (n : Nat) : Fld := ⟨R.ENGn_LINE_CREDITS n, 0, 16⟩
def ENGn_SLACK.LAST (n : Nat) : Fld := ⟨R.ENGn_SLACK n, 0, 16⟩
def ENGn_SLACK.MIN (n : Nat) : Fld := ⟨R.ENGn_SLACK n, 16, 16⟩
def ENGn_SPILL.THRESH (n : Nat) : Fld := ⟨R.ENGn_SPILL n, 0, 16⟩
def ENGn_SPILL.RELAX (n : Nat) : Fld := ⟨R.ENGn_SPILL n, 16, 8⟩
def ENGn_SPILL.LEVEL (n : Nat) : Fld := ⟨R.ENGn_SPILL n, 24, 4⟩
def ENGn_DIKE_SUBST.COUNT (n : Nat) : Fld := ⟨R.ENGn_DIKE_SUBST n, 0, 32⟩
def ENGn_DIKE_FRAME.COUNT (n : Nat) : Fld := ⟨R.ENGn_DIKE_FRAME n, 0, 13⟩
def ENGn_DIKE_FRAME.FIRST (n : Nat) : Fld := ⟨R.ENGn_DIKE_FRAME n, 16, 13⟩
def ENGn_STATUS.DIKE (n : Nat) : Fld := ⟨R.ENGn_STATUS n, 0, 1⟩
def ENGn_STATUS.TICK_EARLY (n : Nat) : Fld := ⟨R.ENGn_STATUS n, 1, 1⟩
def ENGn_STATUS.CFG_REJECT (n : Nat) : Fld := ⟨R.ENGn_STATUS n, 2, 1⟩
def ENGn_STATUS.FS_VALID (n : Nat) : Fld := ⟨R.ENGn_STATUS n, 3, 1⟩
def ENGn_STATUS.SPILL_ACTIVE (n : Nat) : Fld := ⟨R.ENGn_STATUS n, 4, 1⟩
def ENGn_SCHED_BASE_LO.BASE_LO (n : Nat) : Fld := ⟨R.ENGn_SCHED_BASE_LO n, 4, 28⟩
def ENGn_SCHED_BASE_HI.BASE_HI (n : Nat) : Fld := ⟨R.ENGn_SCHED_BASE_HI n, 0, 8⟩
def ENGn_SCHED_CTRL.LOAD (n : Nat) : Fld := ⟨R.ENGn_SCHED_CTRL n, 0, 1⟩
def ENGn_SCHED_CTRL.COMMIT (n : Nat) : Fld := ⟨R.ENGn_SCHED_CTRL n, 1, 1⟩
def ENGn_SCHED_CTRL.DROP (n : Nat) : Fld := ⟨R.ENGn_SCHED_CTRL n, 2, 1⟩
def ENGn_SCHED_STATUS.LD_STATE (n : Nat) : Fld := ⟨R.ENGn_SCHED_STATUS n, 0, 2⟩
def ENGn_SCHED_STATUS.ACTIVE (n : Nat) : Fld := ⟨R.ENGn_SCHED_STATUS n, 2, 1⟩
def ENGn_SCHED_STATUS.ERR (n : Nat) : Fld := ⟨R.ENGn_SCHED_STATUS n, 8, 8⟩
def ENGn_SCHED_STATUS.MISMATCH (n : Nat) : Fld := ⟨R.ENGn_SCHED_STATUS n, 16, 1⟩
def ENGn_SCHED_STATUS.MARGIN_LOW (n : Nat) : Fld := ⟨R.ENGn_SCHED_STATUS n, 17, 1⟩
def ENGn_SCHED_STATUS.COMMIT_REJECT (n : Nat) : Fld := ⟨R.ENGn_SCHED_STATUS n, 18, 1⟩
def ENGn_SCHED_STATUS.LL_ABORT (n : Nat) : Fld := ⟨R.ENGn_SCHED_STATUS n, 19, 1⟩
def ENGn_SCHED_ERRLOC.OFFSET (n : Nat) : Fld := ⟨R.ENGn_SCHED_ERRLOC n, 0, 32⟩
def ENGn_SCHED_ID.ID (n : Nat) : Fld := ⟨R.ENGn_SCHED_ID n, 0, 32⟩
def ENGn_COST_CHK.OVER (n : Nat) : Fld := ⟨R.ENGn_COST_CHK n, 0, 16⟩
def ENGn_COST_CHK.LINE (n : Nat) : Fld := ⟨R.ENGn_COST_CHK n, 16, 13⟩
def ENGn_Tt_CTRL.EN (n t : Nat) : Fld := ⟨R.ENGn_Tt_CTRL n t, 0, 1⟩
def ENGn_Tt_CTRL.FMT (n t : Nat) : Fld := ⟨R.ENGn_Tt_CTRL n t, 1, 2⟩
def ENGn_Tt_CTRL.TS (n t : Nat) : Fld := ⟨R.ENGn_Tt_CTRL n t, 3, 1⟩
def ENGn_Tt_CTRL.AFFINE (n t : Nat) : Fld := ⟨R.ENGn_Tt_CTRL n t, 4, 1⟩
def ENGn_Tt_CTRL.EDGE (n t : Nat) : Fld := ⟨R.ENGn_Tt_CTRL n t, 5, 2⟩
def ENGn_Tt_CTRL.LTBL (n t : Nat) : Fld := ⟨R.ENGn_Tt_CTRL n t, 7, 1⟩
def ENGn_Tt_CTRL.COL (n t : Nat) : Fld := ⟨R.ENGn_Tt_CTRL n t, 8, 1⟩
def ENGn_Tt_CTRL.ZERO_OPAQUE (n t : Nat) : Fld := ⟨R.ENGn_Tt_CTRL n t, 9, 1⟩
def ENGn_Tt_CTRL.MAPW (n t : Nat) : Fld := ⟨R.ENGn_Tt_CTRL n t, 10, 4⟩
def ENGn_Tt_CTRL.MAPH (n t : Nat) : Fld := ⟨R.ENGn_Tt_CTRL n t, 14, 4⟩
def ENGn_Tt_CTRL.SUBPAL (n t : Nat) : Fld := ⟨R.ENGn_Tt_CTRL n t, 18, 4⟩
def ENGn_Tt_CTRL.PALOFS (n t : Nat) : Fld := ⟨R.ENGn_Tt_CTRL n t, 22, 6⟩
def ENGn_Tt_CTRL.WMODE (n t : Nat) : Fld := ⟨R.ENGn_Tt_CTRL n t, 28, 2⟩
def ENGn_Tt_CTRL.WSEL0 (n t : Nat) : Fld := ⟨R.ENGn_Tt_CTRL n t, 30, 1⟩
def ENGn_Tt_CTRL.WSEL1 (n t : Nat) : Fld := ⟨R.ENGn_Tt_CTRL n t, 31, 1⟩
def ENGn_Tt_MAP_BASE.BASE (n t : Nat) : Fld := ⟨R.ENGn_Tt_MAP_BASE n t, 0, 32⟩
def ENGn_Tt_TILE_BASE.BASE (n t : Nat) : Fld := ⟨R.ENGn_Tt_TILE_BASE n t, 0, 32⟩
def ENGn_Tt_SCROLL.X (n t : Nat) : Fld := ⟨R.ENGn_Tt_SCROLL n t, 0, 16⟩
def ENGn_Tt_SCROLL.Y (n t : Nat) : Fld := ⟨R.ENGn_Tt_SCROLL n t, 16, 16⟩
def ENGn_Tt_LTBL_BASE.BASE (n t : Nat) : Fld := ⟨R.ENGn_Tt_LTBL_BASE n t, 0, 32⟩
def ENGn_Tt_COL_BASE.BASE (n t : Nat) : Fld := ⟨R.ENGn_Tt_COL_BASE n t, 0, 32⟩
def ENGn_Tt_EDGE.ENTRY (n t : Nat) : Fld := ⟨R.ENGn_Tt_EDGE n t, 0, 32⟩
def ENGn_Tt_AFF_A.A (n t : Nat) : Fld := ⟨R.ENGn_Tt_AFF_A n t, 0, 32⟩
def ENGn_Tt_AFF_B.B (n t : Nat) : Fld := ⟨R.ENGn_Tt_AFF_B n t, 0, 32⟩
def ENGn_Tt_AFF_C.C (n t : Nat) : Fld := ⟨R.ENGn_Tt_AFF_C n t, 0, 32⟩
def ENGn_Tt_AFF_D.D (n t : Nat) : Fld := ⟨R.ENGn_Tt_AFF_D n t, 0, 32⟩
def ENGn_Tt_AFF_X0.X0 (n t : Nat) : Fld := ⟨R.ENGn_Tt_AFF_X0 n t, 0, 32⟩
def ENGn_Tt_AFF_Y0.Y0 (n t : Nat) : Fld := ⟨R.ENGn_Tt_AFF_Y0 n t, 0, 32⟩
def ENGn_WINw_X.X0 (n w : Nat) : Fld := ⟨R.ENGn_WINw_X n w, 0, 14⟩
def ENGn_WINw_X.X1 (n w : Nat) : Fld := ⟨R.ENGn_WINw_X n w, 16, 14⟩
def ENGn_WINw_Y.Y0 (n w : Nat) : Fld := ⟨R.ENGn_WINw_Y n w, 0, 13⟩
def ENGn_WINw_Y.Y1 (n w : Nat) : Fld := ⟨R.ENGn_WINw_Y n w, 16, 13⟩
def ENGn_PAL_ADDR.ENTRY (n : Nat) : Fld := ⟨R.ENGn_PAL_ADDR n, 0, 8⟩
def ENGn_PAL_ADDR.PAL (n : Nat) : Fld := ⟨R.ENGn_PAL_ADDR n, 8, 6⟩
def ENGn_PAL_ADDR.AINC (n : Nat) : Fld := ⟨R.ENGn_PAL_ADDR n, 16, 1⟩
def ENGn_PAL_DATA0.LO (n : Nat) : Fld := ⟨R.ENGn_PAL_DATA0 n, 0, 32⟩
def ENGn_PAL_DATA1.HI (n : Nat) : Fld := ⟨R.ENGn_PAL_DATA1 n, 0, 16⟩
def ENGn_TC_CTRL.INV (n : Nat) : Fld := ⟨R.ENGn_TC_CTRL n, 0, 1⟩
def ENGn_TC_LOOKUP.COUNT (n : Nat) : Fld := ⟨R.ENGn_TC_LOOKUP n, 0, 32⟩
def ENGn_TC_MISS.COUNT (n : Nat) : Fld := ⟨R.ENGn_TC_MISS n, 0, 32⟩
def ENGn_MC_LOOKUP.COUNT (n : Nat) : Fld := ⟨R.ENGn_MC_LOOKUP n, 0, 32⟩
def ENGn_MC_MISS.COUNT (n : Nat) : Fld := ⟨R.ENGn_MC_MISS n, 0, 32⟩
def OBJ_CTRL.HOLD : Fld := ⟨R.OBJ_CTRL, 0, 1⟩
def OBJ_CTRL.DISCARD : Fld := ⟨R.OBJ_CTRL, 1, 1⟩
def OBJ_STATUS.LOAD_BUSY : Fld := ⟨R.OBJ_STATUS, 0, 1⟩
def OBJ_STATUS.HELD : Fld := ⟨R.OBJ_STATUS, 1, 1⟩
def OBJ_STATUS.LOAD_ERR : Fld := ⟨R.OBJ_STATUS, 2, 1⟩
def OBJ_STATUS.LOAD_DONE : Fld := ⟨R.OBJ_STATUS, 3, 1⟩
def OBJ_STATUS.REJECT : Fld := ⟨R.OBJ_STATUS, 4, 1⟩
def OBJ_STATUS.PENDING : Fld := ⟨R.OBJ_STATUS, 16, 15⟩
def OBJ_LOAD_SRC_LO.SRC_LO : Fld := ⟨R.OBJ_LOAD_SRC_LO, 5, 27⟩
def OBJ_LOAD_SRC_HI.SRC_HI : Fld := ⟨R.OBJ_LOAD_SRC_HI, 0, 8⟩
def OBJ_LOAD_CTRL.FIRST : Fld := ⟨R.OBJ_LOAD_CTRL, 0, 14⟩
def OBJ_LOAD_CTRL.COUNT_M1 : Fld := ⟨R.OBJ_LOAD_CTRL, 16, 14⟩
def OBJ_LOAD_CTRL.START : Fld := ⟨R.OBJ_LOAD_CTRL, 31, 1⟩
def OBJ_LOAD_POS.DONE : Fld := ⟨R.OBJ_LOAD_POS, 0, 15⟩
def OBJ_POOL.WORD (i : Nat) : Fld := ⟨R.OBJ_POOL i, 0, 32⟩
def ENGn_Op_CTRL.EN (n p : Nat) : Fld := ⟨R.ENGn_Op_CTRL n p, 0, 1⟩
def ENGn_Op_CTRL.PALOFS (n p : Nat) : Fld := ⟨R.ENGn_Op_CTRL n p, 1, 6⟩
def ENGn_Op_CTRL.WMODE (n p : Nat) : Fld := ⟨R.ENGn_Op_CTRL n p, 7, 2⟩
def ENGn_Op_CTRL.WSEL0 (n p : Nat) : Fld := ⟨R.ENGn_Op_CTRL n p, 9, 1⟩
def ENGn_Op_CTRL.WSEL1 (n p : Nat) : Fld := ⟨R.ENGn_Op_CTRL n p, 10, 1⟩
def ENGn_OBJ_ORG.X (n : Nat) : Fld := ⟨R.ENGn_OBJ_ORG n, 0, 16⟩
def ENGn_OBJ_ORG.Y (n : Nat) : Fld := ⟨R.ENGn_OBJ_ORG n, 16, 16⟩
def ENGn_OC_LOOKUP.COUNT (n : Nat) : Fld := ⟨R.ENGn_OC_LOOKUP n, 0, 32⟩
def ENGn_OC_MISS.COUNT (n : Nat) : Fld := ⟨R.ENGn_OC_MISS n, 0, 32⟩
def ENGn_OBJ_WAIT.COUNT (n : Nat) : Fld := ⟨R.ENGn_OBJ_WAIT n, 0, 32⟩
def ENGn_OC_CTRL.INV (n : Nat) : Fld := ⟨R.ENGn_OC_CTRL n, 0, 1⟩
def ENGn_COMP_CTRL.ORDER_MODE (n : Nat) : Fld := ⟨R.ENGn_COMP_CTRL n, 0, 1⟩
def ENGn_COMP_CTRL.TABLE (n : Nat) : Fld := ⟨R.ENGn_COMP_CTRL n, 1, 3⟩
def ENGn_BACKDROP0.B (n : Nat) : Fld := ⟨R.ENGn_BACKDROP0 n, 0, 12⟩
def ENGn_BACKDROP0.G (n : Nat) : Fld := ⟨R.ENGn_BACKDROP0 n, 12, 12⟩
def ENGn_BACKDROP1.RD (n : Nat) : Fld := ⟨R.ENGn_BACKDROP1 n, 0, 12⟩
def ENGn_ORDERj_LO.SLOT0 (n j : Nat) : Fld := ⟨R.ENGn_ORDERj_LO n j, 0, 4⟩
def ENGn_ORDERj_LO.SLOT1 (n j : Nat) : Fld := ⟨R.ENGn_ORDERj_LO n j, 4, 4⟩
def ENGn_ORDERj_LO.SLOT2 (n j : Nat) : Fld := ⟨R.ENGn_ORDERj_LO n j, 8, 4⟩
def ENGn_ORDERj_LO.SLOT3 (n j : Nat) : Fld := ⟨R.ENGn_ORDERj_LO n j, 12, 4⟩
def ENGn_ORDERj_LO.SLOT4 (n j : Nat) : Fld := ⟨R.ENGn_ORDERj_LO n j, 16, 4⟩
def ENGn_ORDERj_LO.SLOT5 (n j : Nat) : Fld := ⟨R.ENGn_ORDERj_LO n j, 20, 4⟩
def ENGn_ORDERj_LO.SLOT6 (n j : Nat) : Fld := ⟨R.ENGn_ORDERj_LO n j, 24, 4⟩
def ENGn_ORDERj_LO.SLOT7 (n j : Nat) : Fld := ⟨R.ENGn_ORDERj_LO n j, 28, 4⟩
def ENGn_ORDERj_HI.SLOT8 (n j : Nat) : Fld := ⟨R.ENGn_ORDERj_HI n j, 0, 4⟩
def ENGn_ORDERj_HI.SLOT9 (n j : Nat) : Fld := ⟨R.ENGn_ORDERj_HI n j, 4, 4⟩
def ENGn_ORDERj_HI.SLOT10 (n j : Nat) : Fld := ⟨R.ENGn_ORDERj_HI n j, 8, 4⟩
def ENGn_ORDERj_HI.SLOT11 (n j : Nat) : Fld := ⟨R.ENGn_ORDERj_HI n j, 12, 4⟩
def ENGn_PBLENDc.MODE (n c : Nat) : Fld := ⟨R.ENGn_PBLENDc n c, 0, 2⟩
def ENGn_PBLENDc.PALPHA (n c : Nat) : Fld := ⟨R.ENGn_PBLENDc n c, 8, 8⟩
def ENGn_WINw_FX.MODE (n w : Nat) : Fld := ⟨R.ENGn_WINw_FX n w, 0, 2⟩
def ENGn_WINw_FX.LEVEL (n w : Nat) : Fld := ⟨R.ENGn_WINw_FX n w, 8, 8⟩
def ENGn_Bb_CTRL.EN (n b : Nat) : Fld := ⟨R.ENGn_Bb_CTRL n b, 0, 1⟩
def ENGn_Bb_CTRL.FMT (n b : Nat) : Fld := ⟨R.ENGn_Bb_CTRL n b, 1, 2⟩
def ENGn_Bb_CTRL.ZOP (n b : Nat) : Fld := ⟨R.ENGn_Bb_CTRL n b, 3, 1⟩
def ENGn_Bb_CTRL.PRI (n b : Nat) : Fld := ⟨R.ENGn_Bb_CTRL n b, 4, 4⟩
def ENGn_Bb_CTRL.PAL (n b : Nat) : Fld := ⟨R.ENGn_Bb_CTRL n b, 8, 6⟩
def ENGn_Bb_CTRL.WMODE (n b : Nat) : Fld := ⟨R.ENGn_Bb_CTRL n b, 14, 2⟩
def ENGn_Bb_CTRL.WSEL0 (n b : Nat) : Fld := ⟨R.ENGn_Bb_CTRL n b, 16, 1⟩
def ENGn_Bb_CTRL.WSEL1 (n b : Nat) : Fld := ⟨R.ENGn_Bb_CTRL n b, 17, 1⟩
def ENGn_Bb_BASE0.BASE (n b : Nat) : Fld := ⟨R.ENGn_Bb_BASE0 n b, 0, 32⟩
def ENGn_Bb_BASE1.BASE (n b : Nat) : Fld := ⟨R.ENGn_Bb_BASE1 n b, 0, 32⟩
def ENGn_Bb_PITCH.PITCH (n b : Nat) : Fld := ⟨R.ENGn_Bb_PITCH n b, 0, 16⟩
def ENGn_Bb_SIZE.W (n b : Nat) : Fld := ⟨R.ENGn_Bb_SIZE n b, 0, 15⟩
def ENGn_Bb_SIZE.H (n b : Nat) : Fld := ⟨R.ENGn_Bb_SIZE n b, 16, 15⟩
def ENGn_Bb_POS.X (n b : Nat) : Fld := ⟨R.ENGn_Bb_POS n b, 0, 16⟩
def ENGn_Bb_POS.Y (n b : Nat) : Fld := ⟨R.ENGn_Bb_POS n b, 16, 16⟩
def ENGn_Bb_FLIP.FENCE (n b : Nat) : Fld := ⟨R.ENGn_Bb_FLIP n b, 0, 6⟩
def ENGn_Bb_FLIP.REQ (n b : Nat) : Fld := ⟨R.ENGn_Bb_FLIP n b, 6, 1⟩
def ENGn_Bb_FLIP.CANCEL (n b : Nat) : Fld := ⟨R.ENGn_Bb_FLIP n b, 7, 1⟩
def ENGn_Bb_FLIP_VAL.VALUE (n b : Nat) : Fld := ⟨R.ENGn_Bb_FLIP_VAL n b, 0, 32⟩
def ENGn_Bb_FLIP_STATUS.FRONT (n b : Nat) : Fld := ⟨R.ENGn_Bb_FLIP_STATUS n b, 0, 1⟩
def ENGn_Bb_FLIP_STATUS.PENDING (n b : Nat) : Fld := ⟨R.ENGn_Bb_FLIP_STATUS n b, 1, 1⟩
def ENGn_Bb_FLIP_STATUS.FLIPPED (n b : Nat) : Fld := ⟨R.ENGn_Bb_FLIP_STATUS n b, 2, 1⟩
def ENGn_Bb_FLIP_STATUS.STALL (n b : Nat) : Fld := ⟨R.ENGn_Bb_FLIP_STATUS n b, 3, 1⟩
def ENGn_Bb_FLIP_STATUS.DEFER (n b : Nat) : Fld := ⟨R.ENGn_Bb_FLIP_STATUS n b, 8, 8⟩
def ENGn_FLIP_STALL.STALL_N (n : Nat) : Fld := ⟨R.ENGn_FLIP_STALL n, 0, 8⟩
def PLKn_OUT_CTRL.FMT (n : Nat) : Fld := ⟨R.PLKn_OUT_CTRL n, 0, 1⟩
def PLKn_OUT_CTRL.LUT_EN (n : Nat) : Fld := ⟨R.PLKn_OUT_CTRL n, 1, 1⟩
def PLKn_OUT_CTRL.LUT_BANK (n : Nat) : Fld := ⟨R.PLKn_OUT_CTRL n, 2, 1⟩
def PLKn_OUT_CTRL.DITHER (n : Nat) : Fld := ⟨R.PLKn_OUT_CTRL n, 3, 1⟩
def PLKn_LUT_ADDR.ENTRY (n : Nat) : Fld := ⟨R.PLKn_LUT_ADDR n, 0, 12⟩
def PLKn_LUT_ADDR.BANK (n : Nat) : Fld := ⟨R.PLKn_LUT_ADDR n, 12, 1⟩
def PLKn_LUT_ADDR.AINC (n : Nat) : Fld := ⟨R.PLKn_LUT_ADDR n, 16, 1⟩
def PLKn_LUT_DATA0.B (n : Nat) : Fld := ⟨R.PLKn_LUT_DATA0 n, 0, 16⟩
def PLKn_LUT_DATA0.G (n : Nat) : Fld := ⟨R.PLKn_LUT_DATA0 n, 16, 16⟩
def PLKn_LUT_DATA1.RD (n : Nat) : Fld := ⟨R.PLKn_LUT_DATA1 n, 0, 16⟩
def PLD_CTRL.BANK : Fld := ⟨R.PLD_CTRL, 0, 1⟩
def PLD_CTRL.CHECK : Fld := ⟨R.PLD_CTRL, 1, 1⟩
def PLD_CTRL.REFRESH_ALL : Fld := ⟨R.PLD_CTRL, 2, 1⟩
def PLD_STATUS.CHK_STATE : Fld := ⟨R.PLD_STATUS, 0, 2⟩
def PLD_STATUS.ACT_BANK : Fld := ⟨R.PLD_STATUS, 2, 1⟩
def PLD_STATUS.BANK_REJECT : Fld := ⟨R.PLD_STATUS, 3, 1⟩
def PLD_STATUS.WR_ACTIVE : Fld := ⟨R.PLD_STATUS, 4, 1⟩
def PLD_STATUS.CHK_ERR : Fld := ⟨R.PLD_STATUS, 8, 8⟩
def PLD_STATUS.CHK_ENTRY : Fld := ⟨R.PLD_STATUS, 16, 12⟩
def PLD_STATIC.ENTER_N : Fld := ⟨R.PLD_STATIC, 0, 8⟩
def PLD_FREEZE.COUNT : Fld := ⟨R.PLD_FREEZE, 0, 13⟩
def PLD_FREEZE.LAST : Fld := ⟨R.PLD_FREEZE, 16, 12⟩
def PLD_TBLb.WORD (i : Nat) : Fld := ⟨R.PLD_TBLb i, 0, 32⟩
def PLD_SIG.CRC (i : Nat) : Fld := ⟨R.PLD_SIG i, 0, 32⟩
def PLD_STAT.SAME_RUN (i : Nat) : Fld := ⟨R.PLD_STAT i, 0, 8⟩
def PLD_STAT.FROZEN (i : Nat) : Fld := ⟨R.PLD_STAT i, 8, 1⟩
def PLD_STAT.STATIC (i : Nat) : Fld := ⟨R.PLD_STAT i, 9, 1⟩
def PLD_STAT.PARTIAL (i : Nat) : Fld := ⟨R.PLD_STAT i, 10, 1⟩
def ENGn_FS_BASE0.BASE (n : Nat) : Fld := ⟨R.ENGn_FS_BASE0 n, 0, 32⟩
def ENGn_FS_BASE1.BASE (n : Nat) : Fld := ⟨R.ENGn_FS_BASE1 n, 0, 32⟩
def ENGn_FS_STATUS.WBUF (n : Nat) : Fld := ⟨R.ENGn_FS_STATUS n, 0, 1⟩
def ENGn_FS_STATUS.FROZEN (n : Nat) : Fld := ⟨R.ENGn_FS_STATUS n, 1, 1⟩
def ENGn_FS_STATUS.PITCH (n : Nat) : Fld := ⟨R.ENGn_FS_STATUS n, 16, 16⟩
def ENGn_GANG.ID (n : Nat) : Fld := ⟨R.ENGn_GANG n, 0, 4⟩
def ENGn_GANG.MISMATCH (n : Nat) : Fld := ⟨R.ENGn_GANG n, 8, 1⟩
def ENGn_GANG_POS.GX (n : Nat) : Fld := ⟨R.ENGn_GANG_POS n, 0, 14⟩
def ENGn_GANG_POS.GY (n : Nat) : Fld := ⟨R.ENGn_GANG_POS n, 16, 13⟩
def ENG_WARD_CTRL.EN : Fld := ⟨R.ENG_WARD_CTRL, 0, 1⟩
def ENG_WARD_CTRL.TAKEOVER : Fld := ⟨R.ENG_WARD_CTRL, 1, 1⟩
def ENG_WARD_CTRL.RELEASE : Fld := ⟨R.ENG_WARD_CTRL, 2, 1⟩
def ENG_WARD_CTRL.CONFIRM_N : Fld := ⟨R.ENG_WARD_CTRL, 4, 4⟩
def ENG_WARD_CTRL.WATCH_N : Fld := ⟨R.ENG_WARD_CTRL, 16, 16⟩
def ENG_WARD_MASK.MASK : Fld := ⟨R.ENG_WARD_MASK, 0, 16⟩
def ENG_WARD_STATUS.WSTATE : Fld := ⟨R.ENG_WARD_STATUS, 0, 2⟩
def ENG_WARD_STATUS.TARGET : Fld := ⟨R.ENG_WARD_STATUS, 4, 4⟩
def ENG_WARD_STATUS.MISMATCH : Fld := ⟨R.ENG_WARD_STATUS, 8, 1⟩
def ENG_WARD_STATUS.TAKEN : Fld := ⟨R.ENG_WARD_STATUS, 9, 1⟩
def ENG_WARD_STATUS.REJECT : Fld := ⟨R.ENG_WARD_STATUS, 10, 1⟩
def ENG_WARD_STATUS.FRAMES : Fld := ⟨R.ENG_WARD_STATUS, 16, 16⟩
def ENG_WARD_FENCE.FENCE : Fld := ⟨R.ENG_WARD_FENCE, 0, 16⟩
def ENG_WARD_MISCNT.LINES : Fld := ⟨R.ENG_WARD_MISCNT, 0, 16⟩
def ENG_WARD_MISCNT.SKIP : Fld := ⟨R.ENG_WARD_MISCNT, 16, 16⟩
def PVWn_CTRL.ENABLE (n : Nat) : Fld := ⟨R.PVWn_CTRL n, 0, 1⟩
def PVWn_CTRL.STATE (n : Nat) : Fld := ⟨R.PVWn_CTRL n, 2, 2⟩
def PVWn_CTRL.SRC (n : Nat) : Fld := ⟨R.PVWn_CTRL n, 4, 5⟩
def PVWn_CTRL.DECIM (n : Nat) : Fld := ⟨R.PVWn_CTRL n, 9, 1⟩
def PVWn_CTRL.BPC (n : Nat) : Fld := ⟨R.PVWn_CTRL n, 10, 1⟩
def PVWn_CTRL.MAXRATE (n : Nat) : Fld := ⟨R.PVWn_CTRL n, 12, 2⟩
def PVWn_CTRL.MAXLANES (n : Nat) : Fld := ⟨R.PVWn_CTRL n, 14, 2⟩
def PVWn_CROP_POS.X (n : Nat) : Fld := ⟨R.PVWn_CROP_POS n, 0, 13⟩
def PVWn_CROP_POS.Y (n : Nat) : Fld := ⟨R.PVWn_CROP_POS n, 16, 13⟩
def PVWn_CROP_SIZE.W (n : Nat) : Fld := ⟨R.PVWn_CROP_SIZE n, 0, 12⟩
def PVWn_CROP_SIZE.H (n : Nat) : Fld := ⟨R.PVWn_CROP_SIZE n, 16, 12⟩
def PVWn_HTIME0.HTOTAL (n : Nat) : Fld := ⟨R.PVWn_HTIME0 n, 0, 14⟩
def PVWn_HTIME0.HSYNC (n : Nat) : Fld := ⟨R.PVWn_HTIME0 n, 16, 12⟩
def PVWn_HTIME1.HBP (n : Nat) : Fld := ⟨R.PVWn_HTIME1 n, 0, 12⟩
def PVWn_STATUS.HPD (n : Nat) : Fld := ⟨R.PVWn_STATUS n, 0, 1⟩
def PVWn_STATUS.LINKUP (n : Nat) : Fld := ⟨R.PVWn_STATUS n, 1, 1⟩
def PVWn_STATUS.TRAIN_FAIL (n : Nat) : Fld := ⟨R.PVWn_STATUS n, 2, 1⟩
def PVWn_STATUS.IRQ_HPD (n : Nat) : Fld := ⟨R.PVWn_STATUS n, 3, 1⟩
def PVWn_STATUS.UNDERFLOW (n : Nat) : Fld := ⟨R.PVWn_STATUS n, 4, 1⟩
def PVWn_STATUS.CFG_REJECT (n : Nat) : Fld := ⟨R.PVWn_STATUS n, 5, 1⟩
def PVWn_STATUS.RATE_ERR (n : Nat) : Fld := ⟨R.PVWn_STATUS n, 6, 1⟩
def PVWn_STATUS.LANES (n : Nat) : Fld := ⟨R.PVWn_STATUS n, 8, 2⟩
def PVWn_STATUS.RATE (n : Nat) : Fld := ⟨R.PVWn_STATUS n, 10, 2⟩
def PVWn_FILL_CNT.COUNT (n : Nat) : Fld := ⟨R.PVWn_FILL_CNT n, 0, 32⟩
def PVWn_AUX_CMD.REQ (n : Nat) : Fld := ⟨R.PVWn_AUX_CMD n, 0, 4⟩
def PVWn_AUX_CMD.ADDR (n : Nat) : Fld := ⟨R.PVWn_AUX_CMD n, 4, 20⟩
def PVWn_AUX_CMD.LEN_M1 (n : Nat) : Fld := ⟨R.PVWn_AUX_CMD n, 24, 4⟩
def PVWn_AUX_CMD.GO (n : Nat) : Fld := ⟨R.PVWn_AUX_CMD n, 31, 1⟩
def PVWn_AUX_STATUS.BUSY (n : Nat) : Fld := ⟨R.PVWn_AUX_STATUS n, 0, 1⟩
def PVWn_AUX_STATUS.RESULT (n : Nat) : Fld := ⟨R.PVWn_AUX_STATUS n, 1, 2⟩
def PVWn_AUX_STATUS.COUNT (n : Nat) : Fld := ⟨R.PVWn_AUX_STATUS n, 8, 5⟩
def PVWn_AUX_DATAj.DATA (n j : Nat) : Fld := ⟨R.PVWn_AUX_DATAj n j, 0, 32⟩
def PLK_PRES.OFS : Fld := ⟨R.PLK_PRES, 0, 32⟩
def PLK_STATUS.CFG_REJECT : Fld := ⟨R.PLK_STATUS, 0, 1⟩
def PLKn_CTRL.ENABLE (n : Nat) : Fld := ⟨R.PLKn_CTRL n, 0, 1⟩
def PLKn_CTRL.STATE (n : Nat) : Fld := ⟨R.PLKn_CTRL n, 2, 2⟩
def PLKn_CTRL.RETRAIN (n : Nat) : Fld := ⟨R.PLKn_CTRL n, 4, 1⟩
def PLKn_LSTAT.LSTATE (n : Nat) : Fld := ⟨R.PLKn_LSTAT n, 0, 2⟩
def PLKn_LSTAT.LOCK (n : Nat) : Fld := ⟨R.PLKn_LSTAT n, 2, 1⟩
def PLKn_LSTAT.PEER_STOP (n : Nat) : Fld := ⟨R.PLKn_LSTAT n, 3, 1⟩
def PLKn_LSTAT.DOWN (n : Nat) : Fld := ⟨R.PLKn_LSTAT n, 8, 1⟩
def PLKn_LSTAT.OVERRUN (n : Nat) : Fld := ⟨R.PLKn_LSTAT n, 9, 1⟩
def PLKn_LSTAT.LCB_ERR (n : Nat) : Fld := ⟨R.PLKn_LSTAT n, 10, 1⟩
def PLKn_LSTAT.FIFO_HWM (n : Nat) : Fld := ⟨R.PLKn_LSTAT n, 16, 16⟩
def PLKn_RETRY.TO (n : Nat) : Fld := ⟨R.PLKn_RETRY n, 0, 16⟩
def PLKn_RETRY.MAX (n : Nat) : Fld := ⟨R.PLKn_RETRY n, 16, 4⟩
def PLKn_RETRY.ACK_N (n : Nat) : Fld := ⟨R.PLKn_RETRY n, 24, 4⟩
def PLKn_ECHO.PERIOD (n : Nat) : Fld := ⟨R.PLKn_ECHO n, 0, 16⟩
def PLKn_LINK_DELAY.DELAY (n : Nat) : Fld := ⟨R.PLKn_LINK_DELAY n, 0, 32⟩
def PLKn_TICK_LAT.LAT (n : Nat) : Fld := ⟨R.PLKn_TICK_LAT n, 0, 32⟩
def PLKn_RETX_FRAME.COUNT (n : Nat) : Fld := ⟨R.PLKn_RETX_FRAME n, 0, 32⟩
def PLKn_CELLS_TX.COUNT (n : Nat) : Fld := ⟨R.PLKn_CELLS_TX n, 0, 32⟩
def PLKn_CELLS_RX.COUNT (n : Nat) : Fld := ⟨R.PLKn_CELLS_RX n, 0, 32⟩
def PLKn_CRC_ERR.COUNT (n : Nat) : Fld := ⟨R.PLKn_CRC_ERR n, 0, 32⟩
def PLKn_NAK_TX.COUNT (n : Nat) : Fld := ⟨R.PLKn_NAK_TX n, 0, 32⟩
def PLKn_NAK_RX.COUNT (n : Nat) : Fld := ⟨R.PLKn_NAK_RX n, 0, 32⟩
def PLKn_RETX.COUNT (n : Nat) : Fld := ⟨R.PLKn_RETX n, 0, 32⟩
def PLKn_TIMEOUT.COUNT (n : Nat) : Fld := ⟨R.PLKn_TIMEOUT n, 0, 32⟩
def PLKn_RETRAIN.COUNT (n : Nat) : Fld := ⟨R.PLKn_RETRAIN n, 0, 32⟩
def PLKn_OVERRUN_CNT.COUNT (n : Nat) : Fld := ⟨R.PLKn_OVERRUN_CNT n, 0, 32⟩
def PLKn_DISCARD.COUNT (n : Nat) : Fld := ⟨R.PLKn_DISCARD n, 0, 32⟩
def PLK_AUTH.POLICY : Fld := ⟨R.PLK_AUTH, 0, 1⟩
def PLK_THERM.KNEE : Fld := ⟨R.PLK_THERM, 0, 16⟩
def PLK_THERM.TMAX : Fld := ⟨R.PLK_THERM, 16, 16⟩
def PLK_THERM2.CAP_MIN : Fld := ⟨R.PLK_THERM2, 0, 16⟩
def PLK_THERM2.RAMP : Fld := ⟨R.PLK_THERM2, 16, 16⟩
def PLK_LIMITS.ILIM : Fld := ⟨R.PLK_LIMITS, 0, 16⟩
def PLK_LIMITS.STALE : Fld := ⟨R.PLK_LIMITS, 16, 12⟩
def PLK_MAXCORR.CORR : Fld := ⟨R.PLK_MAXCORR, 0, 32⟩
def PLK_TILE0.TSTATE (k : Nat) : Fld := ⟨R.PLK_TILE0 k, 0, 3⟩
def PLK_TILE0.ENROLLED (k : Nat) : Fld := ⟨R.PLK_TILE0 k, 3, 1⟩
def PLK_TILE0.BLANK_REQ (k : Nat) : Fld := ⟨R.PLK_TILE0 k, 4, 1⟩
def PLK_TILE0.FEED (k : Nat) : Fld := ⟨R.PLK_TILE0 k, 5, 1⟩
def PLK_TILE0.LATE (k : Nat) : Fld := ⟨R.PLK_TILE0 k, 16, 16⟩
def PLK_TILE1.UID_HI (k : Nat) : Fld := ⟨R.PLK_TILE1 k, 0, 32⟩
def PLK_TILE2.UID_LO (k : Nat) : Fld := ⟨R.PLK_TILE2 k, 0, 32⟩
def PLK_TILE3.RASTER_W (k : Nat) : Fld := ⟨R.PLK_TILE3 k, 0, 16⟩
def PLK_TILE3.RASTER_H (k : Nat) : Fld := ⟨R.PLK_TILE3 k, 16, 16⟩
def PLK_TILE4.TEMP (k : Nat) : Fld := ⟨R.PLK_TILE4 k, 0, 16⟩
def PLK_TILE4.SUPPLY (k : Nat) : Fld := ⟨R.PLK_TILE4 k, 16, 16⟩
def PLK_TILE5.I_LED (k : Nat) : Fld := ⟨R.PLK_TILE5 k, 0, 16⟩
def PLK_TILE5.AGE (k : Nat) : Fld := ⟨R.PLK_TILE5 k, 16, 16⟩
def PLK_TILE6.BRIGHT (k : Nat) : Fld := ⟨R.PLK_TILE6 k, 0, 16⟩
def PLK_TILE6.CAP (k : Nat) : Fld := ⟨R.PLK_TILE6 k, 16, 16⟩
def PLK_TILE7.MAXCORR (k : Nat) : Fld := ⟨R.PLK_TILE7 k, 0, 32⟩
def PLKn_RING.MODE (n : Nat) : Fld := ⟨R.PLKn_RING n, 0, 2⟩
def PLKn_RING.PARTNER (n : Nat) : Fld := ⟨R.PLKn_RING n, 8, 5⟩
def PLKn_RING.SPLIT (n : Nat) : Fld := ⟨R.PLKn_RING n, 16, 7⟩
def PLKn_REBAL.THRESH (n : Nat) : Fld := ⟨R.PLKn_REBAL n, 0, 16⟩
def PLKn_REBAL.N (n : Nat) : Fld := ⟨R.PLKn_REBAL n, 16, 8⟩
def PLKn_REBAL_RANGE.LO (n : Nat) : Fld := ⟨R.PLKn_REBAL_RANGE n, 0, 7⟩
def PLKn_REBAL_RANGE.HI (n : Nat) : Fld := ⟨R.PLKn_REBAL_RANGE n, 16, 7⟩
def PLKn_RSTAT.A_END (n : Nat) : Fld := ⟨R.PLKn_RSTAT n, 0, 7⟩
def PLKn_RSTAT.B_START (n : Nat) : Fld := ⟨R.PLKn_RSTAT n, 8, 7⟩
def PLKn_RSTAT.LEN (n : Nat) : Fld := ⟨R.PLKn_RSTAT n, 16, 7⟩
def PLKn_RSTAT.CLOSED (n : Nat) : Fld := ⟨R.PLKn_RSTAT n, 23, 1⟩
def PLKn_RSTAT.BREAK (n : Nat) : Fld := ⟨R.PLKn_RSTAT n, 24, 1⟩
def PLKn_RSTAT.FAR_NAMED (n : Nat) : Fld := ⟨R.PLKn_RSTAT n, 25, 1⟩
def PLKn_RSTAT.REBALANCED (n : Nat) : Fld := ⟨R.PLKn_RSTAT n, 26, 1⟩
def PLKn_RSTAT.PAIR_ERR (n : Nat) : Fld := ⟨R.PLKn_RSTAT n, 27, 1⟩
def PLKn_RSTAT.CFG_REJECT (n : Nat) : Fld := ⟨R.PLKn_RSTAT n, 28, 1⟩
def PLKn_DISC.PERIOD (n : Nat) : Fld := ⟨R.PLKn_DISC n, 0, 16⟩
def PLKn_DISC.REDISC (n : Nat) : Fld := ⟨R.PLKn_DISC n, 16, 1⟩
def PLKn_CSTAT.REACH (n : Nat) : Fld := ⟨R.PLKn_CSTAT n, 0, 7⟩
def PLKn_CSTAT.OVERFLOW (n : Nat) : Fld := ⟨R.PLKn_CSTAT n, 7, 1⟩
def PLKn_CSTAT.DSTATE (n : Nat) : Fld := ⟨R.PLKn_CSTAT n, 8, 2⟩
def PLKn_CSTAT.TOPO (n : Nat) : Fld := ⟨R.PLKn_CSTAT n, 16, 8⟩
def PLKn_CSTAT.REBAL_CNT (n : Nat) : Fld := ⟨R.PLKn_CSTAT n, 24, 8⟩
def PLKn_BRIGHT.LEVEL (n : Nat) : Fld := ⟨R.PLKn_BRIGHT n, 0, 16⟩
def BLT_CTRL.ARB : Fld := ⟨R.BLT_CTRL, 0, 1⟩
def BLT_STATUS.BUSY : Fld := ⟨R.BLT_STATUS, 0, 1⟩
def BLT_STATUS.CURQ : Fld := ⟨R.BLT_STATUS, 1, 2⟩
def BLT_FENCEf.COUNT (f : Nat) : Fld := ⟨R.BLT_FENCEf f, 0, 32⟩
def BLT_Qq_CTRL.ENABLE (q : Nat) : Fld := ⟨R.BLT_Qq_CTRL q, 0, 1⟩
def BLT_Qq_CTRL.STATE (q : Nat) : Fld := ⟨R.BLT_Qq_CTRL q, 2, 2⟩
def BLT_Qq_BASE_LO.BASE_LO (q : Nat) : Fld := ⟨R.BLT_Qq_BASE_LO q, 7, 25⟩
def BLT_Qq_BASE_HI.BASE_HI (q : Nat) : Fld := ⟨R.BLT_Qq_BASE_HI q, 0, 8⟩
def BLT_Qq_SIZE.LOG2 (q : Nat) : Fld := ⟨R.BLT_Qq_SIZE q, 0, 5⟩
def BLT_Qq_HEAD.HEAD (q : Nat) : Fld := ⟨R.BLT_Qq_HEAD q, 0, 16⟩
def BLT_Qq_TAIL.TAIL (q : Nat) : Fld := ⟨R.BLT_Qq_TAIL q, 0, 16⟩
def BLT_Qq_STATUS.EMPTY (q : Nat) : Fld := ⟨R.BLT_Qq_STATUS q, 0, 1⟩
def BLT_Qq_STATUS.WAITING (q : Nat) : Fld := ⟨R.BLT_Qq_STATUS q, 1, 1⟩
def BLT_Qq_STATUS.WM (q : Nat) : Fld := ⟨R.BLT_Qq_STATUS q, 2, 1⟩
def BLT_Qq_STATUS.DONE (q : Nat) : Fld := ⟨R.BLT_Qq_STATUS q, 3, 1⟩
def BLT_Qq_STATUS.ERR (q : Nat) : Fld := ⟨R.BLT_Qq_STATUS q, 4, 1⟩
def BLT_Qq_STATUS.CFG_REJECT (q : Nat) : Fld := ⟨R.BLT_Qq_STATUS q, 5, 1⟩
def BLT_Qq_STATUS.ERR_CODE (q : Nat) : Fld := ⟨R.BLT_Qq_STATUS q, 8, 8⟩
def BLT_Qq_PROG.ROWS (q : Nat) : Fld := ⟨R.BLT_Qq_PROG q, 0, 15⟩
def BLT_Qq_CMDS.COUNT (q : Nat) : Fld := ⟨R.BLT_Qq_CMDS q, 0, 32⟩
def MEM_CTRL.LOG_CE : Fld := ⟨R.MEM_CTRL, 0, 1⟩
def MEM_CTRL.LOCK : Fld := ⟨R.MEM_CTRL, 1, 1⟩
def MEM_STATUS.CFG_REJECT : Fld := ⟨R.MEM_STATUS, 0, 1⟩
def MEM_STATUS.REPAIR_DROP : Fld := ⟨R.MEM_STATUS, 1, 1⟩
def MEM_STATUS.LOG_OVERFLOW : Fld := ⟨R.MEM_STATUS, 2, 1⟩
def MEM_STATUS.INJ_DONE : Fld := ⟨R.MEM_STATUS, 3, 1⟩
def MEM_ARB_MINk.MIN (k : Nat) : Fld := ⟨R.MEM_ARB_MINk k, 0, 20⟩
def MEM_ENGn_SHARE.SHARE (n : Nat) : Fld := ⟨R.MEM_ENGn_SHARE n, 0, 20⟩
def MEM_SRAM_CE_CNT.COUNT : Fld := ⟨R.MEM_SRAM_CE_CNT, 0, 32⟩
def MEM_SRAM_UE_CNT.COUNT : Fld := ⟨R.MEM_SRAM_UE_CNT, 0, 32⟩
def MEM_HBM_CE_CNT.COUNT : Fld := ⟨R.MEM_HBM_CE_CNT, 0, 32⟩
def MEM_HBM_UE_CNT.COUNT : Fld := ⟨R.MEM_HBM_UE_CNT, 0, 32⟩
def MEM_DECODE_CNT.COUNT : Fld := ⟨R.MEM_DECODE_CNT, 0, 32⟩
def MEM_REPAIR_CNT.COUNT : Fld := ⟨R.MEM_REPAIR_CNT, 0, 32⟩
def MEM_LOG_STATUS.COUNT : Fld := ⟨R.MEM_LOG_STATUS, 0, 5⟩
def MEM_LOG_ADDR_LO.ADDR_LO : Fld := ⟨R.MEM_LOG_ADDR_LO, 0, 32⟩
def MEM_LOG_ADDR_HI.ADDR_HI : Fld := ⟨R.MEM_LOG_ADDR_HI, 0, 8⟩
def MEM_LOG_INFO.TYPE : Fld := ⟨R.MEM_LOG_INFO, 0, 4⟩
def MEM_LOG_INFO.REQ : Fld := ⟨R.MEM_LOG_INFO, 8, 8⟩
def MEM_LOG_INFO.SYMS : Fld := ⟨R.MEM_LOG_INFO, 16, 2⟩
def MEM_LOG_INFO.PC : Fld := ⟨R.MEM_LOG_INFO, 24, 4⟩
def MEM_LOG_POP.POP : Fld := ⟨R.MEM_LOG_POP, 0, 1⟩
def MEM_SCRUB_CTRL.EN : Fld := ⟨R.MEM_SCRUB_CTRL, 0, 1⟩
def MEM_SCRUB_CTRL.MIN_H : Fld := ⟨R.MEM_SCRUB_CTRL, 8, 5⟩
def MEM_SCRUB_CTRL.MAX_H : Fld := ⟨R.MEM_SCRUB_CTRL, 16, 5⟩
def MEM_SCRUB_ADAPT.WIN : Fld := ⟨R.MEM_SCRUB_ADAPT, 0, 8⟩
def MEM_SCRUB_ADAPT.UP_N : Fld := ⟨R.MEM_SCRUB_ADAPT, 8, 8⟩
def MEM_SCRUB_ADAPT.DN_N : Fld := ⟨R.MEM_SCRUB_ADAPT, 16, 8⟩
def MEM_SCRUB_ADAPT.DN_WIN : Fld := ⟨R.MEM_SCRUB_ADAPT, 24, 4⟩
def MEM_SCRUB_STATUS.PERIOD_H : Fld := ⟨R.MEM_SCRUB_STATUS, 0, 5⟩
def MEM_SCRUB_STATUS.PASSES : Fld := ⟨R.MEM_SCRUB_STATUS, 16, 16⟩
def MEM_SCRUB_POS.BLOCK : Fld := ⟨R.MEM_SCRUB_POS, 0, 30⟩
def MEM_INJ_ADDR_LO.ADDR_LO : Fld := ⟨R.MEM_INJ_ADDR_LO, 0, 32⟩
def MEM_INJ_ADDR_HI.ADDR_HI : Fld := ⟨R.MEM_INJ_ADDR_HI, 0, 8⟩
def MEM_INJ_CTRL.N : Fld := ⟨R.MEM_INJ_CTRL, 0, 2⟩
def MEM_INJ_CTRL.ARM : Fld := ⟨R.MEM_INJ_CTRL, 2, 1⟩
def HBM_STATUS.TRAINED : Fld := ⟨R.HBM_STATUS, 0, 1⟩
def HBM_STATUS.SELF_REFRESH : Fld := ⟨R.HBM_STATUS, 1, 1⟩
def HBM_STATUS.HEIGHT : Fld := ⟨R.HBM_STATUS, 8, 4⟩
def HBM_PCp_CE.COUNT (p : Nat) : Fld := ⟨R.HBM_PCp_CE p, 0, 16⟩
def DMA_ABORT0.ABORT : Fld := ⟨R.DMA_ABORT0, 0, 32⟩
def DMA_ABORT1.ABORT : Fld := ⟨R.DMA_ABORT1, 0, 32⟩
def DMA_ACTIVE0.ACTIVE : Fld := ⟨R.DMA_ACTIVE0, 0, 32⟩
def DMA_ACTIVE1.ACTIVE : Fld := ⟨R.DMA_ACTIVE1, 0, 32⟩
def DMAn_CTRL.ENABLE (n : Nat) : Fld := ⟨R.DMAn_CTRL n, 0, 1⟩
def DMAn_CTRL.PAUSE (n : Nat) : Fld := ⟨R.DMAn_CTRL n, 1, 1⟩
def DMAn_CTRL.STATE (n : Nat) : Fld := ⟨R.DMAn_CTRL n, 2, 2⟩
def DMAn_CTRL.PRIO (n : Nat) : Fld := ⟨R.DMAn_CTRL n, 4, 2⟩
def DMAn_STATUS.PAUSED (n : Nat) : Fld := ⟨R.DMAn_STATUS n, 0, 1⟩
def DMAn_STATUS.WAITING (n : Nat) : Fld := ⟨R.DMAn_STATUS n, 1, 1⟩
def DMAn_STATUS.TRIG_PEND (n : Nat) : Fld := ⟨R.DMAn_STATUS n, 2, 1⟩
def DMAn_STATUS.TRIG_OVR (n : Nat) : Fld := ⟨R.DMAn_STATUS n, 3, 1⟩
def DMAn_STATUS.DONE (n : Nat) : Fld := ⟨R.DMAn_STATUS n, 4, 1⟩
def DMAn_STATUS.ABORTED (n : Nat) : Fld := ⟨R.DMAn_STATUS n, 5, 1⟩
def DMAn_STATUS.ERR (n : Nat) : Fld := ⟨R.DMAn_STATUS n, 6, 1⟩
def DMAn_STATUS.CFG_REJECT (n : Nat) : Fld := ⟨R.DMAn_STATUS n, 7, 1⟩
def DMAn_STATUS.ERR_CODE (n : Nat) : Fld := ⟨R.DMAn_STATUS n, 8, 8⟩
def DMAn_STATUS.SEQ (n : Nat) : Fld := ⟨R.DMAn_STATUS n, 16, 16⟩
def DMAn_DESC_LO.DESC_LO (n : Nat) : Fld := ⟨R.DMAn_DESC_LO n, 4, 28⟩
def DMAn_DESC_HI.DESC_HI (n : Nat) : Fld := ⟨R.DMAn_DESC_HI n, 0, 8⟩
def DMAn_CUR_SRC_LO.ADDR_LO (n : Nat) : Fld := ⟨R.DMAn_CUR_SRC_LO n, 0, 32⟩
def DMAn_CUR_SRC_HI.ADDR_HI (n : Nat) : Fld := ⟨R.DMAn_CUR_SRC_HI n, 0, 8⟩
def DMAn_CUR_DST_LO.ADDR_LO (n : Nat) : Fld := ⟨R.DMAn_CUR_DST_LO n, 0, 32⟩
def DMAn_CUR_DST_HI.ADDR_HI (n : Nat) : Fld := ⟨R.DMAn_CUR_DST_HI n, 0, 8⟩
def DMAn_RESIDUE.UNITS (n : Nat) : Fld := ⟨R.DMAn_RESIDUE n, 0, 32⟩
def DMAn_CRC.CRC (n : Nat) : Fld := ⟨R.DMAn_CRC n, 0, 32⟩
def DMAn_TRIG.CH (n : Nat) : Fld := ⟨R.DMAn_TRIG n, 0, 6⟩
def DMAn_TRIG.EN (n : Nat) : Fld := ⟨R.DMAn_TRIG n, 6, 1⟩
def DMAn_COUNT.COUNT (n : Nat) : Fld := ⟨R.DMAn_COUNT n, 0, 32⟩
def AUD_CTRL.MCLK_EN : Fld := ⟨R.AUD_CTRL, 0, 1⟩
def AUD_SPF.BASE : Fld := ⟨R.AUD_SPF, 0, 12⟩
def AUD_SPF.NUM : Fld := ⟨R.AUD_SPF, 12, 8⟩
def AUD_SPF.DEN : Fld := ⟨R.AUD_SPF, 20, 8⟩
def AUD_CLK_STATUS.ACC : Fld := ⟨R.AUD_CLK_STATUS, 0, 8⟩
def AUD_CLK_STATUS.RATE_ERR : Fld := ⟨R.AUD_CLK_STATUS, 8, 1⟩
def AUD_CLK_STATUS.LAST_S : Fld := ⟨R.AUD_CLK_STATUS, 16, 12⟩
def AUD_SLIP.SLIP : Fld := ⟨R.AUD_SLIP, 0, 16⟩
def AUD_SLIP.SHORT : Fld := ⟨R.AUD_SLIP, 16, 16⟩
def AUD_SCNT_LO.COUNT_LO : Fld := ⟨R.AUD_SCNT_LO, 0, 32⟩
def AUD_SCNT_HI.COUNT_HI : Fld := ⟨R.AUD_SCNT_HI, 0, 16⟩
def AUD_PRESET_BASE.BASE : Fld := ⟨R.AUD_PRESET_BASE, 0, 32⟩
def AUD_TRIG.VOICE : Fld := ⟨R.AUD_TRIG, 0, 9⟩
def AUD_TRIG.ACTION : Fld := ⟨R.AUD_TRIG, 9, 3⟩
def AUD_TRIG.PRESET : Fld := ⟨R.AUD_TRIG, 16, 16⟩
def AUD_STATUS.CFG_REJECT : Fld := ⟨R.AUD_STATUS, 0, 1⟩
def AUD_VENDi.END (i : Nat) : Fld := ⟨R.AUD_VENDi i, 0, 32⟩
def AUD_Tc_CTRL.ENABLE (c : Nat) : Fld := ⟨R.AUD_Tc_CTRL c, 0, 1⟩
def AUD_Tc_CTRL.KILL (c : Nat) : Fld := ⟨R.AUD_Tc_CTRL c, 1, 1⟩
def AUD_Tc_CTRL.STATE (c : Nat) : Fld := ⟨R.AUD_Tc_CTRL c, 2, 2⟩
def AUD_Tc_CTRL.TYPE (c : Nat) : Fld := ⟨R.AUD_Tc_CTRL c, 4, 2⟩
def AUD_Tc_CTRL.ALG (c : Nat) : Fld := ⟨R.AUD_Tc_CTRL c, 6, 2⟩
def AUD_Tc_CTRL.FB (c : Nat) : Fld := ⟨R.AUD_Tc_CTRL c, 8, 3⟩
def AUD_Tc_FREQ.INC (c : Nat) : Fld := ⟨R.AUD_Tc_FREQ c, 0, 24⟩
def AUD_Tc_PARAM.DUTY (c : Nat) : Fld := ⟨R.AUD_Tc_PARAM c, 0, 8⟩
def AUD_Tc_ENV.ATTACK (c : Nat) : Fld := ⟨R.AUD_Tc_ENV c, 0, 16⟩
def AUD_Tc_ENV.RELEASE (c : Nat) : Fld := ⟨R.AUD_Tc_ENV c, 16, 16⟩
def AUD_Tc_GAIN.GAIN (c : Nat) : Fld := ⟨R.AUD_Tc_GAIN c, 0, 16⟩
def AUD_Tc_OPk.LEVEL (c k : Nat) : Fld := ⟨R.AUD_Tc_OPk c k, 0, 16⟩
def AUD_Tc_OPk.MULT (c k : Nat) : Fld := ⟨R.AUD_Tc_OPk c k, 16, 4⟩
def AUD_Vv_CTRL.ENABLE (v : Nat) : Fld := ⟨R.AUD_Vv_CTRL v, 0, 1⟩
def AUD_Vv_CTRL.KILL (v : Nat) : Fld := ⟨R.AUD_Vv_CTRL v, 1, 1⟩
def AUD_Vv_CTRL.STATE (v : Nat) : Fld := ⟨R.AUD_Vv_CTRL v, 2, 2⟩
def AUD_Vv_CTRL.FMT (v : Nat) : Fld := ⟨R.AUD_Vv_CTRL v, 4, 1⟩
def AUD_Vv_CTRL.LOOP (v : Nat) : Fld := ⟨R.AUD_Vv_CTRL v, 5, 1⟩
def AUD_Vv_ADDR_LO.ADDR_LO (v : Nat) : Fld := ⟨R.AUD_Vv_ADDR_LO v, 0, 32⟩
def AUD_Vv_ADDR_HI.ADDR_HI (v : Nat) : Fld := ⟨R.AUD_Vv_ADDR_HI v, 0, 8⟩
def AUD_Vv_LEN.LEN (v : Nat) : Fld := ⟨R.AUD_Vv_LEN v, 0, 32⟩
def AUD_Vv_LOOP_START.START (v : Nat) : Fld := ⟨R.AUD_Vv_LOOP_START v, 0, 32⟩
def AUD_Vv_PITCH.PITCH (v : Nat) : Fld := ⟨R.AUD_Vv_PITCH v, 0, 20⟩
def AUD_Vv_ENV.ATTACK (v : Nat) : Fld := ⟨R.AUD_Vv_ENV v, 0, 16⟩
def AUD_Vv_ENV.RELEASE (v : Nat) : Fld := ⟨R.AUD_Vv_ENV v, 16, 16⟩
def AUD_Vv_GAIN.GAIN (v : Nat) : Fld := ⟨R.AUD_Vv_GAIN v, 0, 16⟩
def AUD_Vv_POS.POS (v : Nat) : Fld := ⟨R.AUD_Vv_POS v, 0, 32⟩
def AUD_Vv_STATUS.UNDERRUN (v : Nat) : Fld := ⟨R.AUD_Vv_STATUS v, 0, 1⟩
def AUD_Vv_STATUS.CFG_REJECT (v : Nat) : Fld := ⟨R.AUD_Vv_STATUS v, 1, 1⟩
def AUD_Ss_SENDk.BUS (s k : Nat) : Fld := ⟨R.AUD_Ss_SENDk s k, 0, 5⟩
def AUD_Ss_SENDk.EN (s k : Nat) : Fld := ⟨R.AUD_Ss_SENDk s k, 7, 1⟩
def AUD_Ss_SENDk.GAIN (s k : Nat) : Fld := ⟨R.AUD_Ss_SENDk s k, 16, 16⟩
def AUD_Ss_RAMP.RAMP (s : Nat) : Fld := ⟨R.AUD_Ss_RAMP s, 0, 16⟩
def AUD_Ss_RAMP.ROUTE_HELD (s : Nat) : Fld := ⟨R.AUD_Ss_RAMP s, 16, 1⟩
def AUD_Bb_CTRL.EQ_EN (b : Nat) : Fld := ⟨R.AUD_Bb_CTRL b, 0, 1⟩
def AUD_Bb_CTRL.DLY_EN (b : Nat) : Fld := ⟨R.AUD_Bb_CTRL b, 1, 1⟩
def AUD_Bb_CTRL.COMP_EN (b : Nat) : Fld := ⟨R.AUD_Bb_CTRL b, 2, 1⟩
def AUD_Bb_CTRL.MUTE (b : Nat) : Fld := ⟨R.AUD_Bb_CTRL b, 3, 1⟩
def AUD_Bb_CTRL.APPLY (b : Nat) : Fld := ⟨R.AUD_Bb_CTRL b, 8, 8⟩
def AUD_Bb_GAIN.GAIN (b : Nat) : Fld := ⟨R.AUD_Bb_GAIN b, 0, 16⟩
def AUD_Bb_GAIN.RAMP (b : Nat) : Fld := ⟨R.AUD_Bb_GAIN b, 16, 16⟩
def AUD_Bb_DLY_BASE.BASE (b : Nat) : Fld := ⟨R.AUD_Bb_DLY_BASE b, 0, 32⟩
def AUD_Bb_DLY.DLY (b : Nat) : Fld := ⟨R.AUD_Bb_DLY b, 0, 17⟩
def AUD_Bb_COMP0.THRESH (b : Nat) : Fld := ⟨R.AUD_Bb_COMP0 b, 0, 16⟩
def AUD_Bb_COMP0.RATIO (b : Nat) : Fld := ⟨R.AUD_Bb_COMP0 b, 16, 16⟩
def AUD_Bb_COMP1.ATTACK (b : Nat) : Fld := ⟨R.AUD_Bb_COMP1 b, 0, 16⟩
def AUD_Bb_COMP1.RELEASE (b : Nat) : Fld := ⟨R.AUD_Bb_COMP1 b, 16, 16⟩
def AUD_Bb_COMP2.LA (b : Nat) : Fld := ⟨R.AUD_Bb_COMP2 b, 0, 7⟩
def AUD_Bb_COMP2.MAKEUP (b : Nat) : Fld := ⟨R.AUD_Bb_COMP2 b, 16, 16⟩
def AUD_Bb_STATUS.CLIP (b : Nat) : Fld := ⟨R.AUD_Bb_STATUS b, 0, 1⟩
def AUD_Bb_STATUS.GR (b : Nat) : Fld := ⟨R.AUD_Bb_STATUS b, 16, 16⟩
def AUD_Bb_EQk_B0.B0 (b k : Nat) : Fld := ⟨R.AUD_Bb_EQk_B0 b k, 0, 32⟩
def AUD_Bb_EQk_B1.B1 (b k : Nat) : Fld := ⟨R.AUD_Bb_EQk_B1 b k, 0, 32⟩
def AUD_Bb_EQk_B2.B2 (b k : Nat) : Fld := ⟨R.AUD_Bb_EQk_B2 b k, 0, 32⟩
def AUD_Bb_EQk_A1.A1 (b k : Nat) : Fld := ⟨R.AUD_Bb_EQk_A1 b k, 0, 32⟩
def AUD_Bb_EQk_A2.A2 (b k : Nat) : Fld := ⟨R.AUD_Bb_EQk_A2 b k, 0, 32⟩
def AUD_Op_CTRL.ENABLE (p : Nat) : Fld := ⟨R.AUD_Op_CTRL p, 0, 1⟩
def AUD_Op_CTRL.STATE (p : Nat) : Fld := ⟨R.AUD_Op_CTRL p, 2, 2⟩
def AUD_Op_CTRL.CFG_REJECT (p : Nat) : Fld := ⟨R.AUD_Op_CTRL p, 5, 1⟩
def AUD_Op_CTRL.PDELAY (p : Nat) : Fld := ⟨R.AUD_Op_CTRL p, 16, 14⟩
def AUD_Op_FMT.MODE (p : Nat) : Fld := ⟨R.AUD_Op_FMT p, 0, 2⟩
def AUD_Op_FMT.SLOTS_M1 (p : Nat) : Fld := ⟨R.AUD_Op_FMT p, 2, 4⟩
def AUD_Op_FMT.WIDTH (p : Nat) : Fld := ⟨R.AUD_Op_FMT p, 6, 2⟩
def AUD_Op_FMT.DATA (p : Nat) : Fld := ⟨R.AUD_Op_FMT p, 8, 2⟩
def AUD_Op_FMT.FS_DELAY (p : Nat) : Fld := ⟨R.AUD_Op_FMT p, 10, 1⟩
def AUD_Op_FMT.BCLK_INV (p : Nat) : Fld := ⟨R.AUD_Op_FMT p, 11, 1⟩
def AUD_Op_FMT.FS_INV (p : Nat) : Fld := ⟨R.AUD_Op_FMT p, 12, 1⟩
def AUD_Op_SLOTj.BUS (p j : Nat) : Fld := ⟨R.AUD_Op_SLOTj p j, 0, 6⟩
def CPUn_CTRL.RESET (n : Nat) : Fld := ⟨R.CPUn_CTRL n, 0, 1⟩
def CPUn_BOOT_PC.PC (n : Nat) : Fld := ⟨R.CPUn_BOOT_PC n, 2, 15⟩
def CPUn_STATUS.IN_RESET (n : Nat) : Fld := ⟨R.CPUn_STATUS n, 0, 1⟩
def CPUn_STATUS.HALTED (n : Nat) : Fld := ⟨R.CPUn_STATUS n, 1, 1⟩
def CPUn_STATUS.WFI (n : Nat) : Fld := ⟨R.CPUn_STATUS n, 2, 1⟩
def CPUn_STATUS.CFG_REJECT (n : Nat) : Fld := ⟨R.CPUn_STATUS n, 3, 1⟩
def CPUn_STATUS.LAST_CODE (n : Nat) : Fld := ⟨R.CPUn_STATUS n, 8, 5⟩
def CPUn_WAIT_CNT.COUNT (n : Nat) : Fld := ⟨R.CPUn_WAIT_CNT n, 0, 32⟩
def CPUn_DBG_CTRL.HALT (n : Nat) : Fld := ⟨R.CPUn_DBG_CTRL n, 0, 1⟩
def CPUn_DBG_CTRL.RESUME (n : Nat) : Fld := ⟨R.CPUn_DBG_CTRL n, 1, 1⟩
def CPUn_DBG_CTRL.STEP (n : Nat) : Fld := ⟨R.CPUn_DBG_CTRL n, 2, 1⟩
def CPUn_DBG_CTRL.STEP_IRQ (n : Nat) : Fld := ⟨R.CPUn_DBG_CTRL n, 3, 1⟩
def CPUn_DBG_CTRL.BRK_HALT (n : Nat) : Fld := ⟨R.CPUn_DBG_CTRL n, 4, 1⟩
def CPUn_DBG_STATUS.HCAUSE (n : Nat) : Fld := ⟨R.CPUn_DBG_STATUS n, 0, 3⟩
def CPUn_DBG_PC.PC (n : Nat) : Fld := ⟨R.CPUn_DBG_PC n, 0, 32⟩
def CPUn_DBG_SR_SEL.SR (n : Nat) : Fld := ⟨R.CPUn_DBG_SR_SEL n, 0, 5⟩
def CPUn_DBG_SR_DATA.DATA (n : Nat) : Fld := ⟨R.CPUn_DBG_SR_DATA n, 0, 32⟩
def CPUn_BPk.EN (n k : Nat) : Fld := ⟨R.CPUn_BPk n k, 0, 1⟩
def CPUn_BPk.ADDR (n k : Nat) : Fld := ⟨R.CPUn_BPk n k, 2, 15⟩
def CPUn_GPRj.VALUE (n j : Nat) : Fld := ⟨R.CPUn_GPRj n j, 0, 32⟩
def IRQ_CLAIMc.SRC (c : Nat) : Fld := ⟨R.IRQ_CLAIMc c, 0, 10⟩
def IRQ_CLAIMc.COUNT (c : Nat) : Fld := ⟨R.IRQ_CLAIMc c, 16, 8⟩
def IRQ_EOIc.EOI (c : Nat) : Fld := ⟨R.IRQ_EOIc c, 0, 32⟩
def IRQ_STATc.RPRIO (c : Nat) : Fld := ⟨R.IRQ_STATc c, 0, 4⟩
def IRQ_STATc.DEPTH (c : Nat) : Fld := ⟨R.IRQ_STATc c, 4, 5⟩
def IRQ_STATc.EOI_ERR (c : Nat) : Fld := ⟨R.IRQ_STATc c, 16, 1⟩
def IRQ_STATc.REQ (c : Nat) : Fld := ⟨R.IRQ_STATc c, 17, 1⟩
def IRQ_THRESHc.THRESH (c : Nat) : Fld := ⟨R.IRQ_THRESHc c, 0, 4⟩
def IRQ_SWI.SWI : Fld := ⟨R.IRQ_SWI, 0, 16⟩
def IRQ_PENDk.PEND (k : Nat) : Fld := ⟨R.IRQ_PENDk k, 0, 32⟩
def IRQ_SRCs.EN (s : Nat) : Fld := ⟨R.IRQ_SRCs s, 0, 1⟩
def IRQ_SRCs.TARGET (s : Nat) : Fld := ⟨R.IRQ_SRCs s, 1, 2⟩
def IRQ_SRCs.PRIO (s : Nat) : Fld := ⟨R.IRQ_SRCs s, 4, 4⟩
def IRQ_SRCs.COUNT (s : Nat) : Fld := ⟨R.IRQ_SRCs s, 8, 8⟩
def IRQ_SRCs.CLR (s : Nat) : Fld := ⟨R.IRQ_SRCs s, 16, 1⟩
def IRQ_WAKEk.SRC (k : Nat) : Fld := ⟨R.IRQ_WAKEk k, 0, 10⟩
def IRQ_WAKEk.EN (k : Nat) : Fld := ⟨R.IRQ_WAKEk k, 15, 1⟩
def IRQ_WAKE_HIT.HIT : Fld := ⟨R.IRQ_WAKE_HIT, 0, 32⟩
def IRQ_WAKE_STATUS.FIRST : Fld := ⟨R.IRQ_WAKE_STATUS, 0, 5⟩
def IRQ_WAKE_STATUS.WOKE : Fld := ⟨R.IRQ_WAKE_STATUS, 8, 1⟩
def SLC_COMMIT.GO : Fld := ⟨R.SLC_COMMIT, 0, 1⟩
def SLC_STATUS.BUSY : Fld := ⟨R.SLC_STATUS, 0, 1⟩
def SLC_STATUS.RESULT : Fld := ⟨R.SLC_STATUS, 1, 3⟩
def SLC_STATUS.CONS_CONFLICT : Fld := ⟨R.SLC_STATUS, 8, 1⟩
def SLC_STATUS.CONFLICT_CH : Fld := ⟨R.SLC_STATUS, 16, 6⟩
def SLC_STATUS.LOOP_CELL : Fld := ⟨R.SLC_STATUS, 24, 5⟩
def SLC_SWEV.SWEV : Fld := ⟨R.SLC_SWEV, 0, 16⟩
def SLC_CHn_CFG.SRC (n : Nat) : Fld := ⟨R.SLC_CHn_CFG n, 0, 9⟩
def SLC_CHn_CFG.GEN (n : Nat) : Fld := ⟨R.SLC_CHn_CFG n, 15, 1⟩
def SLC_CHn_CFG.GATE (n : Nat) : Fld := ⟨R.SLC_CHn_CFG n, 16, 9⟩
def SLC_CHn_CFG.GINV (n : Nat) : Fld := ⟨R.SLC_CHn_CFG n, 25, 1⟩
def SLC_CHn_CFG.LOCK (n : Nat) : Fld := ⟨R.SLC_CHn_CFG n, 31, 1⟩
def SLC_CHn_STAT.INDEX (n : Nat) : Fld := ⟨R.SLC_CHn_STAT n, 0, 12⟩
def SLC_CHn_STAT.CLASS (n : Nat) : Fld := ⟨R.SLC_CHn_STAT n, 12, 4⟩
def SLC_CHn_STAT.COLLIDE (n : Nat) : Fld := ⟨R.SLC_CHn_STAT n, 16, 1⟩
def SLC_CELLk_IN01.IN0 (k : Nat) : Fld := ⟨R.SLC_CELLk_IN01 k, 0, 9⟩
def SLC_CELLk_IN01.IN1 (k : Nat) : Fld := ⟨R.SLC_CELLk_IN01 k, 16, 9⟩
def SLC_CELLk_IN23.IN2 (k : Nat) : Fld := ⟨R.SLC_CELLk_IN23 k, 0, 9⟩
def SLC_CELLk_IN23.IN3 (k : Nat) : Fld := ⟨R.SLC_CELLk_IN23 k, 16, 9⟩
def SLC_CELLk_CFG.TT (k : Nat) : Fld := ⟨R.SLC_CELLk_CFG k, 0, 16⟩
def SLC_CELLk_CFG.REG (k : Nat) : Fld := ⟨R.SLC_CELLk_CFG k, 16, 1⟩
def SLC_CELLk_CFG.CLK (k : Nat) : Fld := ⟨R.SLC_CELLk_CFG k, 17, 1⟩
def SLC_CELLk_CFG.INIT (k : Nat) : Fld := ⟨R.SLC_CELLk_CFG k, 18, 1⟩
def SLC_CELLk_CFG.FILT (k : Nat) : Fld := ⟨R.SLC_CELLk_CFG k, 19, 1⟩
def SLC_CELLk_STAT.Q (k : Nat) : Fld := ⟨R.SLC_CELLk_STAT k, 0, 1⟩
def SLC_CELLk_STAT.LOCKED (k : Nat) : Fld := ⟨R.SLC_CELLk_STAT k, 1, 1⟩
def GPIO_OUTb.OUT (b : Nat) : Fld := ⟨R.GPIO_OUTb b, 0, 16⟩
def GPIO_OUT_SETb.SET (b : Nat) : Fld := ⟨R.GPIO_OUT_SETb b, 0, 16⟩
def GPIO_OUT_CLRb.CLR (b : Nat) : Fld := ⟨R.GPIO_OUT_CLRb b, 0, 16⟩
def GPIO_OEb.OE (b : Nat) : Fld := ⟨R.GPIO_OEb b, 0, 16⟩
def GPIO_INb.IN (b : Nat) : Fld := ⟨R.GPIO_INb b, 0, 16⟩
def GPIO_INb_RAW.RAW (b : Nat) : Fld := ⟨R.GPIO_INb_RAW b, 0, 16⟩
def GPIO_IRQ_FLAGb.FLAG (b : Nat) : Fld := ⟨R.GPIO_IRQ_FLAGb b, 0, 16⟩
def GPIO_BANKb_CFG.V33 (b : Nat) : Fld := ⟨R.GPIO_BANKb_CFG b, 0, 1⟩
def GPIO_BANKb_CFG.VSENSE (b : Nat) : Fld := ⟨R.GPIO_BANKb_CFG b, 1, 1⟩
def GPIO_BANKb_CFG.MISMATCH (b : Nat) : Fld := ⟨R.GPIO_BANKb_CFG b, 2, 1⟩
def GPIO_SBY_CTRL.RELEASE : Fld := ⟨R.GPIO_SBY_CTRL, 0, 1⟩
def GPIO_SBY_CTRL.HELD : Fld := ⟨R.GPIO_SBY_CTRL, 1, 1⟩
def GPIO_PINp_CFG.PULL (p : Nat) : Fld := ⟨R.GPIO_PINp_CFG p, 0, 2⟩
def GPIO_PINp_CFG.DRIVE (p : Nat) : Fld := ⟨R.GPIO_PINp_CFG p, 2, 2⟩
def GPIO_PINp_CFG.SLOW (p : Nat) : Fld := ⟨R.GPIO_PINp_CFG p, 4, 1⟩
def GPIO_PINp_IRQ.MODE (p : Nat) : Fld := ⟨R.GPIO_PINp_IRQ p, 0, 3⟩
def GPIO_PINp_IRQ.FILT (p : Nat) : Fld := ⟨R.GPIO_PINp_IRQ p, 3, 2⟩
def GPIO_PINp_IRQ.UNIT (p : Nat) : Fld := ⟨R.GPIO_PINp_IRQ p, 5, 1⟩
def GPIO_PINp_IRQ.N (p : Nat) : Fld := ⟨R.GPIO_PINp_IRQ p, 16, 16⟩
def GPIO_PINp_TASK.CH (p : Nat) : Fld := ⟨R.GPIO_PINp_TASK p, 0, 6⟩
def GPIO_PINp_TASK.EN (p : Nat) : Fld := ⟨R.GPIO_PINp_TASK p, 6, 1⟩
def GPIO_PINp_TASK.ACTION (p : Nat) : Fld := ⟨R.GPIO_PINp_TASK p, 8, 2⟩
def GPIO_PINp_SBY.SMODE (p : Nat) : Fld := ⟨R.GPIO_PINp_SBY p, 0, 3⟩
def GPIO_PINp_SBY.SPULL (p : Nat) : Fld := ⟨R.GPIO_PINp_SBY p, 4, 2⟩
def PMX_PINp.FUNC (p : Nat) : Fld := ⟨R.PMX_PINp p, 0, 3⟩
def PMX_STATUS.PMX_CONFLICT : Fld := ⟨R.PMX_STATUS, 0, 1⟩
def PMX_STATUS.CFG_REJECT : Fld := ⟨R.PMX_STATUS, 1, 1⟩
def PMX_STATUS.CONF_INPUT : Fld := ⟨R.PMX_STATUS, 8, 6⟩
def CLVn_CTRL.ENABLE (n : Nat) : Fld := ⟨R.CLVn_CTRL n, 0, 1⟩
def CLVn_CTRL.RESTART (n : Nat) : Fld := ⟨R.CLVn_CTRL n, 1, 1⟩
def CLVn_CTRL.STATE (n : Nat) : Fld := ⟨R.CLVn_CTRL n, 2, 2⟩
def CLVn_CTRL.MSB_FIRST (n : Nat) : Fld := ⟨R.CLVn_CTRL n, 4, 1⟩
def CLVn_CTRL.ENTRY (n : Nat) : Fld := ⟨R.CLVn_CTRL n, 8, 5⟩
def CLVn_CLKDIV.FRAC (n : Nat) : Fld := ⟨R.CLVn_CLKDIV n, 0, 8⟩
def CLVn_CLKDIV.INT (n : Nat) : Fld := ⟨R.CLVn_CLKDIV n, 8, 16⟩
def CLVn_PINS.PBASE (n : Nat) : Fld := ⟨R.CLVn_PINS n, 0, 7⟩
def CLVn_PINS.DIR (n : Nat) : Fld := ⟨R.CLVn_PINS n, 8, 8⟩
def CLVn_PINS.SSMASK (n : Nat) : Fld := ⟨R.CLVn_PINS n, 16, 8⟩
def CLVn_PINS.EMIT_PIN (n : Nat) : Fld := ⟨R.CLVn_PINS n, 24, 3⟩
def CLVn_PINS.SAMPLE_PIN (n : Nat) : Fld := ⟨R.CLVn_PINS n, 28, 3⟩
def CLVn_WRAP.BOTTOM (n : Nat) : Fld := ⟨R.CLVn_WRAP n, 0, 5⟩
def CLVn_WRAP.TOP (n : Nat) : Fld := ⟨R.CLVn_WRAP n, 8, 5⟩
def CLVn_LC.CA (n : Nat) : Fld := ⟨R.CLVn_LC n, 0, 16⟩
def CLVn_LC.CB (n : Nat) : Fld := ⟨R.CLVn_LC n, 16, 16⟩
def CLVn_TASK.CH (n : Nat) : Fld := ⟨R.CLVn_TASK n, 0, 6⟩
def CLVn_TASK.EN (n : Nat) : Fld := ⟨R.CLVn_TASK n, 6, 1⟩
def CLVn_TXDATA.DATA (n : Nat) : Fld := ⟨R.CLVn_TXDATA n, 0, 32⟩
def CLVn_RXDATA.DATA (n : Nat) : Fld := ⟨R.CLVn_RXDATA n, 0, 32⟩
def CLVn_STATUS.IRQ (n : Nat) : Fld := ⟨R.CLVn_STATUS n, 0, 1⟩
def CLVn_STATUS.TX_OVR (n : Nat) : Fld := ⟨R.CLVn_STATUS n, 1, 1⟩
def CLVn_STATUS.RX_UNDER (n : Nat) : Fld := ⟨R.CLVn_STATUS n, 2, 1⟩
def CLVn_STATUS.TRIG_OVR (n : Nat) : Fld := ⟨R.CLVn_STATUS n, 3, 1⟩
def CLVn_STATUS.PROG_BUSY (n : Nat) : Fld := ⟨R.CLVn_STATUS n, 4, 1⟩
def CLVn_STATUS.PIN_CONFLICT (n : Nat) : Fld := ⟨R.CLVn_STATUS n, 5, 1⟩
def CLVn_STATUS.CFG_REJECT (n : Nat) : Fld := ⟨R.CLVn_STATUS n, 6, 1⟩
def CLVn_STATUS.STALLED (n : Nat) : Fld := ⟨R.CLVn_STATUS n, 7, 1⟩
def CLVn_STATUS.TRIG_PEND (n : Nat) : Fld := ⟨R.CLVn_STATUS n, 8, 1⟩
def CLVn_STATUS.TXLVL (n : Nat) : Fld := ⟨R.CLVn_STATUS n, 9, 3⟩
def CLVn_STATUS.RXLVL (n : Nat) : Fld := ⟨R.CLVn_STATUS n, 12, 3⟩
def CLVn_SREG.STATE (n : Nat) : Fld := ⟨R.CLVn_SREG n, 0, 5⟩
def CLVn_SREG.TXLEFT (n : Nat) : Fld := ⟨R.CLVn_SREG n, 8, 6⟩
def CLVn_SREG.RXFILL (n : Nat) : Fld := ⟨R.CLVn_SREG n, 16, 6⟩
def CLVn_TXSH.TXSH (n : Nat) : Fld := ⟨R.CLVn_TXSH n, 0, 32⟩
def CLVn_RXSH.RXSH (n : Nat) : Fld := ⟨R.CLVn_RXSH n, 0, 32⟩
def CLVn_STALL_CNT.COUNT (n : Nat) : Fld := ⟨R.CLVn_STALL_CNT n, 0, 16⟩
def CLVn_STALL_CNT.LC (n : Nat) : Fld := ⟨R.CLVn_STALL_CNT n, 16, 16⟩
def CLVn_PROGi_LO.WORD_LO (n i : Nat) : Fld := ⟨R.CLVn_PROGi_LO n i, 0, 32⟩
def CLVn_PROGi_HI.WORD_HI (n i : Nat) : Fld := ⟨R.CLVn_PROGi_HI n i, 0, 32⟩
def TMRn_CTRL.ENABLE (n : Nat) : Fld := ⟨R.TMRn_CTRL n, 0, 1⟩
def TMRn_CTRL.STATE (n : Nat) : Fld := ⟨R.TMRn_CTRL n, 2, 2⟩
def TMRn_CTRL.PRE (n : Nat) : Fld := ⟨R.TMRn_CTRL n, 4, 4⟩
def TMRn_CTRL.ONESHOT (n : Nat) : Fld := ⟨R.TMRn_CTRL n, 8, 1⟩
def TMRn_CTRL.CMP_BUF (n : Nat) : Fld := ⟨R.TMRn_CTRL n, 9, 1⟩
def TMRn_CTRL.CAP_INV (n : Nat) : Fld := ⟨R.TMRn_CTRL n, 10, 1⟩
def TMRn_CTRL.CAP_EN (n : Nat) : Fld := ⟨R.TMRn_CTRL n, 11, 1⟩
def TMRn_CTRL.FREEZE (n : Nat) : Fld := ⟨R.TMRn_CTRL n, 12, 1⟩
def TMRn_CTRL.DBG_CORE (n : Nat) : Fld := ⟨R.TMRn_CTRL n, 16, 4⟩
def TMRn_STATUS.PERIOD (n : Nat) : Fld := ⟨R.TMRn_STATUS n, 0, 1⟩
def TMRn_STATUS.CMP (n : Nat) : Fld := ⟨R.TMRn_STATUS n, 1, 4⟩
def TMRn_STATUS.CAPTURED_R (n : Nat) : Fld := ⟨R.TMRn_STATUS n, 5, 1⟩
def TMRn_STATUS.CAPTURED_F (n : Nat) : Fld := ⟨R.TMRn_STATUS n, 6, 1⟩
def TMRn_STATUS.OVR_R (n : Nat) : Fld := ⟨R.TMRn_STATUS n, 7, 1⟩
def TMRn_STATUS.OVR_F (n : Nat) : Fld := ⟨R.TMRn_STATUS n, 8, 1⟩
def TMRn_STATUS.CFG_REJECT (n : Nat) : Fld := ⟨R.TMRn_STATUS n, 9, 1⟩
def TMRn_STATUS.FROZEN (n : Nat) : Fld := ⟨R.TMRn_STATUS n, 10, 1⟩
def TMRn_COUNT_LO.COUNT_LO (n : Nat) : Fld := ⟨R.TMRn_COUNT_LO n, 0, 32⟩
def TMRn_COUNT_HI.COUNT_HI (n : Nat) : Fld := ⟨R.TMRn_COUNT_HI n, 0, 32⟩
def TMRn_PERIOD_LO.PERIOD_LO (n : Nat) : Fld := ⟨R.TMRn_PERIOD_LO n, 0, 32⟩
def TMRn_PERIOD_HI.PERIOD_HI (n : Nat) : Fld := ⟨R.TMRn_PERIOD_HI n, 0, 32⟩
def TMRn_CMPk_LO.CMP_LO (n k : Nat) : Fld := ⟨R.TMRn_CMPk_LO n k, 0, 32⟩
def TMRn_CMPk_HI.CMP_HI (n k : Nat) : Fld := ⟨R.TMRn_CMPk_HI n k, 0, 32⟩
def TMRn_CAPR_LO.CAP_LO (n : Nat) : Fld := ⟨R.TMRn_CAPR_LO n, 0, 32⟩
def TMRn_CAPR_HI.CAP_HI (n : Nat) : Fld := ⟨R.TMRn_CAPR_HI n, 0, 32⟩
def TMRn_CAPF_LO.CAP_LO (n : Nat) : Fld := ⟨R.TMRn_CAPF_LO n, 0, 32⟩
def TMRn_CAPF_HI.CAP_HI (n : Nat) : Fld := ⟨R.TMRn_CAPF_HI n, 0, 32⟩
def TMRn_WIDTH.WIDTH (n : Nat) : Fld := ⟨R.TMRn_WIDTH n, 0, 32⟩
def TMRn_OUT.ACT (n : Nat) : Fld := ⟨R.TMRn_OUT n, 0, 8⟩
def TMRn_OUT.PACT (n : Nat) : Fld := ⟨R.TMRn_OUT n, 8, 8⟩
def TMRn_OUT.LVL (n : Nat) : Fld := ⟨R.TMRn_OUT n, 16, 4⟩
def TMRn_TASK.CH (n : Nat) : Fld := ⟨R.TMRn_TASK n, 0, 6⟩
def TMRn_TASK.EN (n : Nat) : Fld := ⟨R.TMRn_TASK n, 6, 1⟩
def TMRn_TASK.ACTION (n : Nat) : Fld := ⟨R.TMRn_TASK n, 8, 2⟩
def SEC_STATUS.PROVISIONED : Fld := ⟨R.SEC_STATUS, 0, 1⟩
def SEC_STATUS.IMG_OK : Fld := ⟨R.SEC_STATUS, 1, 1⟩
def SEC_STATUS.MAXPRIV : Fld := ⟨R.SEC_STATUS, 2, 2⟩
def SEC_STATUS.TRNG_FAIL : Fld := ⟨R.SEC_STATUS, 4, 1⟩
def SEC_STATUS.DENIED : Fld := ⟨R.SEC_STATUS, 5, 1⟩
def SEC_STATUS.SESS_EVT : Fld := ⟨R.SEC_STATUS, 6, 1⟩
def SEC_STATUS.OTP_DONE : Fld := ⟨R.SEC_STATUS, 7, 1⟩
def SEC_STATUS.OTP_ERR : Fld := ⟨R.SEC_STATUS, 8, 1⟩
def SEC_STATUS.BOOT_ERR : Fld := ⟨R.SEC_STATUS, 16, 8⟩
def SEC_STATUS.SIGNER : Fld := ⟨R.SEC_STATUS, 24, 2⟩
def SEC_OTP.PROGRAMMED : Fld := ⟨R.SEC_OTP, 0, 4⟩
def SEC_OTP.REVOKED : Fld := ⟨R.SEC_OTP, 4, 4⟩
def SEC_OTP.ROLLBACK : Fld := ⟨R.SEC_OTP, 8, 7⟩
def SEC_OTP.SVN : Fld := ⟨R.SEC_OTP, 16, 7⟩
def SEC_CTRL.ADVANCE : Fld := ⟨R.SEC_CTRL, 0, 1⟩
def SEC_SESS_CFG.TIMEOUT : Fld := ⟨R.SEC_SESS_CFG, 0, 16⟩
def SEC_SESS_CFG.NONCE_TTL : Fld := ⟨R.SEC_SESS_CFG, 16, 8⟩
def SEC_DENY_CNT.COUNT : Fld := ⟨R.SEC_DENY_CNT, 0, 32⟩
def SEC_DEVID_LO.ID_LO : Fld := ⟨R.SEC_DEVID_LO, 0, 32⟩
def SEC_DEVID_HI.ID_HI : Fld := ⟨R.SEC_DEVID_HI, 0, 32⟩
def SEC_DEVPUBj.DATA (j : Nat) : Fld := ⟨R.SEC_DEVPUBj j, 0, 32⟩
def SEC_SIGNERk_HASHj.DATA (k j : Nat) : Fld := ⟨R.SEC_SIGNERk_HASHj k j, 0, 32⟩
def SEC_MEASm_j.DATA (m j : Nat) : Fld := ⟨R.SEC_MEASm_j m j, 0, 32⟩
def SEC_SESSs_CTRL.OPEN (s : Nat) : Fld := ⟨R.SEC_SESSs_CTRL s, 0, 1⟩
def SEC_SESSs_CTRL.PRIV (s : Nat) : Fld := ⟨R.SEC_SESSs_CTRL s, 1, 2⟩
def SEC_SESSs_CTRL.KEYIDX (s : Nat) : Fld := ⟨R.SEC_SESSs_CTRL s, 4, 3⟩
def SEC_SESSs_CTRL.CLOSE (s : Nat) : Fld := ⟨R.SEC_SESSs_CTRL s, 8, 1⟩
def SEC_SESSs_SID.SID (s : Nat) : Fld := ⟨R.SEC_SESSs_SID s, 0, 32⟩
def SEC_SESSs_IDLE.SECONDS (s : Nat) : Fld := ⟨R.SEC_SESSs_IDLE s, 0, 32⟩
def SEC_SESSs_SEQ.SEQ (s : Nat) : Fld := ⟨R.SEC_SESSs_SEQ s, 0, 32⟩
def BOOT_STATUS.PHASE : Fld := ⟨R.BOOT_STATUS, 0, 4⟩
def BOOT_STATUS.IMAGE : Fld := ⟨R.BOOT_STATUS, 4, 1⟩
def BOOT_STATUS.FALLBACK : Fld := ⟨R.BOOT_STATUS, 5, 1⟩
def BOOT_STATUS.RESIDENT : Fld := ⟨R.BOOT_STATUS, 6, 1⟩
def BOOT_STATUS.PARTIAL : Fld := ⟨R.BOOT_STATUS, 7, 1⟩
def BOOT_STATUS.FLASH : Fld := ⟨R.BOOT_STATUS, 8, 2⟩
def BOOT_STATUS.LIST_ERR : Fld := ⟨R.BOOT_STATUS, 10, 1⟩
def BOOT_STATUS.SBY_REJECT : Fld := ⟨R.BOOT_STATUS, 11, 1⟩
def BOOT_STATUS.WAKE_COLD : Fld := ⟨R.BOOT_STATUS, 12, 1⟩
def BOOT_STATUS.ERR : Fld := ⟨R.BOOT_STATUS, 16, 8⟩
def BOOT_STATUS.LIST : Fld := ⟨R.BOOT_STATUS, 24, 2⟩
def BOOT_LIST_IDX.INDEX : Fld := ⟨R.BOOT_LIST_IDX, 0, 16⟩
def BOOT_SEC_FAIL.COUNT : Fld := ⟨R.BOOT_SEC_FAIL, 0, 16⟩
def BOOT_TIMEk.US (k : Nat) : Fld := ⟨R.BOOT_TIMEk k, 0, 32⟩
def BOOT_FLASH.SIZE : Fld := ⟨R.BOOT_FLASH, 0, 10⟩
def BOOT_SBY_CTRL.ENTER : Fld := ⟨R.BOOT_SBY_CTRL, 0, 1⟩
def BOOT_SBY_CTRL.TILES : Fld := ⟨R.BOOT_SBY_CTRL, 1, 1⟩
def BOOT_WAKE.WAKES : Fld := ⟨R.BOOT_WAKE, 0, 32⟩
def FLT_CTRL.AUTO : Fld := ⟨R.FLT_CTRL, 0, 1⟩
def FLT_CTRL.RECOVER : Fld := ⟨R.FLT_CTRL, 1, 1⟩
def FLT_CTRL.FREEZE_AUDIO : Fld := ⟨R.FLT_CTRL, 2, 1⟩
def FLT_CTRL.LOCK : Fld := ⟨R.FLT_CTRL, 3, 1⟩
def FLT_CTRL.IRQ_LEVEL : Fld := ⟨R.FLT_CTRL, 4, 2⟩
def FLT_STATUS.STATE : Fld := ⟨R.FLT_STATUS, 0, 2⟩
def FLT_STATUS.PULSING : Fld := ⟨R.FLT_STATUS, 2, 1⟩
def FLT_STATUS.REMAIN : Fld := ⟨R.FLT_STATUS, 16, 16⟩
def FLT_QUIET.MS : Fld := ⟨R.FLT_QUIET, 0, 16⟩
def FLT_PIN.MINW : Fld := ⟨R.FLT_PIN, 0, 10⟩
def FLT_PIN.LEVEL : Fld := ⟨R.FLT_PIN, 10, 2⟩
def FLT_PIN.SW : Fld := ⟨R.FLT_PIN, 12, 1⟩
def FLT_CLASS.PEND : Fld := ⟨R.FLT_CLASS, 0, 8⟩
def FLT_CLASS.LVL : Fld := ⟨R.FLT_CLASS, 8, 16⟩
def FLT_ACK.ACK : Fld := ⟨R.FLT_ACK, 0, 8⟩
def FLT_ESC_CAP.CAP : Fld := ⟨R.FLT_ESC_CAP, 0, 16⟩
def FLT_RECOV.COUNT : Fld := ⟨R.FLT_RECOV, 0, 16⟩
def FLT_TEMP.TJ : Fld := ⟨R.FLT_TEMP, 0, 16⟩
def FLT_THERM.HOT : Fld := ⟨R.FLT_THERM, 0, 16⟩
def FLT_THERM.CRIT : Fld := ⟨R.FLT_THERM, 16, 16⟩
def FLT_LOG_STATUS.COUNT : Fld := ⟨R.FLT_LOG_STATUS, 0, 6⟩
def FLT_LOG_STATUS.OVERFLOW : Fld := ⟨R.FLT_LOG_STATUS, 6, 1⟩
def FLT_LOG_ENTRY.SRC : Fld := ⟨R.FLT_LOG_ENTRY, 0, 7⟩
def FLT_LOG_ENTRY.LEVEL : Fld := ⟨R.FLT_LOG_ENTRY, 8, 2⟩
def FLT_LOG_ENTRY.ESC : Fld := ⟨R.FLT_LOG_ENTRY, 10, 1⟩
def FLT_LOG_ENTRY.INST : Fld := ⟨R.FLT_LOG_ENTRY, 16, 12⟩
def FLT_LOG_FRAME.FRAME : Fld := ⟨R.FLT_LOG_FRAME, 0, 32⟩
def FLT_LOG_POP.POP : Fld := ⟨R.FLT_LOG_POP, 0, 1⟩
def FLT_SRCs_CFG.SEV (s : Nat) : Fld := ⟨R.FLT_SRCs_CFG s, 0, 2⟩
def FLT_SRCs_CFG.EN (s : Nat) : Fld := ⟨R.FLT_SRCs_CFG s, 2, 1⟩
def FLT_SRCs_CNT.COUNT (s : Nat) : Fld := ⟨R.FLT_SRCs_CNT s, 0, 8⟩
def HST_LINK.UP : Fld := ⟨R.HST_LINK, 0, 1⟩
def HST_LINK.SPEED : Fld := ⟨R.HST_LINK, 1, 3⟩
def HST_LINK.WIDTH : Fld := ⟨R.HST_LINK, 4, 4⟩
def HST_LINK.L1 : Fld := ⟨R.HST_LINK, 8, 1⟩
def HST_LINK.D3HOT : Fld := ⟨R.HST_LINK, 9, 1⟩
def HST_LINK.BME : Fld := ⟨R.HST_LINK, 10, 1⟩
def HST_LINK.MSIX_EN : Fld := ⟨R.HST_LINK, 11, 1⟩
def HST_STATUS.LINK_CHG : Fld := ⟨R.HST_STATUS, 0, 1⟩
def HST_STATUS.PM_CHG : Fld := ⟨R.HST_STATUS, 1, 1⟩
def HST_STATUS.FW_CMD : Fld := ⟨R.HST_STATUS, 2, 1⟩
def HST_STATUS.MB_REJECT : Fld := ⟨R.HST_STATUS, 3, 1⟩
def HST_STATUS.CQ_FULL : Fld := ⟨R.HST_STATUS, 4, 1⟩
def HST_STATUS.BAD_ACCESS : Fld := ⟨R.HST_STATUS, 5, 1⟩
def HST_BAR2_WIN.BASE : Fld := ⟨R.HST_BAR2_WIN, 0, 14⟩
def HST_OUT_BASE_LO.BASE_LO : Fld := ⟨R.HST_OUT_BASE_LO, 7, 25⟩
def HST_OUT_BASE_HI.BASE_HI : Fld := ⟨R.HST_OUT_BASE_HI, 0, 32⟩
def HST_MB_DOORBELL.RING : Fld := ⟨R.HST_MB_DOORBELL, 0, 8⟩
def HST_MB_STATE.STATE : Fld := ⟨R.HST_MB_STATE, 0, 16⟩
def HST_FW_CTRL.READY : Fld := ⟨R.HST_FW_CTRL, 0, 1⟩
def HST_FW_CMD.SLOT : Fld := ⟨R.HST_FW_CMD, 0, 3⟩
def HST_FW_CMD.PRIV : Fld := ⟨R.HST_FW_CMD, 4, 2⟩
def HST_FW_CMD.SESS : Fld := ⟨R.HST_FW_CMD, 6, 2⟩
def HST_FW_CMD.CODE : Fld := ⟨R.HST_FW_CMD, 8, 8⟩
def HST_FW_CMD.LEN : Fld := ⟨R.HST_FW_CMD, 16, 10⟩
def HST_FW_DONE.RLEN : Fld := ⟨R.HST_FW_DONE, 0, 10⟩
def HST_CQq_BASE_LO.BASE_LO (q : Nat) : Fld := ⟨R.HST_CQq_BASE_LO q, 6, 26⟩
def HST_CQq_BASE_HI.BASE_HI (q : Nat) : Fld := ⟨R.HST_CQq_BASE_HI q, 0, 32⟩
def HST_CQq_CFG.EN (q : Nat) : Fld := ⟨R.HST_CQq_CFG q, 0, 1⟩
def HST_CQq_CFG.LOG2 (q : Nat) : Fld := ⟨R.HST_CQq_CFG q, 1, 5⟩
def HST_CQq_CFG.VEC (q : Nat) : Fld := ⟨R.HST_CQq_CFG q, 8, 6⟩
def HST_CQq_MOD.COUNT (q : Nat) : Fld := ⟨R.HST_CQq_MOD q, 0, 8⟩
def HST_CQq_MOD.TIMER (q : Nat) : Fld := ⟨R.HST_CQq_MOD q, 16, 16⟩
def HST_CQq_HEAD.HEAD (q : Nat) : Fld := ⟨R.HST_CQq_HEAD q, 0, 16⟩
def HST_CQq_TAIL.TAIL (q : Nat) : Fld := ⟨R.HST_CQq_TAIL q, 0, 16⟩
def PLK_LIMITS2.V_MIN : Fld := ⟨R.PLK_LIMITS2, 0, 16⟩
def ENGn_WINw_FXCOL0.B (n w : Nat) : Fld := ⟨R.ENGn_WINw_FXCOL0 n w, 0, 12⟩
def ENGn_WINw_FXCOL0.G (n w : Nat) : Fld := ⟨R.ENGn_WINw_FXCOL0 n w, 12, 12⟩
def ENGn_WINw_FXCOL1.RD (n w : Nat) : Fld := ⟨R.ENGn_WINw_FXCOL1 n w, 0, 12⟩
def AUD_Ip_CTRL.ENABLE (i : Nat) : Fld := ⟨R.AUD_Ip_CTRL i, 0, 1⟩
def AUD_Ip_CTRL.STATE (i : Nat) : Fld := ⟨R.AUD_Ip_CTRL i, 2, 2⟩
def AUD_Ip_CTRL.LOCK (i : Nat) : Fld := ⟨R.AUD_Ip_CTRL i, 4, 1⟩
def AUD_Ip_CTRL.CFG_REJECT (i : Nat) : Fld := ⟨R.AUD_Ip_CTRL i, 5, 1⟩
def AUD_Ip_FMT.MODE (i : Nat) : Fld := ⟨R.AUD_Ip_FMT i, 0, 2⟩
def AUD_Ip_FMT.SLOTS_M1 (i : Nat) : Fld := ⟨R.AUD_Ip_FMT i, 2, 4⟩
def AUD_Ip_FMT.WIDTH (i : Nat) : Fld := ⟨R.AUD_Ip_FMT i, 6, 2⟩
def AUD_Ip_FMT.DATA (i : Nat) : Fld := ⟨R.AUD_Ip_FMT i, 8, 2⟩
def AUD_Ip_FMT.FS_DELAY (i : Nat) : Fld := ⟨R.AUD_Ip_FMT i, 10, 1⟩
def AUD_Ip_FMT.BCLK_INV (i : Nat) : Fld := ⟨R.AUD_Ip_FMT i, 11, 1⟩
def AUD_Ip_FMT.FS_INV (i : Nat) : Fld := ⟨R.AUD_Ip_FMT i, 12, 1⟩
end F

/-! The registers of each block: off, n1, s1, n2, s2, reset, then the masks RW RWS RWL W1C W1S WO RC RO. -/
def specBOOT : List RegSpec := [
  ⟨0x0, 1, 0x4, 1, 0x4, 0x7716a110, 0x0, 0x0, 0x0, 0x0, 0x0, 0x0, 0x0, 0xffffffff⟩,
  ⟨0x4, 1, 0x4, 1, 0x4, 0x0, 0x0, 0x0, 0x0, 0x1c00, 0x0, 0x0, 0x0, 0x3ff03ff⟩,
  ⟨0x8, 1, 0x4, 1, 0x4, 0x0, 0x0, 0x0, 0x0, 0x0, 0x0, 0x0, 0x0, 0xffff⟩,
  ⟨0xc, 1, 0x4, 1, 0x4, 0x0, 0x0, 0x0, 0x0, 0x0, 0x0, 0x0, 0x0, 0xffff⟩,
  ⟨0x10, 9, 0x4, 1, 0x4, 0x0, 0x0, 0x0, 0x0, 0x0, 0x0, 0x0, 0x0, 0xffffffff⟩,
  ⟨0x40, 1, 0x4, 1, 0x4, 0x0, 0x0, 0x0, 0x0, 0x0, 0x0, 0x0, 0x0, 0x3ff⟩,
  ⟨0x44, 1, 0x4, 1, 0x4, 0x0, 0x2, 0x0, 0x0, 0x0, 0x0, 0x1, 0x0, 0x0⟩,
  ⟨0x48, 1, 0x4, 1, 0x4, 0x0, 0x0, 0x0, 0x0, 0x0, 0x0, 0x0, 0x0, 0xffffffff⟩]
def specSEC : List RegSpec := [
  ⟨0x0, 1, 0x4, 1, 0x4, 0x0, 0x0, 0x0, 0x0, 0x1f0, 0x0, 0x0, 0x0, 0x3ff000f⟩,
  ⟨0x4, 1, 0x4, 1, 0x4, 0x0, 0x0, 0x0, 0x0, 0x0, 0x0, 0x0, 0x0, 0x7f7fff⟩,
  ⟨0x8, 1, 0x4, 1, 0x4, 0x0, 0x0, 0x0, 0x0, 0x0, 0x0, 0x1, 0x0, 0x0⟩,
  ⟨0xc, 1, 0x4, 1, 0x4, 0xa012c, 0xffffff, 0x0, 0x0, 0x0, 0x0, 0x0, 0x0, 0x0⟩,
  ⟨0x10, 1, 0x4, 1, 0x4, 0x0, 0x0, 0x0, 0x0, 0x0, 0x0, 0x0, 0xffffffff, 0x0⟩,
  ⟨0x18, 1, 0x4, 1, 0x4, 0x0, 0x0, 0x0, 0x0, 0x0, 0x0, 0x0, 0x0, 0xffffffff⟩,
  ⟨0x1c, 1, 0x4, 1, 0x4, 0x0, 0x0, 0x0, 0x0, 0x0, 0x0, 0x0, 0x0, 0xffffffff⟩,
  ⟨0x100, 24, 0x4, 1, 0x4, 0x0, 0x0, 0x0, 0x0, 0x0, 0x0, 0x0, 0x0, 0xffffffff⟩,
  ⟨0x200, 4, 0x40, 12, 0x4, 0x0, 0x0, 0x0, 0x0, 0x0, 0x0, 0x0, 0x0, 0xffffffff⟩,
  ⟨0x800, 4, 0x40, 12, 0x4, 0x0, 0x0, 0x0, 0x0, 0x0, 0x0, 0x0, 0x0, 0xffffffff⟩,
  ⟨0x400, 4, 0x10, 1, 0x4, 0x0, 0x0, 0x0, 0x0, 0x0, 0x0, 0x100, 0x0, 0x77⟩,
  ⟨0x404, 4, 0x10, 1, 0x4, 0x0, 0x0, 0x0, 0x0, 0x0, 0x0, 0x0, 0x0, 0xffffffff⟩,
  ⟨0x408, 4, 0x10, 1, 0x4, 0x0, 0x0, 0x0, 0x0, 0x0, 0x0, 0x0, 0x0, 0xffffffff⟩,
  ⟨0x40c, 4, 0x10, 1, 0x4, 0x0, 0x0, 0x0, 0x0, 0x0, 0x0, 0x0, 0x0, 0xffffffff⟩]
def specFLT : List RegSpec := [
  ⟨0x0, 1, 0x4, 1, 0x4, 0x1, 0x35, 0x0, 0x0, 0x0, 0x8, 0x2, 0x0, 0x0⟩,
  ⟨0x4, 1, 0x4, 1, 0x4, 0x0, 0x0, 0x0, 0x0, 0x0, 0x0, 0x0, 0x0, 0xffff0007⟩,
  ⟨0x8, 1, 0x4, 1, 0x4, 0x7d0, 0xffff, 0x0, 0x0, 0x0, 0x0, 0x0, 0x0, 0x0⟩,
  ⟨0xc, 1, 0x4, 1, 0x4, 0x464, 0x1fff, 0x0, 0x0, 0x0, 0x0, 0x0, 0x0, 0x0⟩,
  ⟨0x10, 1, 0x4, 1, 0x4, 0x0, 0x0, 0x0, 0x0, 0x0, 0x0, 0x0, 0x0, 0xffffff⟩,
  ⟨0x14, 1, 0x4, 1, 0x4, 0x0, 0x0, 0x0, 0x0, 0x0, 0x0, 0xff, 0x0, 0x0⟩,
  ⟨0x18, 1, 0x4, 1, 0x4, 0xffff, 0xffff, 0x0, 0x0, 0x0, 0x0, 0x0, 0x0, 0x0⟩,
  ⟨0x1c, 1, 0x4, 1, 0x4, 0x0, 0x0, 0x0, 0x0, 0x0, 0x0, 0x0, 0x0, 0xffff⟩,
  ⟨0x20, 1, 0x4, 1, 0x4, 0x0, 0x0, 0x0, 0x0, 0x0, 0x0, 0x0, 0x0, 0xffff⟩,
  ⟨0x24, 1, 0x4, 1, 0x4, 0x6e006400, 0xffffffff, 0x0, 0x0, 0x0, 0x0, 0x0, 0x0, 0x0⟩,
  ⟨0x40, 1, 0x4, 1, 0x4, 0x0, 0x0, 0x0, 0x0, 0x40, 0x0, 0x0, 0x0, 0x3f⟩,
  ⟨0x44, 1, 0x4, 1, 0x4, 0x0, 0x0, 0x0, 0x0, 0x0, 0x0, 0x0, 0x0, 0xfff077f⟩,
  ⟨0x48, 1, 0x4, 1, 0x4, 0x0, 0x0, 0x0, 0x0, 0x0, 0x0, 0x0, 0x0, 0xffffffff⟩,
  ⟨0x4c, 1, 0x4, 1, 0x4, 0x0, 0x0, 0x0, 0x0, 0x0, 0x0, 0x1, 0x0, 0x0⟩,
  ⟨0x408, 127, 0x8, 1, 0x4, 0x4, 0x7, 0x0, 0x0, 0x0, 0x0, 0x0, 0x0, 0x0⟩,
  ⟨0x40c, 127, 0x8, 1, 0x4, 0x0, 0x0, 0x0, 0x0, 0x0, 0x0, 0x0, 0xff, 0x0⟩]
def specSLC : List RegSpec := [
  ⟨0x0, 1, 0x4, 1, 0x4, 0x0, 0x0, 0x0, 0x0, 0x0, 0x0, 0x1, 0x0, 0x0⟩,
  ⟨0x4, 1, 0x4, 1, 0x4, 0x0, 0x0, 0x0, 0x0, 0x100, 0x0, 0x0, 0x0, 0x1f3f000f⟩,
  ⟨0x8, 1, 0x4, 1, 0x4, 0x0, 0x0, 0x0, 0x0, 0x0, 0x0, 0xffff, 0x0, 0x0⟩,
  ⟨0x100, 64, 0x8, 1, 0x4, 0x0, 0x3ff81ff, 0x0, 0x0, 0x0, 0x80000000, 0x0, 0x0, 0x0⟩,
  ⟨0x104, 64, 0x8, 1, 0x4, 0x0, 0x0, 0x0, 0x0, 0x10000, 0x0, 0x0, 0x0, 0xffff⟩,
  ⟨0x400, 32, 0x10, 1, 0x4, 0x0, 0x1ff01ff, 0x0, 0x0, 0x0, 0x0, 0x0, 0x0, 0x0⟩,
  ⟨0x404, 32, 0x10, 1, 0x4, 0x0, 0x1ff01ff, 0x0, 0x0, 0x0, 0x0, 0x0, 0x0, 0x0⟩,
  ⟨0x408, 32, 0x10, 1, 0x4, 0x0, 0xfffff, 0x0, 0x0, 0x0, 0x0, 0x0, 0x0, 0x0⟩,
  ⟨0x40c, 32, 0x10, 1, 0x4, 0x0, 0x0, 0x0, 0x0, 0x0, 0x0, 0x0, 0x0, 0x3⟩]
def specIRQ : List RegSpec := [
  ⟨0x0, 4, 0x40, 1, 0x4, 0x0, 0x0, 0x0, 0x0, 0x0, 0x0, 0x0, 0x0, 0xff03ff⟩,
  ⟨0x4, 4, 0x40, 1, 0x4, 0x0, 0x0, 0x0, 0x0, 0x0, 0x0, 0xffffffff, 0x0, 0x0⟩,
  ⟨0x8, 4, 0x40, 1, 0x4, 0x0, 0x0, 0x0, 0x0, 0x10000, 0x0, 0x0, 0x0, 0x201ff⟩,
  ⟨0xc, 4, 0x40, 1, 0x4, 0x0, 0xf, 0x0, 0x0, 0x0, 0x0, 0x0, 0x0, 0x0⟩,
  ⟨0x100, 1, 0x4, 1, 0x4, 0x0, 0x0, 0x0, 0x0, 0x0, 0x0, 0xffff, 0x0, 0x0⟩,
  ⟨0x200, 17, 0x4, 1, 0x4, 0x0, 0x0, 0x0, 0x0, 0x0, 0x0, 0x0, 0x0, 0xffffffff⟩,
  ⟨0x1004, 512, 0x4, 1, 0x4, 0x0, 0xf7, 0x0, 0x0, 0x0, 0x0, 0x10000, 0x0, 0xff00⟩,
  ⟨0x400, 32, 0x4, 1, 0x4, 0x0, 0x83ff, 0x0, 0x0, 0x0, 0x0, 0x0, 0x0, 0x0⟩,
  ⟨0x480, 1, 0x4, 1, 0x4, 0x0, 0x0, 0x0, 0x0, 0xffffffff, 0x0, 0x0, 0x0, 0x0⟩,
  ⟨0x484, 1, 0x4, 1, 0x4, 0x0, 0x0, 0x0, 0x0, 0x100, 0x0, 0x0, 0x0, 0x1f⟩]
def specGPIO : List RegSpec := [
  ⟨0x0, 6, 0x40, 1, 0x4, 0x0, 0xffff, 0x0, 0x0, 0x0, 0x0, 0x0, 0x0, 0x0⟩,
  ⟨0x4, 6, 0x40, 1, 0x4, 0x0, 0x0, 0x0, 0x0, 0x0, 0xffff, 0x0, 0x0, 0x0⟩,
  ⟨0x8, 6, 0x40, 1, 0x4, 0x0, 0x0, 0x0, 0x0, 0xffff, 0x0, 0x0, 0x0, 0x0⟩,
  ⟨0xc, 6, 0x40, 1, 0x4, 0x0, 0xffff, 0x0, 0x0, 0x0, 0x0, 0x0, 0x0, 0x0⟩,
  ⟨0x10, 6, 0x40, 1, 0x4, 0x0, 0x0, 0x0, 0x0, 0x0, 0x0, 0x0, 0x0, 0xffff⟩,
  ⟨0x14, 6, 0x40, 1, 0x4, 0x0, 0x0, 0x0, 0x0, 0x0, 0x0, 0x0, 0x0, 0xffff⟩,
  ⟨0x18, 6, 0x40, 1, 0x4, 0x0, 0x0, 0x0, 0x0, 0xffff, 0x0, 0x0, 0x0, 0x0⟩,
  ⟨0x1c, 6, 0x40, 1, 0x4, 0x0, 0x1, 0x0, 0x0, 0x4, 0x0, 0x0, 0x0, 0x2⟩,
  ⟨0x400, 1, 0x4, 1, 0x4, 0x0, 0x0, 0x0, 0x0, 0x0, 0x0, 0x1, 0x0, 0x2⟩,
  ⟨0x1000, 96, 0x10, 1, 0x4, 0x6, 0x1f, 0x0, 0x0, 0x0, 0x0, 0x0, 0x0, 0x0⟩,
  ⟨0x1004, 96, 0x10, 1, 0x4, 0x0, 0xffff003f, 0x0, 0x0, 0x0, 0x0, 0x0, 0x0, 0x0⟩,
  ⟨0x1008, 96, 0x10, 1, 0x4, 0x0, 0x37f, 0x0, 0x0, 0x0, 0x0, 0x0, 0x0, 0x0⟩,
  ⟨0x100c, 96, 0x10, 1, 0x4, 0x24, 0x37, 0x0, 0x0, 0x0, 0x0, 0x0, 0x0, 0x0⟩]
def specPMX : List RegSpec := [
  ⟨0x0, 96, 0x4, 1, 0x4, 0x0, 0x7, 0x0, 0x0, 0x0, 0x0, 0x0, 0x0, 0x0⟩,
  ⟨0x200, 1, 0x4, 1, 0x4, 0x0, 0x0, 0x0, 0x0, 0x3, 0x0, 0x0, 0x0, 0x3f00⟩]
def specBLT : List RegSpec := [
  ⟨0x0, 1, 0x4, 1, 0x4, 0x0, 0x1, 0x0, 0x0, 0x0, 0x0, 0x0, 0x0, 0x0⟩,
  ⟨0x4, 1, 0x4, 1, 0x4, 0x0, 0x0, 0x0, 0x0, 0x0, 0x0, 0x0, 0x0, 0x7⟩,
  ⟨0x100, 64, 0x4, 1, 0x4, 0x0, 0xffffffff, 0x0, 0x0, 0x0, 0x0, 0x0, 0x0, 0x0⟩,
  ⟨0x400, 4, 0x40, 1, 0x4, 0x0, 0x1, 0x0, 0x0, 0x0, 0x0, 0x0, 0x0, 0xc⟩,
  ⟨0x404, 4, 0x40, 1, 0x4, 0x0, 0xffffff80, 0x0, 0x0, 0x0, 0x0, 0x0, 0x0, 0x0⟩,
  ⟨0x408, 4, 0x40, 1, 0x4, 0x0, 0xff, 0x0, 0x0, 0x0, 0x0, 0x0, 0x0, 0x0⟩,
  ⟨0x40c, 4, 0x40, 1, 0x4, 0x4, 0x1f, 0x0, 0x0, 0x0, 0x0, 0x0, 0x0, 0x0⟩,
  ⟨0x410, 4, 0x40, 1, 0x4, 0x0, 0xffff, 0x0, 0x0, 0x0, 0x0, 0x0, 0x0, 0x0⟩,
  ⟨0x414, 4, 0x40, 1, 0x4, 0x0, 0xffff, 0x0, 0x0, 0x0, 0x0, 0x0, 0x0, 0x0⟩,
  ⟨0x418, 4, 0x40, 1, 0x4, 0x1, 0x0, 0x0, 0x0, 0x3c, 0x0, 0x0, 0x0, 0xff03⟩,
  ⟨0x41c, 4, 0x40, 1, 0x4, 0x0, 0x0, 0x0, 0x0, 0x0, 0x0, 0x0, 0x0, 0x7fff⟩,
  ⟨0x420, 4, 0x40, 1, 0x4, 0x0, 0x0, 0x0, 0x0, 0x0, 0x0, 0x0, 0xffffffff, 0x0⟩]
def specMEM : List RegSpec := [
  ⟨0x0, 1, 0x4, 1, 0x4, 0x0, 0x1, 0x0, 0x0, 0x0, 0x2, 0x0, 0x0, 0x0⟩,
  ⟨0x4, 1, 0x4, 1, 0x4, 0x0, 0x0, 0x0, 0x0, 0xf, 0x0, 0x0, 0x0, 0x0⟩,
  ⟨0x10, 1, 0x4, 1, 0x4, 0x13880, 0xfffff, 0x0, 0x0, 0x0, 0x0, 0x0, 0x0, 0x0⟩,
  ⟨0x14, 1, 0x4, 1, 0x4, 0x7d0, 0xfffff, 0x0, 0x0, 0x0, 0x0, 0x0, 0x0, 0x0⟩,
  ⟨0x18, 1, 0x4, 1, 0x4, 0xfa0, 0xfffff, 0x0, 0x0, 0x0, 0x0, 0x0, 0x0, 0x0⟩,
  ⟨0x1c, 1, 0x4, 1, 0x4, 0x1f40, 0xfffff, 0x0, 0x0, 0x0, 0x0, 0x0, 0x0, 0x0⟩,
  ⟨0x20, 1, 0x4, 1, 0x4, 0xfa0, 0xfffff, 0x0, 0x0, 0x0, 0x0, 0x0, 0x0, 0x0⟩,
  ⟨0x40, 16, 0x4, 1, 0x4, 0x0, 0x0, 0x0, 0x0, 0x0, 0x0, 0x0, 0x0, 0xfffff⟩,
  ⟨0x80, 1, 0x4, 1, 0x4, 0x0, 0x0, 0x0, 0x0, 0x0, 0x0, 0x0, 0xffffffff, 0x0⟩,
  ⟨0x84, 1, 0x4, 1, 0x4, 0x0, 0x0, 0x0, 0x0, 0x0, 0x0, 0x0, 0xffffffff, 0x0⟩,
  ⟨0x88, 1, 0x4, 1, 0x4, 0x0, 0x0, 0x0, 0x0, 0x0, 0x0, 0x0, 0xffffffff, 0x0⟩,
  ⟨0x8c, 1, 0x4, 1, 0x4, 0x0, 0x0, 0x0, 0x0, 0x0, 0x0, 0x0, 0xffffffff, 0x0⟩,
  ⟨0x90, 1, 0x4, 1, 0x4, 0x0, 0x0, 0x0, 0x0, 0x0, 0x0, 0x0, 0xffffffff, 0x0⟩,
  ⟨0x94, 1, 0x4, 1, 0x4, 0x0, 0x0, 0x0, 0x0, 0x0, 0x0, 0x0, 0xffffffff, 0x0⟩,
  ⟨0xa0, 1, 0x4, 1, 0x4, 0x0, 0x0, 0x0, 0x0, 0x0, 0x0, 0x0, 0x0, 0x1f⟩,
  ⟨0xa4, 1, 0x4, 1, 0x4, 0x0, 0x0, 0x0, 0x0, 0x0, 0x0, 0x0, 0x0, 0xffffffff⟩,
  ⟨0xa8, 1, 0x4, 1, 0x4, 0x0, 0x0, 0x0, 0x0, 0x0, 0x0, 0x0, 0x0, 0xff⟩,
  ⟨0xac, 1, 0x4, 1, 0x4, 0x0, 0x0, 0x0, 0x0, 0x0, 0x0, 0x0, 0x0, 0xf03ff0f⟩,
  ⟨0xb0, 1, 0x4, 1, 0x4, 0x0, 0x0, 0x0, 0x0, 0x0, 0x0, 0x1, 0x0, 0x0⟩,
  ⟨0x100, 1, 0x4, 1, 0x4, 0x180101, 0x1f1f01, 0x0, 0x0, 0x0, 0x0, 0x0, 0x0, 0x0⟩,
  ⟨0x104, 1, 0x4, 1, 0x4, 0x602100a, 0xfffffff, 0x0, 0x0, 0x0, 0x0, 0x0, 0x0, 0x0⟩,
  ⟨0x108, 1, 0x4, 1, 0x4, 0x18, 0x0, 0x0, 0x0, 0x0, 0x0, 0x0, 0x0, 0xffff001f⟩,
  ⟨0x10c, 1, 0x4, 1, 0x4, 0x0, 0x0, 0x0, 0x0, 0x0, 0x0, 0x0, 0x0, 0x3fffffff⟩,
  ⟨0x120, 1, 0x4, 1, 0x4, 0x0, 0x0, 0x0, 0xffffffff, 0x0, 0x0, 0x0, 0x0, 0x0⟩,
  ⟨0x124, 1, 0x4, 1, 0x4, 0x0, 0x0, 0x0, 0xff, 0x0, 0x0, 0x0, 0x0, 0x0⟩,
  ⟨0x128, 1, 0x4, 1, 0x4, 0x0, 0x0, 0x0, 0x7, 0x0, 0x0, 0x0, 0x0, 0x0⟩]
def specHBM : List RegSpec := [
  ⟨0x0, 1, 0x4, 1, 0x4, 0x0, 0x0, 0x0, 0x0, 0x0, 0x0, 0x0, 0x0, 0xf03⟩,
  ⟨0x100, 16, 0x4, 1, 0x4, 0x0, 0x0, 0x0, 0x0, 0x0, 0x0, 0x0, 0xffff, 0x0⟩]
def specDMA : List RegSpec := [
  ⟨0x0, 1, 0x4, 1, 0x4, 0x0, 0x0, 0x0, 0x0, 0x0, 0x0, 0xffffffff, 0x0, 0x0⟩,
  ⟨0x4, 1, 0x4, 1, 0x4, 0x0, 0x0, 0x0, 0x0, 0x0, 0x0, 0xffffffff, 0x0, 0x0⟩,
  ⟨0x8, 1, 0x4, 1, 0x4, 0x0, 0x0, 0x0, 0x0, 0x0, 0x0, 0x0, 0x0, 0xffffffff⟩,
  ⟨0xc, 1, 0x4, 1, 0x4, 0x0, 0x0, 0x0, 0x0, 0x0, 0x0, 0x0, 0x0, 0xffffffff⟩,
  ⟨0x1000, 64, 0x40, 1, 0x4, 0x0, 0x33, 0x0, 0x0, 0x0, 0x0, 0x0, 0x0, 0xc⟩,
  ⟨0x1004, 64, 0x40, 1, 0x4, 0x0, 0x0, 0x0, 0x0, 0xf8, 0x0, 0x0, 0x0, 0xffffff07⟩,
  ⟨0x1008, 64, 0x40, 1, 0x4, 0x0, 0xfffffff0, 0x0, 0x0, 0x0, 0x0, 0x0, 0x0, 0x0⟩,
  ⟨0x100c, 64, 0x40, 1, 0x4, 0x0, 0xff, 0x0, 0x0, 0x0, 0x0, 0x0, 0x0, 0x0⟩,
  ⟨0x1010, 64, 0x40, 1, 0x4, 0x0, 0x0, 0x0, 0x0, 0x0, 0x0, 0x0, 0x0, 0xffffffff⟩,
  ⟨0x1014, 64, 0x40, 1, 0x4, 0x0, 0x0, 0x0, 0x0, 0x0, 0x0, 0x0, 0x0, 0xff⟩,
  ⟨0x1018, 64, 0x40, 1, 0x4, 0x0, 0x0, 0x0, 0x0, 0x0, 0x0, 0x0, 0x0, 0xffffffff⟩,
  ⟨0x101c, 64, 0x40, 1, 0x4, 0x0, 0x0, 0x0, 0x0, 0x0, 0x0, 0x0, 0x0, 0xff⟩,
  ⟨0x1020, 64, 0x40, 1, 0x4, 0x0, 0x0, 0x0, 0x0, 0x0, 0x0, 0x0, 0x0, 0xffffffff⟩,
  ⟨0x1024, 64, 0x40, 1, 0x4, 0x0, 0x0, 0x0, 0x0, 0x0, 0x0, 0x0, 0x0, 0xffffffff⟩,
  ⟨0x1028, 64, 0x40, 1, 0x4, 0x0, 0x7f, 0x0, 0x0, 0x0, 0x0, 0x0, 0x0, 0x0⟩,
  ⟨0x102c, 64, 0x40, 1, 0x4, 0x0, 0x0, 0x0, 0x0, 0x0, 0x0, 0x0, 0xffffffff, 0x0⟩]
def specPVWn : List RegSpec := [
  ⟨0x0, 1, 0x4, 1, 0x4, 0xb400, 0xf001, 0x7f0, 0x0, 0x0, 0x0, 0x0, 0x0, 0xc⟩,
  ⟨0x4, 1, 0x4, 1, 0x4, 0x0, 0x0, 0x1fff1fff, 0x0, 0x0, 0x0, 0x0, 0x0, 0x0⟩,
  ⟨0x8, 1, 0x4, 1, 0x4, 0x4380780, 0x0, 0xfff0fff, 0x0, 0x0, 0x0, 0x0, 0x0, 0x0⟩,
  ⟨0xc, 1, 0x4, 1, 0x4, 0x2c0898, 0x0, 0xfff3fff, 0x0, 0x0, 0x0, 0x0, 0x0, 0x0⟩,
  ⟨0x10, 1, 0x4, 1, 0x4, 0x94, 0x0, 0xfff, 0x0, 0x0, 0x0, 0x0, 0x0, 0x0⟩,
  ⟨0x14, 1, 0x4, 1, 0x4, 0x0, 0x0, 0x0, 0x0, 0x7c, 0x0, 0x0, 0x0, 0xf03⟩,
  ⟨0x18, 1, 0x4, 1, 0x4, 0x0, 0x0, 0x0, 0x0, 0x0, 0x0, 0x0, 0xffffffff, 0x0⟩,
  ⟨0x20, 1, 0x4, 1, 0x4, 0x0, 0xfffffff, 0x0, 0x0, 0x0, 0x0, 0x80000000, 0x0, 0x0⟩,
  ⟨0x24, 1, 0x4, 1, 0x4, 0x0, 0x0, 0x0, 0x0, 0x0, 0x0, 0x0, 0x0, 0x1f07⟩,
  ⟨0x30, 4, 0x4, 1, 0x4, 0x0, 0xffffffff, 0x0, 0x0, 0x0, 0x0, 0x0, 0x0, 0x0⟩]
def specCPUn : List RegSpec := [
  ⟨0x0, 1, 0x4, 1, 0x4, 0x1, 0x1, 0x0, 0x0, 0x0, 0x0, 0x0, 0x0, 0x0⟩,
  ⟨0x4, 1, 0x4, 1, 0x4, 0x0, 0x1fffc, 0x0, 0x0, 0x0, 0x0, 0x0, 0x0, 0x0⟩,
  ⟨0x8, 1, 0x4, 1, 0x4, 0x1, 0x0, 0x0, 0x0, 0x8, 0x0, 0x0, 0x0, 0x1f07⟩,
  ⟨0xc, 1, 0x4, 1, 0x4, 0x0, 0x0, 0x0, 0x0, 0x0, 0x0, 0x0, 0xffffffff, 0x0⟩,
  ⟨0x10, 1, 0x4, 1, 0x4, 0x0, 0x18, 0x0, 0x0, 0x0, 0x0, 0x7, 0x0, 0x0⟩,
  ⟨0x14, 1, 0x4, 1, 0x4, 0x0, 0x0, 0x0, 0x0, 0x0, 0x0, 0x0, 0x0, 0x7⟩,
  ⟨0x18, 1, 0x4, 1, 0x4, 0x0, 0xffffffff, 0x0, 0x0, 0x0, 0x0, 0x0, 0x0, 0x0⟩,
  ⟨0x1c, 1, 0x4, 1, 0x4, 0x0, 0x1f, 0x0, 0x0, 0x0, 0x0, 0x0, 0x0, 0x0⟩,
  ⟨0x20, 1, 0x4, 1, 0x4, 0x0, 0xffffffff, 0x0, 0x0, 0x0, 0x0, 0x0, 0x0, 0x0⟩,
  ⟨0x40, 4, 0x4, 1, 0x4, 0x0, 0x1fffd, 0x0, 0x0, 0x0, 0x0, 0x0, 0x0, 0x0⟩,
  ⟨0x80, 32, 0x4, 1, 0x4, 0x0, 0xffffffff, 0x0, 0x0, 0x0, 0x0, 0x0, 0x0, 0x0⟩]
def specCLVn : List RegSpec := [
  ⟨0x0, 1, 0x4, 1, 0x4, 0x0, 0x1f11, 0x0, 0x0, 0x0, 0x0, 0x2, 0x0, 0xc⟩,
  ⟨0x4, 1, 0x4, 1, 0x4, 0x100, 0xffffff, 0x0, 0x0, 0x0, 0x0, 0x0, 0x0, 0x0⟩,
  ⟨0x8, 1, 0x4, 1, 0x4, 0x0, 0x77ffff7f, 0x0, 0x0, 0x0, 0x0, 0x0, 0x0, 0x0⟩,
  ⟨0xc, 1, 0x4, 1, 0x4, 0x1f00, 0x1f1f, 0x0, 0x0, 0x0, 0x0, 0x0, 0x0, 0x0⟩,
  ⟨0x10, 1, 0x4, 1, 0x4, 0x0, 0xffffffff, 0x0, 0x0, 0x0, 0x0, 0x0, 0x0, 0x0⟩,
  ⟨0x14, 1, 0x4, 1, 0x4, 0x0, 0x7f, 0x0, 0x0, 0x0, 0x0, 0x0, 0x0, 0x0⟩,
  ⟨0x18, 1, 0x4, 1, 0x4, 0x0, 0x0, 0x0, 0x0, 0x0, 0x0, 0xffffffff, 0x0, 0x0⟩,
  ⟨0x1c, 1, 0x4, 1, 0x4, 0x0, 0x0, 0x0, 0x0, 0x0, 0x0, 0x0, 0x0, 0xffffffff⟩,
  ⟨0x20, 1, 0x4, 1, 0x4, 0x0, 0x0, 0x0, 0x0, 0x7f, 0x0, 0x0, 0x0, 0x7f80⟩,
  ⟨0x24, 1, 0x4, 1, 0x4, 0x0, 0x1f, 0x0, 0x0, 0x0, 0x0, 0x0, 0x0, 0x3f3f00⟩,
  ⟨0x28, 1, 0x4, 1, 0x4, 0x0, 0x0, 0x0, 0x0, 0x0, 0x0, 0x0, 0x0, 0xffffffff⟩,
  ⟨0x2c, 1, 0x4, 1, 0x4, 0x0, 0x0, 0x0, 0x0, 0x0, 0x0, 0x0, 0x0, 0xffffffff⟩,
  ⟨0x30, 1, 0x4, 1, 0x4, 0x0, 0x0, 0x0, 0x0, 0x0, 0x0, 0x0, 0xffff, 0xffff0000⟩,
  ⟨0x100, 32, 0x8, 1, 0x4, 0x0, 0xffffffff, 0x0, 0x0, 0x0, 0x0, 0x0, 0x0, 0x0⟩,
  ⟨0x104, 32, 0x8, 1, 0x4, 0x0, 0xffffffff, 0x0, 0x0, 0x0, 0x0, 0x0, 0x0, 0x0⟩]
def specTMRn : List RegSpec := [
  ⟨0x0, 1, 0x4, 1, 0x4, 0xf0000, 0xf1ff1, 0x0, 0x0, 0x0, 0x0, 0x0, 0x0, 0xc⟩,
  ⟨0x4, 1, 0x4, 1, 0x4, 0x0, 0x0, 0x0, 0x0, 0x39f, 0x0, 0x0, 0x0, 0x460⟩,
  ⟨0x8, 1, 0x4, 1, 0x4, 0x0, 0xffffffff, 0x0, 0x0, 0x0, 0x0, 0x0, 0x0, 0x0⟩,
  ⟨0xc, 1, 0x4, 1, 0x4, 0x0, 0xffffffff, 0x0, 0x0, 0x0, 0x0, 0x0, 0x0, 0x0⟩,
  ⟨0x10, 1, 0x4, 1, 0x4, 0xffffffff, 0xffffffff, 0x0, 0x0, 0x0, 0x0, 0x0, 0x0, 0x0⟩,
  ⟨0x14, 1, 0x4, 1, 0x4, 0xffffffff, 0xffffffff, 0x0, 0x0, 0x0, 0x0, 0x0, 0x0, 0x0⟩,
  ⟨0x20, 4, 0x8, 1, 0x4, 0x0, 0xffffffff, 0x0, 0x0, 0x0, 0x0, 0x0, 0x0, 0x0⟩,
  ⟨0x24, 4, 0x8, 1, 0x4, 0x0, 0xffffffff, 0x0, 0x0, 0x0, 0x0, 0x0, 0x0, 0x0⟩,
  ⟨0x40, 1, 0x4, 1, 0x4, 0x0, 0x0, 0x0, 0x0, 0x0, 0x0, 0x0, 0x0, 0xffffffff⟩,
  ⟨0x44, 1, 0x4, 1, 0x4, 0x0, 0x0, 0x0, 0x0, 0x0, 0x0, 0x0, 0x0, 0xffffffff⟩,
  ⟨0x48, 1, 0x4, 1, 0x4, 0x0, 0x0, 0x0, 0x0, 0x0, 0x0, 0x0, 0x0, 0xffffffff⟩,
  ⟨0x4c, 1, 0x4, 1, 0x4, 0x0, 0x0, 0x0, 0x0, 0x0, 0x0, 0x0, 0x0, 0xffffffff⟩,
  ⟨0x50, 1, 0x4, 1, 0x4, 0x0, 0x0, 0x0, 0x0, 0x0, 0x0, 0x0, 0x0, 0xffffffff⟩,
  ⟨0x54, 1, 0x4, 1, 0x4, 0x0, 0xfffff, 0x0, 0x0, 0x0, 0x0, 0x0, 0x0, 0x0⟩,
  ⟨0x58, 1, 0x4, 1, 0x4, 0x0, 0x37f, 0x0, 0x0, 0x0, 0x0, 0x0, 0x0, 0x0⟩]
def specHST : List RegSpec := [
  ⟨0x0, 1, 0x4, 1, 0x4, 0x0, 0x0, 0x0, 0x0, 0x0, 0x0, 0x0, 0x0, 0xfff⟩,
  ⟨0x4, 1, 0x4, 1, 0x4, 0x0, 0x0, 0x0, 0x0, 0x3f, 0x0, 0x0, 0x0, 0x0⟩,
  ⟨0x8, 1, 0x4, 1, 0x4, 0x0, 0x3fff, 0x0, 0x0, 0x0, 0x0, 0x0, 0x0, 0x0⟩,
  ⟨0xc, 1, 0x4, 1, 0x4, 0x0, 0xffffff80, 0x0, 0x0, 0x0, 0x0, 0x0, 0x0, 0x0⟩,
  ⟨0x10, 1, 0x4, 1, 0x4, 0x0, 0xffffffff, 0x0, 0x0, 0x0, 0x0, 0x0, 0x0, 0x0⟩,
  ⟨0x20, 1, 0x4, 1, 0x4, 0x0, 0x0, 0x0, 0x0, 0x0, 0x0, 0xff, 0x0, 0x0⟩,
  ⟨0x24, 1, 0x4, 1, 0x4, 0x0, 0x0, 0x0, 0x0, 0x0, 0x0, 0x0, 0x0, 0xffff⟩,
  ⟨0x28, 1, 0x4, 1, 0x4, 0x0, 0x1, 0x0, 0x0, 0x0, 0x0, 0x0, 0x0, 0x0⟩,
  ⟨0x2c, 1, 0x4, 1, 0x4, 0x0, 0x0, 0x0, 0x0, 0x0, 0x0, 0x0, 0x0, 0x3fffff7⟩,
  ⟨0x30, 1, 0x4, 1, 0x4, 0x0, 0x0, 0x0, 0x0, 0x0, 0x0, 0x3ff, 0x0, 0x0⟩,
  ⟨0x100, 4, 0x20, 1, 0x4, 0x0, 0xffffffc0, 0x0, 0x0, 0x0, 0x0, 0x0, 0x0, 0x0⟩,
  ⟨0x104, 4, 0x20, 1, 0x4, 0x0, 0xffffffff, 0x0, 0x0, 0x0, 0x0, 0x0, 0x0, 0x0⟩,
  ⟨0x108, 4, 0x20, 1, 0x4, 0xc, 0x3f3f, 0x0, 0x0, 0x0, 0x0, 0x0, 0x0, 0x0⟩,
  ⟨0x10c, 4, 0x20, 1, 0x4, 0x1, 0xffff00ff, 0x0, 0x0, 0x0, 0x0, 0x0, 0x0, 0x0⟩,
  ⟨0x110, 4, 0x20, 1, 0x4, 0x0, 0xffff, 0x0, 0x0, 0x0, 0x0, 0x0, 0x0, 0x0⟩,
  ⟨0x114, 4, 0x20, 1, 0x4, 0x0, 0x0, 0x0, 0x0, 0x0, 0x0, 0x0, 0x0, 0xffff⟩]
def specPLD : List RegSpec := [
  ⟨0x0, 1, 0x4, 1, 0x4, 0x0, 0x0, 0x1, 0x0, 0x0, 0x0, 0x6, 0x0, 0x0⟩,
  ⟨0x4, 1, 0x4, 1, 0x4, 0x0, 0x0, 0x0, 0x0, 0x18, 0x0, 0x0, 0x0, 0xfffff07⟩,
  ⟨0x8, 1, 0x4, 1, 0x4, 0x4, 0xff, 0x0, 0x0, 0x0, 0x0, 0x0, 0x0, 0x0⟩,
  ⟨0xc, 1, 0x4, 1, 0x4, 0x0, 0x0, 0x0, 0x0, 0x0, 0x0, 0x0, 0x0, 0xfff1fff⟩,
  ⟨0x20000, 65536, 0x4, 1, 0x4, 0x0, 0xffffffff, 0x0, 0x0, 0x0, 0x0, 0x0, 0x0, 0x0⟩,
  ⟨0x60000, 4096, 0x8, 1, 0x4, 0x0, 0x0, 0x0, 0x0, 0x0, 0x0, 0x0, 0x0, 0xffffffff⟩,
  ⟨0x60004, 4096, 0x8, 1, 0x4, 0x0, 0x0, 0x0, 0x0, 0x0, 0x0, 0x0, 0x0, 0x7ff⟩]
def specOBJ : List RegSpec := [
  ⟨0x0, 1, 0x4, 1, 0x4, 0x0, 0x1, 0x0, 0x0, 0x0, 0x0, 0x2, 0x0, 0x0⟩,
  ⟨0x4, 1, 0x4, 1, 0x4, 0x0, 0x0, 0x0, 0x0, 0x1e, 0x0, 0x0, 0x0, 0x7fff0001⟩,
  ⟨0x8, 1, 0x4, 1, 0x4, 0x0, 0xffffffe0, 0x0, 0x0, 0x0, 0x0, 0x0, 0x0, 0x0⟩,
  ⟨0xc, 1, 0x4, 1, 0x4, 0x0, 0xff, 0x0, 0x0, 0x0, 0x0, 0x0, 0x0, 0x0⟩,
  ⟨0x10, 1, 0x4, 1, 0x4, 0x0, 0x3fff3fff, 0x0, 0x0, 0x0, 0x0, 0x80000000, 0x0, 0x0⟩,
  ⟨0x14, 1, 0x4, 1, 0x4, 0x0, 0x0, 0x0, 0x0, 0x0, 0x0, 0x0, 0x0, 0x7fff⟩,
  ⟨0x80000, 131072, 0x4, 1, 0x4, 0x0, 0x0, 0xffffffff, 0x0, 0x0, 0x0, 0x0, 0x0, 0x0⟩]
def specENG : List RegSpec := [
  ⟨0x0, 1, 0x4, 1, 0x4, 0x30400, 0xfff07, 0x0, 0x0, 0x0, 0x0, 0x8, 0x0, 0x0⟩,
  ⟨0x4, 1, 0x4, 1, 0x4, 0x989680, 0x0, 0x1ffffff, 0x0, 0x0, 0x0, 0x0, 0x0, 0x0⟩,
  ⟨0x8, 1, 0x4, 1, 0x4, 0x0, 0x0, 0xffffffff, 0x0, 0x0, 0x0, 0x0, 0x0, 0x0⟩,
  ⟨0xc, 1, 0x4, 1, 0x4, 0x0, 0x0, 0x0, 0x0, 0x300, 0x0, 0x0, 0xff0000, 0x3⟩,
  ⟨0x10, 1, 0x4, 1, 0x4, 0x0, 0x1ffffff, 0x0, 0x0, 0x0, 0x0, 0x0, 0x0, 0x0⟩,
  ⟨0x14, 1, 0x4, 1, 0x4, 0x2580258, 0xffffffff, 0x0, 0x0, 0x0, 0x0, 0x0, 0x0, 0x0⟩,
  ⟨0x18, 1, 0x4, 1, 0x4, 0x0, 0x0, 0x0, 0x0, 0x0, 0x0, 0x0, 0x0, 0x1ffffff⟩,
  ⟨0x1c, 1, 0x4, 1, 0x4, 0x0, 0x0, 0x0, 0x0, 0x0, 0x0, 0x0, 0x0, 0xffffffff⟩,
  ⟨0x20, 1, 0x4, 1, 0x4, 0x0, 0x0, 0x0, 0x0, 0x0, 0x0, 0x0, 0x0, 0xffffffff⟩,
  ⟨0x24, 1, 0x4, 1, 0x4, 0x0, 0x0, 0x0, 0x0, 0x0, 0x0, 0x0, 0x0, 0xffff⟩,
  ⟨0x40, 4, 0x8, 1, 0x4, 0x30000000, 0xffffffff, 0x0, 0x0, 0x0, 0x0, 0x0, 0x0, 0x0⟩,
  ⟨0x44, 4, 0x8, 1, 0x4, 0x18, 0x3ff, 0x0, 0x0, 0x20000, 0x0, 0x0, 0x0, 0x50000⟩,
  ⟨0x80, 1, 0x4, 1, 0x4, 0x400022, 0xffff00f3, 0x0, 0x0, 0x0, 0x0, 0x4, 0x0, 0x0⟩,
  ⟨0x84, 1, 0x4, 1, 0x4, 0xffff, 0xffff, 0x0, 0x0, 0x0, 0x0, 0x0, 0x0, 0x0⟩,
  ⟨0x88, 1, 0x4, 1, 0x4, 0x0, 0x0, 0x0, 0x0, 0x700, 0x0, 0x0, 0x0, 0xffff00f3⟩,
  ⟨0x8c, 1, 0x4, 1, 0x4, 0x0, 0x0, 0x0, 0x0, 0xffff, 0x0, 0x0, 0x0, 0x0⟩,
  ⟨0x90, 1, 0x4, 1, 0x4, 0x0, 0x0, 0x0, 0x0, 0x0, 0x0, 0x0, 0xffffffff, 0x0⟩]
def specENGn_0 : List RegSpec := [
  ⟨0x0, 1, 0x4, 1, 0x4, 0x100, 0x3001, 0x1f0, 0x0, 0x0, 0x0, 0x0, 0x0, 0xc⟩,
  ⟨0x4, 1, 0x4, 1, 0x4, 0xb00f00, 0x0, 0xfff3fff, 0x0, 0x0, 0x0, 0x0, 0x0, 0x0⟩,
  ⟨0x8, 1, 0x4, 1, 0x4, 0x1280058, 0x0, 0xfff0fff, 0x0, 0x0, 0x0, 0x0, 0x0, 0x0⟩,
  ⟨0xc, 1, 0x4, 1, 0x4, 0x80870, 0x0, 0xfff1fff, 0x0, 0x0, 0x0, 0x0, 0x0, 0x0⟩,
  ⟨0x10, 1, 0x4, 1, 0x4, 0x48000a, 0x0, 0xfff0fff, 0x0, 0x0, 0x0, 0x0, 0x0, 0x0⟩,
  ⟨0x14, 1, 0x4, 1, 0x4, 0x0, 0x0, 0x0, 0x0, 0x0, 0x0, 0x0, 0x0, 0xffff⟩,
  ⟨0x18, 1, 0x4, 1, 0x4, 0x0, 0x0, 0x0, 0x0, 0x0, 0x0, 0x0, 0x0, 0xffffffff⟩,
  ⟨0x1c, 1, 0x4, 1, 0x4, 0x100000, 0x0, 0xffffff, 0x0, 0x0, 0x0, 0x0, 0x0, 0xf000000⟩,
  ⟨0x20, 1, 0x4, 1, 0x4, 0x0, 0x0, 0x0, 0x0, 0x0, 0x0, 0x0, 0xffffffff, 0x0⟩,
  ⟨0x24, 1, 0x4, 1, 0x4, 0x0, 0x0, 0x0, 0x0, 0x0, 0x0, 0x0, 0x0, 0x1fff1fff⟩,
  ⟨0x28, 1, 0x4, 1, 0x4, 0x0, 0x0, 0x0, 0x0, 0x7, 0x0, 0x0, 0x0, 0x18⟩,
  ⟨0x40, 1, 0x4, 1, 0x4, 0x0, 0xfffffff0, 0x0, 0x0, 0x0, 0x0, 0x0, 0x0, 0x0⟩,
  ⟨0x44, 1, 0x4, 1, 0x4, 0x0, 0xff, 0x0, 0x0, 0x0, 0x0, 0x0, 0x0, 0x0⟩,
  ⟨0x48, 1, 0x4, 1, 0x4, 0x0, 0x0, 0x0, 0x0, 0x0, 0x0, 0x7, 0x0, 0x0⟩,
  ⟨0x4c, 1, 0x4, 1, 0x4, 0x0, 0x0, 0x0, 0x0, 0xf0000, 0x0, 0x0, 0x0, 0xff07⟩,
  ⟨0x50, 1, 0x4, 1, 0x4, 0x0, 0x0, 0x0, 0x0, 0x0, 0x0, 0x0, 0x0, 0xffffffff⟩,
  ⟨0x54, 1, 0x4, 1, 0x4, 0x0, 0x0, 0x0, 0x0, 0x0, 0x0, 0x0, 0x0, 0xffffffff⟩,
  ⟨0x58, 1, 0x4, 1, 0x4, 0x0, 0x0, 0x0, 0x0, 0x0, 0x0, 0x0, 0x0, 0x1fffffff⟩,
  ⟨0x1000, 8, 0x80, 1, 0x4, 0x0, 0x0, 0xffffffff, 0x0, 0x0, 0x0, 0x0, 0x0, 0x0⟩,
  ⟨0x1004, 8, 0x80, 1, 0x4, 0x0, 0x0, 0xffffffff, 0x0, 0x0, 0x0, 0x0, 0x0, 0x0⟩,
  ⟨0x1008, 8, 0x80, 1, 0x4, 0x0, 0x0, 0xffffffff, 0x0, 0x0, 0x0, 0x0, 0x0, 0x0⟩,
  ⟨0x100c, 8, 0x80, 1, 0x4, 0x0, 0x0, 0xffffffff, 0x0, 0x0, 0x0, 0x0, 0x0, 0x0⟩,
  ⟨0x1010, 8, 0x80, 1, 0x4, 0x0, 0x0, 0xffffffff, 0x0, 0x0, 0x0, 0x0, 0x0, 0x0⟩,
  ⟨0x1014, 8, 0x80, 1, 0x4, 0x0, 0x0, 0xffffffff, 0x0, 0x0, 0x0, 0x0, 0x0, 0x0⟩,
  ⟨0x1018, 8, 0x80, 1, 0x4, 0x0, 0x0, 0xffffffff, 0x0, 0x0, 0x0, 0x0, 0x0, 0x0⟩,
  ⟨0x1020, 2, 0x80, 1, 0x4, 0x10000, 0x0, 0xffffffff, 0x0, 0x0, 0x0, 0x0, 0x0, 0x0⟩,
  ⟨0x1024, 2, 0x80, 1, 0x4, 0x0, 0x0, 0xffffffff, 0x0, 0x0, 0x0, 0x0, 0x0, 0x0⟩,
  ⟨0x1028, 2, 0x80, 1, 0x4, 0x0, 0x0, 0xffffffff, 0x0, 0x0, 0x0, 0x0, 0x0, 0x0⟩,
  ⟨0x102c, 2, 0x80, 1, 0x4, 0x10000, 0x0, 0xffffffff, 0x0, 0x0, 0x0, 0x0, 0x0, 0x0⟩,
  ⟨0x1030, 2, 0x80, 1, 0x4, 0x0, 0x0, 0xffffffff, 0x0, 0x0, 0x0, 0x0, 0x0, 0x0⟩,
  ⟨0x1034, 2, 0x80, 1, 0x4, 0x0, 0x0, 0xffffffff, 0x0, 0x0, 0x0, 0x0, 0x0, 0x0⟩,
  ⟨0x1400, 2, 0x8, 1, 0x4, 0x3fff, 0x0, 0x3fff3fff, 0x0, 0x0, 0x0, 0x0, 0x0, 0x0⟩]
def specENGn_1 : List RegSpec := [
  ⟨0x1404, 2, 0x8, 1, 0x4, 0x1fff, 0x0, 0x1fff1fff, 0x0, 0x0, 0x0, 0x0, 0x0, 0x0⟩,
  ⟨0x80, 1, 0x4, 1, 0x4, 0x0, 0x13fff, 0x0, 0x0, 0x0, 0x0, 0x0, 0x0, 0x0⟩,
  ⟨0x84, 1, 0x4, 1, 0x4, 0x0, 0xffffffff, 0x0, 0x0, 0x0, 0x0, 0x0, 0x0, 0x0⟩,
  ⟨0x88, 1, 0x4, 1, 0x4, 0x0, 0xffff, 0x0, 0x0, 0x0, 0x0, 0x0, 0x0, 0x0⟩,
  ⟨0x90, 1, 0x4, 1, 0x4, 0x0, 0x0, 0x0, 0x0, 0x0, 0x0, 0x1, 0x0, 0x0⟩,
  ⟨0x94, 1, 0x4, 1, 0x4, 0x0, 0x0, 0x0, 0x0, 0x0, 0x0, 0x0, 0x0, 0xffffffff⟩,
  ⟨0x98, 1, 0x4, 1, 0x4, 0x0, 0x0, 0x0, 0x0, 0x0, 0x0, 0x0, 0x0, 0xffffffff⟩,
  ⟨0x9c, 1, 0x4, 1, 0x4, 0x0, 0x0, 0x0, 0x0, 0x0, 0x0, 0x0, 0x0, 0xffffffff⟩,
  ⟨0xa0, 1, 0x4, 1, 0x4, 0x0, 0x0, 0x0, 0x0, 0x0, 0x0, 0x0, 0x0, 0xffffffff⟩,
  ⟨0x1800, 2, 0x20, 1, 0x4, 0x0, 0x0, 0x7ff, 0x0, 0x0, 0x0, 0x0, 0x0, 0x0⟩,
  ⟨0x1840, 1, 0x4, 1, 0x4, 0x0, 0x0, 0xffffffff, 0x0, 0x0, 0x0, 0x0, 0x0, 0x0⟩,
  ⟨0xa4, 1, 0x4, 1, 0x4, 0x0, 0x0, 0x0, 0x0, 0x0, 0x0, 0x0, 0x0, 0xffffffff⟩,
  ⟨0xa8, 1, 0x4, 1, 0x4, 0x0, 0x0, 0x0, 0x0, 0x0, 0x0, 0x0, 0x0, 0xffffffff⟩,
  ⟨0xac, 1, 0x4, 1, 0x4, 0x0, 0x0, 0x0, 0x0, 0x0, 0x0, 0x0, 0x0, 0xffffffff⟩,
  ⟨0xb0, 1, 0x4, 1, 0x4, 0x0, 0x0, 0x0, 0x0, 0x0, 0x0, 0x1, 0x0, 0x0⟩,
  ⟨0x1c00, 1, 0x4, 1, 0x4, 0x0, 0x0, 0xf, 0x0, 0x0, 0x0, 0x0, 0x0, 0x0⟩,
  ⟨0x1c04, 1, 0x4, 1, 0x4, 0x0, 0x0, 0xffffff, 0x0, 0x0, 0x0, 0x0, 0x0, 0x0⟩,
  ⟨0x1c08, 1, 0x4, 1, 0x4, 0x0, 0x0, 0xfff, 0x0, 0x0, 0x0, 0x0, 0x0, 0x0⟩,
  ⟨0x1c40, 8, 0x8, 1, 0x4, 0x1234567, 0x0, 0xffffffff, 0x0, 0x0, 0x0, 0x0, 0x0, 0x0⟩,
  ⟨0x1c44, 8, 0x8, 1, 0x4, 0xba98, 0x0, 0xffff, 0x0, 0x0, 0x0, 0x0, 0x0, 0x0⟩,
  ⟨0x1c80, 12, 0x4, 1, 0x4, 0xff00, 0x0, 0xff03, 0x0, 0x0, 0x0, 0x0, 0x0, 0x0⟩,
  ⟨0x1410, 2, 0x10, 1, 0x4, 0x0, 0x0, 0xff03, 0x0, 0x0, 0x0, 0x0, 0x0, 0x0⟩,
  ⟨0x1a00, 2, 0x20, 1, 0x4, 0x0, 0x0, 0x3ffff, 0x0, 0x0, 0x0, 0x0, 0x0, 0x0⟩,
  ⟨0x1a04, 2, 0x20, 1, 0x4, 0x0, 0x0, 0xffffffff, 0x0, 0x0, 0x0, 0x0, 0x0, 0x0⟩,
  ⟨0x1a08, 2, 0x20, 1, 0x4, 0x0, 0x0, 0xffffffff, 0x0, 0x0, 0x0, 0x0, 0x0, 0x0⟩,
  ⟨0x1a0c, 2, 0x20, 1, 0x4, 0x0, 0x0, 0xffff, 0x0, 0x0, 0x0, 0x0, 0x0, 0x0⟩,
  ⟨0x1a10, 2, 0x20, 1, 0x4, 0x0, 0x0, 0x7fff7fff, 0x0, 0x0, 0x0, 0x0, 0x0, 0x0⟩,
  ⟨0x1a14, 2, 0x20, 1, 0x4, 0x0, 0x0, 0xffffffff, 0x0, 0x0, 0x0, 0x0, 0x0, 0x0⟩,
  ⟨0xc0, 2, 0x8, 1, 0x4, 0x0, 0x3f, 0x0, 0x0, 0x0, 0x0, 0xc0, 0x0, 0x0⟩,
  ⟨0xc4, 2, 0x8, 1, 0x4, 0x0, 0xffffffff, 0x0, 0x0, 0x0, 0x0, 0x0, 0x0, 0x0⟩,
  ⟨0xd0, 2, 0x4, 1, 0x4, 0x0, 0x0, 0x0, 0x0, 0xc, 0x0, 0x0, 0x0, 0xff03⟩,
  ⟨0xd8, 1, 0x4, 1, 0x4, 0x8, 0xff, 0x0, 0x0, 0x0, 0x0, 0x0, 0x0, 0x0⟩]
def specENGn_2 : List RegSpec := [
  ⟨0x100, 1, 0x4, 1, 0x4, 0x0, 0xffffffff, 0x0, 0x0, 0x0, 0x0, 0x0, 0x0, 0x0⟩,
  ⟨0x104, 1, 0x4, 1, 0x4, 0x0, 0xffffffff, 0x0, 0x0, 0x0, 0x0, 0x0, 0x0, 0x0⟩,
  ⟨0x108, 1, 0x4, 1, 0x4, 0x0, 0x0, 0x0, 0x0, 0x0, 0x0, 0x0, 0x0, 0xffff0003⟩,
  ⟨0x110, 1, 0x4, 1, 0x4, 0x0, 0x0, 0xf, 0x0, 0x100, 0x0, 0x0, 0x0, 0x0⟩,
  ⟨0x114, 1, 0x4, 1, 0x4, 0x0, 0x0, 0x1fff3fff, 0x0, 0x0, 0x0, 0x0, 0x0, 0x0⟩,
  ⟨0x1414, 2, 0x10, 1, 0x4, 0x0, 0x0, 0xffffff, 0x0, 0x0, 0x0, 0x0, 0x0, 0x0⟩,
  ⟨0x1418, 2, 0x10, 1, 0x4, 0x0, 0x0, 0xfff, 0x0, 0x0, 0x0, 0x0, 0x0, 0x0⟩]
def specPLK : List RegSpec := [
  ⟨0x0, 1, 0x4, 1, 0x4, 0x61a80, 0x0, 0xffffffff, 0x0, 0x0, 0x0, 0x0, 0x0, 0x0⟩,
  ⟨0x4, 1, 0x4, 1, 0x4, 0x0, 0x0, 0x0, 0x0, 0x1, 0x0, 0x0, 0x0, 0x0⟩,
  ⟨0x100, 1, 0x4, 1, 0x4, 0x0, 0x1, 0x0, 0x0, 0x0, 0x0, 0x0, 0x0, 0x0⟩,
  ⟨0x104, 1, 0x4, 1, 0x4, 0x4b003700, 0xffffffff, 0x0, 0x0, 0x0, 0x0, 0x0, 0x0, 0x0⟩,
  ⟨0x108, 1, 0x4, 1, 0x4, 0x202000, 0xffffffff, 0x0, 0x0, 0x0, 0x0, 0x0, 0x0, 0x0⟩,
  ⟨0x10c, 1, 0x4, 1, 0x4, 0x3e80000, 0xfffffff, 0x0, 0x0, 0x0, 0x0, 0x0, 0x0, 0x0⟩,
  ⟨0x110, 1, 0x4, 1, 0x4, 0x0, 0x0, 0x0, 0x0, 0x0, 0x0, 0x0, 0x0, 0xffffffff⟩,
  ⟨0x40000, 1536, 0x20, 1, 0x4, 0x0, 0x10, 0x0, 0x0, 0x0, 0x0, 0x0, 0x0, 0xffff002f⟩,
  ⟨0x40004, 1536, 0x20, 1, 0x4, 0x0, 0x0, 0x0, 0x0, 0x0, 0x0, 0x0, 0x0, 0xffffffff⟩,
  ⟨0x40008, 1536, 0x20, 1, 0x4, 0x0, 0x0, 0x0, 0x0, 0x0, 0x0, 0x0, 0x0, 0xffffffff⟩,
  ⟨0x4000c, 1536, 0x20, 1, 0x4, 0x0, 0x0, 0x0, 0x0, 0x0, 0x0, 0x0, 0x0, 0xffffffff⟩,
  ⟨0x40010, 1536, 0x20, 1, 0x4, 0x0, 0x0, 0x0, 0x0, 0x0, 0x0, 0x0, 0x0, 0xffffffff⟩,
  ⟨0x40014, 1536, 0x20, 1, 0x4, 0x0, 0x0, 0x0, 0x0, 0x0, 0x0, 0x0, 0x0, 0xffffffff⟩,
  ⟨0x40018, 1536, 0x20, 1, 0x4, 0x0, 0x0, 0x0, 0x0, 0x0, 0x0, 0x0, 0x0, 0xffffffff⟩,
  ⟨0x4001c, 1536, 0x20, 1, 0x4, 0x0, 0x0, 0x0, 0x0, 0x0, 0x0, 0x0, 0x0, 0xffffffff⟩,
  ⟨0x114, 1, 0x4, 1, 0x4, 0x0, 0xffff, 0x0, 0x0, 0x0, 0x0, 0x0, 0x0, 0x0⟩]
def specPLKn : List RegSpec := [
  ⟨0x800, 1, 0x4, 1, 0x4, 0x0, 0x0, 0xf, 0x0, 0x0, 0x0, 0x0, 0x0, 0x0⟩,
  ⟨0x804, 1, 0x4, 1, 0x4, 0x0, 0x11fff, 0x0, 0x0, 0x0, 0x0, 0x0, 0x0, 0x0⟩,
  ⟨0x808, 1, 0x4, 1, 0x4, 0x0, 0xffffffff, 0x0, 0x0, 0x0, 0x0, 0x0, 0x0, 0x0⟩,
  ⟨0x80c, 1, 0x4, 1, 0x4, 0x0, 0xffff, 0x0, 0x0, 0x0, 0x0, 0x0, 0x0, 0x0⟩,
  ⟨0x0, 1, 0x4, 1, 0x4, 0x0, 0x1, 0x0, 0x0, 0x0, 0x0, 0x10, 0x0, 0xc⟩,
  ⟨0x4, 1, 0x4, 1, 0x4, 0x0, 0x0, 0x0, 0x0, 0x700, 0x0, 0x0, 0x0, 0xffff000f⟩,
  ⟨0x8, 1, 0x4, 1, 0x4, 0x8083e80, 0xf0fffff, 0x0, 0x0, 0x0, 0x0, 0x0, 0x0, 0x0⟩,
  ⟨0xc, 1, 0x4, 1, 0x4, 0x3e8, 0xffff, 0x0, 0x0, 0x0, 0x0, 0x0, 0x0, 0x0⟩,
  ⟨0x10, 1, 0x4, 1, 0x4, 0x0, 0x0, 0x0, 0x0, 0x0, 0x0, 0x0, 0x0, 0xffffffff⟩,
  ⟨0x14, 1, 0x4, 1, 0x4, 0x0, 0x0, 0x0, 0x0, 0x0, 0x0, 0x0, 0x0, 0xffffffff⟩,
  ⟨0x18, 1, 0x4, 1, 0x4, 0x0, 0x0, 0x0, 0x0, 0x0, 0x0, 0x0, 0x0, 0xffffffff⟩,
  ⟨0x20, 1, 0x4, 1, 0x4, 0x0, 0x0, 0x0, 0x0, 0x0, 0x0, 0x0, 0xffffffff, 0x0⟩,
  ⟨0x24, 1, 0x4, 1, 0x4, 0x0, 0x0, 0x0, 0x0, 0x0, 0x0, 0x0, 0xffffffff, 0x0⟩,
  ⟨0x28, 1, 0x4, 1, 0x4, 0x0, 0x0, 0x0, 0x0, 0x0, 0x0, 0x0, 0xffffffff, 0x0⟩,
  ⟨0x2c, 1, 0x4, 1, 0x4, 0x0, 0x0, 0x0, 0x0, 0x0, 0x0, 0x0, 0xffffffff, 0x0⟩,
  ⟨0x30, 1, 0x4, 1, 0x4, 0x0, 0x0, 0x0, 0x0, 0x0, 0x0, 0x0, 0xffffffff, 0x0⟩,
  ⟨0x34, 1, 0x4, 1, 0x4, 0x0, 0x0, 0x0, 0x0, 0x0, 0x0, 0x0, 0xffffffff, 0x0⟩,
  ⟨0x38, 1, 0x4, 1, 0x4, 0x0, 0x0, 0x0, 0x0, 0x0, 0x0, 0x0, 0xffffffff, 0x0⟩,
  ⟨0x3c, 1, 0x4, 1, 0x4, 0x0, 0x0, 0x0, 0x0, 0x0, 0x0, 0x0, 0xffffffff, 0x0⟩,
  ⟨0x40, 1, 0x4, 1, 0x4, 0x0, 0x0, 0x0, 0x0, 0x0, 0x0, 0x0, 0xffffffff, 0x0⟩,
  ⟨0x44, 1, 0x4, 1, 0x4, 0x0, 0x0, 0x0, 0x0, 0x0, 0x0, 0x0, 0xffffffff, 0x0⟩,
  ⟨0x100, 1, 0x4, 1, 0x4, 0x400000, 0x1f03, 0x7f0000, 0x0, 0x0, 0x0, 0x0, 0x0, 0x0⟩,
  ⟨0x104, 1, 0x4, 1, 0x4, 0x3c0000, 0xffffff, 0x0, 0x0, 0x0, 0x0, 0x0, 0x0, 0x0⟩,
  ⟨0x108, 1, 0x4, 1, 0x4, 0x400000, 0x7f007f, 0x0, 0x0, 0x0, 0x0, 0x0, 0x0, 0x0⟩,
  ⟨0x10c, 1, 0x4, 1, 0x4, 0x0, 0x0, 0x0, 0x0, 0x1f000000, 0x0, 0x0, 0x0, 0xff7f7f⟩,
  ⟨0x110, 1, 0x4, 1, 0x4, 0x32, 0xffff, 0x0, 0x0, 0x0, 0x0, 0x10000, 0x0, 0x0⟩,
  ⟨0x114, 1, 0x4, 1, 0x4, 0x0, 0x0, 0x0, 0x0, 0x80, 0x0, 0x0, 0xffff0000, 0x37f⟩,
  ⟨0x118, 1, 0x4, 1, 0x4, 0x8000, 0x0, 0xffff, 0x0, 0x0, 0x0, 0x0, 0x0, 0x0⟩]
def specAUD_0 : List RegSpec := [
  ⟨0x0, 1, 0x4, 1, 0x4, 0x0, 0x1, 0x0, 0x0, 0x0, 0x0, 0x0, 0x0, 0x0⟩,
  ⟨0x4, 1, 0x4, 1, 0x4, 0x320, 0x0, 0xfffffff, 0x0, 0x0, 0x0, 0x0, 0x0, 0x0⟩,
  ⟨0x8, 1, 0x4, 1, 0x4, 0x0, 0x0, 0x0, 0x0, 0x100, 0x0, 0x0, 0x0, 0xfff00ff⟩,
  ⟨0xc, 1, 0x4, 1, 0x4, 0x0, 0x0, 0x0, 0x0, 0x0, 0x0, 0x0, 0xffffffff, 0x0⟩,
  ⟨0x10, 1, 0x4, 1, 0x4, 0x0, 0x0, 0x0, 0x0, 0x0, 0x0, 0x0, 0x0, 0xffffffff⟩,
  ⟨0x14, 1, 0x4, 1, 0x4, 0x0, 0x0, 0x0, 0x0, 0x0, 0x0, 0x0, 0x0, 0xffff⟩,
  ⟨0x18, 1, 0x4, 1, 0x4, 0x0, 0xffffffff, 0x0, 0x0, 0x0, 0x0, 0x0, 0x0, 0x0⟩,
  ⟨0x1c, 1, 0x4, 1, 0x4, 0x0, 0x0, 0x0, 0x0, 0x0, 0x0, 0xffff0fff, 0x0, 0x0⟩,
  ⟨0x20, 1, 0x4, 1, 0x4, 0x0, 0x0, 0x0, 0x0, 0x1, 0x0, 0x0, 0x0, 0x0⟩,
  ⟨0x40, 12, 0x4, 1, 0x4, 0x0, 0x0, 0x0, 0x0, 0xffffffff, 0x0, 0x0, 0x0, 0x0⟩,
  ⟨0x1000, 64, 0x40, 1, 0x4, 0x0, 0x7f1, 0x0, 0x0, 0x0, 0x0, 0x2, 0x0, 0xc⟩,
  ⟨0x1004, 64, 0x40, 1, 0x4, 0x0, 0xffffff, 0x0, 0x0, 0x0, 0x0, 0x0, 0x0, 0x0⟩,
  ⟨0x1008, 64, 0x40, 1, 0x4, 0x80, 0xff, 0x0, 0x0, 0x0, 0x0, 0x0, 0x0, 0x0⟩,
  ⟨0x100c, 64, 0x40, 1, 0x4, 0x1e00030, 0xffffffff, 0x0, 0x0, 0x0, 0x0, 0x0, 0x0, 0x0⟩,
  ⟨0x1010, 64, 0x40, 1, 0x4, 0x4000, 0xffff, 0x0, 0x0, 0x0, 0x0, 0x0, 0x0, 0x0⟩,
  ⟨0x1014, 64, 0x40, 4, 0x4, 0x10000, 0xfffff, 0x0, 0x0, 0x0, 0x0, 0x0, 0x0, 0x0⟩,
  ⟨0x4000, 384, 0x40, 1, 0x4, 0x0, 0x31, 0x0, 0x0, 0x0, 0x0, 0x2, 0x0, 0xc⟩,
  ⟨0x4004, 384, 0x40, 1, 0x4, 0x0, 0xffffffff, 0x0, 0x0, 0x0, 0x0, 0x0, 0x0, 0x0⟩,
  ⟨0x4008, 384, 0x40, 1, 0x4, 0x0, 0xff, 0x0, 0x0, 0x0, 0x0, 0x0, 0x0, 0x0⟩,
  ⟨0x400c, 384, 0x40, 1, 0x4, 0x0, 0xffffffff, 0x0, 0x0, 0x0, 0x0, 0x0, 0x0, 0x0⟩,
  ⟨0x4010, 384, 0x40, 1, 0x4, 0x0, 0xffffffff, 0x0, 0x0, 0x0, 0x0, 0x0, 0x0, 0x0⟩,
  ⟨0x4014, 384, 0x40, 1, 0x4, 0x10000, 0xfffff, 0x0, 0x0, 0x0, 0x0, 0x0, 0x0, 0x0⟩,
  ⟨0x4018, 384, 0x40, 1, 0x4, 0x1e00030, 0xffffffff, 0x0, 0x0, 0x0, 0x0, 0x0, 0x0, 0x0⟩,
  ⟨0x401c, 384, 0x40, 1, 0x4, 0x4000, 0xffff, 0x0, 0x0, 0x0, 0x0, 0x0, 0x0, 0x0⟩,
  ⟨0x4020, 384, 0x40, 1, 0x4, 0x0, 0x0, 0x0, 0x0, 0x0, 0x0, 0x0, 0x0, 0xffffffff⟩,
  ⟨0x4024, 384, 0x40, 1, 0x4, 0x0, 0x0, 0x0, 0x0, 0x3, 0x0, 0x0, 0x0, 0x0⟩,
  ⟨0x10000, 544, 0x20, 4, 0x4, 0x40000000, 0xffff0000, 0x9f, 0x0, 0x0, 0x0, 0x0, 0x0, 0x0⟩,
  ⟨0x10010, 544, 0x20, 1, 0x4, 0x1e0, 0xffff, 0x0, 0x0, 0x10000, 0x0, 0x0, 0x0, 0x0⟩,
  ⟨0x20000, 32, 0x100, 1, 0x4, 0x0, 0xf, 0x0, 0x0, 0x0, 0x0, 0xff00, 0x0, 0x0⟩,
  ⟨0x20004, 32, 0x100, 1, 0x4, 0x1e04000, 0xffffffff, 0x0, 0x0, 0x0, 0x0, 0x0, 0x0, 0x0⟩,
  ⟨0x20008, 32, 0x100, 1, 0x4, 0x0, 0xffffffff, 0x0, 0x0, 0x0, 0x0, 0x0, 0x0, 0x0⟩,
  ⟨0x2000c, 32, 0x100, 1, 0x4, 0x0, 0x1ffff, 0x0, 0x0, 0x0, 0x0, 0x0, 0x0, 0x0⟩]
def specAUD_1 : List RegSpec := [
  ⟨0x20010, 32, 0x100, 1, 0x4, 0x4000000, 0xffffffff, 0x0, 0x0, 0x0, 0x0, 0x0, 0x0, 0x0⟩,
  ⟨0x20014, 32, 0x100, 1, 0x4, 0x12c00030, 0xffffffff, 0x0, 0x0, 0x0, 0x0, 0x0, 0x0, 0x0⟩,
  ⟨0x20018, 32, 0x100, 1, 0x4, 0x0, 0xffff007f, 0x0, 0x0, 0x0, 0x0, 0x0, 0x0, 0x0⟩,
  ⟨0x2001c, 32, 0x100, 1, 0x4, 0x0, 0x0, 0x0, 0x0, 0x1, 0x0, 0x0, 0x0, 0xffff0000⟩,
  ⟨0x20040, 32, 0x100, 8, 0x14, 0x20000000, 0xffffffff, 0x0, 0x0, 0x0, 0x0, 0x0, 0x0, 0x0⟩,
  ⟨0x20044, 32, 0x100, 8, 0x14, 0x0, 0xffffffff, 0x0, 0x0, 0x0, 0x0, 0x0, 0x0, 0x0⟩,
  ⟨0x20048, 32, 0x100, 8, 0x14, 0x0, 0xffffffff, 0x0, 0x0, 0x0, 0x0, 0x0, 0x0, 0x0⟩,
  ⟨0x2004c, 32, 0x100, 8, 0x14, 0x0, 0xffffffff, 0x0, 0x0, 0x0, 0x0, 0x0, 0x0, 0x0⟩,
  ⟨0x20050, 32, 0x100, 8, 0x14, 0x0, 0xffffffff, 0x0, 0x0, 0x0, 0x0, 0x0, 0x0, 0x0⟩,
  ⟨0x30000, 8, 0x100, 1, 0x4, 0x0, 0x3fff0001, 0x0, 0x0, 0x20, 0x0, 0x0, 0x0, 0xc⟩,
  ⟨0x30004, 8, 0x100, 1, 0x4, 0x584, 0x1fff, 0x0, 0x0, 0x0, 0x0, 0x0, 0x0, 0x0⟩,
  ⟨0x30040, 8, 0x100, 16, 0x4, 0x3f, 0x0, 0x3f, 0x0, 0x0, 0x0, 0x0, 0x0, 0x0⟩,
  ⟨0x31000, 4, 0x100, 1, 0x4, 0x0, 0x1, 0x0, 0x0, 0x20, 0x0, 0x0, 0x0, 0x1c⟩,
  ⟨0x31004, 4, 0x100, 1, 0x4, 0x584, 0x1fff, 0x0, 0x0, 0x0, 0x0, 0x0, 0x0, 0x0⟩]

/-- The blocks of R512. -/
def blocks : List Block := [
  ⟨0x0, 1, 0x1000, 0x1000, specBOOT⟩,
  ⟨0x1000, 1, 0x1000, 0x1000, specSEC⟩,
  ⟨0x2000, 1, 0x1000, 0x1000, specFLT⟩,
  ⟨0x3000, 1, 0x1000, 0x1000, specSLC⟩,
  ⟨0x4000, 1, 0x2000, 0x2000, specIRQ⟩,
  ⟨0x6000, 1, 0x2000, 0x2000, specGPIO⟩,
  ⟨0x8000, 1, 0x1000, 0x1000, specPMX⟩,
  ⟨0x9000, 1, 0x1000, 0x1000, specBLT⟩,
  ⟨0xa000, 1, 0x1000, 0x1000, specMEM⟩,
  ⟨0xb000, 1, 0x1000, 0x1000, specHBM⟩,
  ⟨0xc000, 1, 0x2000, 0x2000, specDMA⟩,
  ⟨0xe000, 2, 0x1000, 0x1000, specPVWn⟩,
  ⟨0x10000, 4, 0x1000, 0x1000, specCPUn⟩,
  ⟨0x20000, 16, 0x1000, 0x1000, specCLVn⟩,
  ⟨0x30000, 16, 0x1000, 0x1000, specTMRn⟩,
  ⟨0x40000, 1, 0x40000, 0x40000, specHST⟩,
  ⟨0x80000, 1, 0x80000, 0x80000, specPLD⟩,
  ⟨0x100000, 1, 0x100000, 0x100000, specOBJ⟩,
  ⟨0x200000, 1, 0x10000, 0x10000, specENG⟩,
  ⟨0x300000, 17, 0x10000, 0x10000, specENGn_0 ++ specENGn_1 ++ specENGn_2⟩,
  ⟨0x500000, 1, 0x100000, 0x100000, specPLK⟩,
  ⟨0x600000, 24, 0x10000, 0x10000, specPLKn⟩,
  ⟨0x800000, 1, 0x40000, 0x40000, specAUD_0 ++ specAUD_1⟩]

/-- `r` has a register at offset `o` of its block. -/
def RegSpec.covers (r : RegSpec) (o : Nat) : Bool :=
  decide (r.off ≤ o) &&
  let d := o - r.off
  let d2 := d % r.s1
  decide (d / r.s1 < r.n1) && decide (d2 / r.s2 < r.n2) && decide (d2 % r.s2 = 0)

/-- `b` has offset `o` in one of its instances. -/
def Block.covers (b : Block) (o : Nat) : Bool :=
  decide (b.base ≤ o) && decide ((o - b.base) / b.stride < b.count) && decide ((o - b.base) % b.stride < b.span)

/-- The register at register-space offset `o`, if one is assigned there (R512, R14). -/
def specAt (o : Nat) : Option RegSpec :=
  match blocks.find? (fun b => b.covers o) with
  | none => none
  | some b => b.regs.find? (fun r => r.covers ((o - b.base) % b.stride))

end Sys2Proof.Machine
end

