-- ==== Sys2Proof/Machine/Tbl.lean ====
section
/-! DEFINITION. Sparse tables: lists of (key, value) with strictly rising keys. A table of words or bytes
lists no entry equal to what an unlisted key reads as, so equal contents are equal data. -/

namespace Sys2Proof.Machine

/-- A sparse table. -/
abbrev Tbl (α : Type) := List (Nat × α)

/-- The entry of key `k`, or `d` where none is listed. -/
def Tbl.get {α : Type} (d : α) : Tbl α → Nat → α
  | [], _ => d
  | (a, v) :: t, k => if a = k then v else Tbl.get d t k

/-- The entry of key `k`, if one is listed. -/
def Tbl.find {α : Type} : Tbl α → Nat → Option α
  | [], _ => none
  | (a, v) :: t, k => if a = k then some v else Tbl.find t k

/-- The table without an entry of key `k`. -/
def Tbl.del {α : Type} : Tbl α → Nat → Tbl α
  | [], _ => []
  | (a, v) :: t, k => if a = k then Tbl.del t k else (a, v) :: Tbl.del t k

/-- The table with `v` at key `k`, whatever `v` is. -/
def Tbl.put {α : Type} : Tbl α → Nat → α → Tbl α
  | [], k, v => [(k, v)]
  | (a, x) :: t, k, v =>
    if k < a then (k, v) :: (a, x) :: t
    else if a = k then (k, v) :: t
    else (a, x) :: Tbl.put t k v

/-- The table with `v` at key `k`; a value equal to the default `d` is not listed. -/
def Tbl.set {α : Type} [DecidableEq α] (d : α) (t : Tbl α) (k : Nat) (v : α) : Tbl α :=
  if v = d then t.del k else t.put k v

/-- The keys of the table are strictly rising. -/
def Tbl.rising {α : Type} : Tbl α → Bool
  | [] => true
  | [_] => true
  | (a, _) :: (b, y) :: t => decide (a < b) && Tbl.rising ((b, y) :: t)

/-- The canonical form: rising keys, no entry equal to the default. -/
def Tbl.wf {α : Type} [DecidableEq α] (d : α) (t : Tbl α) : Bool :=
  t.rising && t.all (fun e => decide (e.2 ≠ d))

end Sys2Proof.Machine
end

