-- ==== Sys2Proof/Machine/State.lean ====
section
/-! DEFINITION. The state of SK-7716 as plain data: every register by its offset, every memory, queue, counter and
internal mark the spec gives the block, and the queue of waiting commands. -/

namespace Sys2Proof.Machine

/-- A composed or substituted line of an engine (R44, R129): pixels are red << 24 | green << 12 | blue. -/
structure LineRec where
  k : Nat := 0
  pix : List Nat := []
  poisoned : Bool := false
  subst : Bool := false
  tDone : Nat := 0
  deriving DecidableEq, Repr

/-- A command of a line list, read and bound to its line and segment (R65). -/
inductive LlCmd where
  | wreg (off val : Nat)
  | wblk (off : Nat) (vals : List Nat)
  | pal (p first n addr : Nat)
  | scroll (t : Nat) (wx wy : Bool) (x y : Nat)
  | affine (t a b c d x0 y0 : Nat)
  | order (j : Nat)
  | snd (voice action preset : Nat)
  | sig (j : Nat)
  deriving DecidableEq, Repr

/-- What the walk over a line list keeps: line, words and WAITX on it, last x, SIG outputs named. -/
structure LlWalk where
  line : Option Nat := none
  words : Nat := 0
  waits : Nat := 0
  x : Nat := 0
  sigs : List Nat := []
  deriving DecidableEq, Repr

/-- A command bound to active line `k` from pixel `x` on (R67). -/
structure LlItem where
  k : Nat
  x : Nat
  cmd : LlCmd
  deriving DecidableEq, Repr

/-- The geometry of a bitmap plane, in force at pixel 0 of the line (R140). -/
structure BmpGeo where
  base : Nat
  pitch : Nat
  w : Nat
  h : Nat
  x : Int
  y : Int
  deriving DecidableEq, Repr

/-- What the per-line and per-column tables give one plane on the line (R88-R90). -/
structure LineTab where
  ldx : Nat := 0
  ldy : Nat := 0
  col : List Nat := []
  deriving DecidableEq, Repr

/-- A line whose composition has passed pixel 0 (R129): the next pixel, when pixel 0 could begin, the WAITX segments
not yet entered, the pixels so far (newest first), u and v of T0 and T1 at the next pixel, a fetch has failed, an affine
step of 2.0 or more was in force (R96), the ladder entry of the line's LEVEL, bitmap geometry and table entries of the
line, bitmap blocks fetched (2 * block + plane), and the journal mark at pixel 0. -/
structure CompS where
  x : Nat := 0
  t0 : Nat := 0
  segs : List Nat := []
  acc : List Nat := []
  uv : List (Nat × Nat) := []
  bad : Bool := false
  slow : Bool := false
  shed : Nat × Nat × Nat := (0, 0, 0)
  geo : List BmpGeo := []
  tabs : List LineTab := []
  bm : Tbl (List Byte) := []
  mark : Nat := 0
  deriving DecidableEq, Repr

/-- A band of a schedule (Band tables, R71). -/
structure Band where
  peak : Nat := 0
  cost : List Nat := []
  refs : List Nat := []
  deriving DecidableEq, Repr

/-- A checked schedule (R55): header fields, ladder entries (TILE_MASK, PLANE_MASK, OBJ_CLASS) and bands. -/
structure Sched where
  base : Nat := 0
  hActive : Nat := 0
  vActive : Nat := 0
  credits : Nat := 0
  margin : Nat := 0
  llOff : Nat := 0
  llSize : Nat := 0
  share : Nat := 0
  id : Nat := 0
  depth : Nat := 0
  ladder : List (Nat × Nat × Nat) := []
  bands : List Band := []
  deriving DecidableEq, Repr

/-- The internal state of one engine. -/
structure EngS where
  /-- line ticks seen since the tick that began the frame (R35) -/
  rline : Nat := 0
  /-- ECLK time of that tick -/
  tStart : Nat := 0
  /-- the engine outputs a frame in this frame (R157) -/
  live : Bool := false
  /-- next active line whose composition starts (R44) -/
  nextLine : Nat := 0
  /-- the line in composition and the time it started -/
  comp : Option LineRec := none
  compT : Nat := 0
  /-- its composition from pixel 0 on -/
  cmp : Option CompS := none
  /-- the line FIFO (R44): complete lines not yet output -/
  fifo : List LineRec := []
  /-- lines poisoned before composition or by a read error (R49, R70) -/
  poison : List Nat := []
  /-- memory faults that poisoned lines raise at their deadline, in place of DIKE: line, fault (R49) -/
  flts : List (Nat × Nat) := []
  /-- lines whose SND and SIG do not fire (R70) -/
  mute : List Nat := []
  substCnt : Nat := 0
  substFirst : Nat := 0
  /-- active lines output, and written to the frame store, in this frame (R36, R163) -/
  linesOut : Nat := 0
  linesStored : Nat := 0
  /-- smallest slack of this frame's completed lines, if there is one (R46) -/
  slackMin : Option Nat := none
  relaxRun : Nat := 0
  costOver : Nat := 0
  costLine : Nat := 0
  dikeRaised : Bool := false
  /-- the line-list sequencer (R64): bound commands, current line, segment, words on the line, end -/
  llItems : List LlItem := []
  llLine : Option Nat := none
  llX : Nat := 0
  llEnded : Bool := false
  /-- its next word, what it has passed on the line, words read by line, and whether what it read leaves the frame
  undefined (R69, R520) -/
  llPos : Nat := 0
  llWalk : LlWalk := {}
  llRead : Tbl Nat := []
  llWild : Bool := false
  ready : Option Sched := none
  active : Option Sched := none
  /-- COMMIT and DROP waiting for the tick (R58) -/
  commit : Bool := false
  drop : Bool := false
  /-- the base the check in progress reads (R58) -/
  checking : Option Nat := none
  tracking : Bool := false
  /-- palette RAM: entry 256 p + e, 48 bits (R85); the write hold and the read latch of PAL_DATA -/
  pal : Tbl Nat := []
  palHold : Nat := 0
  palLatch : Nat := 0
  /-- affine line-start accumulators of T0 and T1, 40 bits (R92), and axes to reload at the next line (R93) -/
  refU : Tbl Nat := []
  refV : Tbl Nat := []
  reloadU : List Nat := []
  reloadV : List Nat := []
  /-- cache invalidation: pending (R100, R126) and the journal mark up to which the caches are clean -/
  tcInv : Bool := false
  ocInv : Bool := false
  tcMark : Nat := 0
  ocMark : Nat := 0
  /-- what the caches have fetched since: 64-byte blocks by address -/
  tcBlk : Tbl (List Byte) := []
  ocBlk : Tbl (List Byte) := []
  /-- object unit (R121): next line to begin, line in work, lines done; the buffers by 2 k + plane:
  x to source value, format, palette, subpalette, priority packed (R118) -/
  objNext : Nat := 0
  objWork : Option Nat := none
  objBuf : Tbl (Tbl Nat) := []
  objDone : List Nat := []
  /-- when the object unit began its line, with which origin and ladder entry (R122, R124, R125); ECLK the composer
  waited for it in this frame -/
  objT : Nat := 0
  objOrg : Int × Int := (0, 0)
  objShed : Nat × Nat × Nat := (0, 0, 0)
  objWait : Nat := 0
  /-- FRONT of B0 and B1 at the tick that began the frame (R140), and FLIP_STALL raised for the request -/
  front : Nat := 0
  stallRaised : Nat := 0
  /-- the last deferral of each calls for FLIP_STALL (R145) -/
  stallDue : Nat := 0
  /-- LEVEL taken at pixel 0 of the line being composed (R146) -/
  lineLevel : Nat := 0
  /-- line signatures of the frame (R173); none: abandoned, poisoned or substituted -/
  sigs : Tbl (Option Nat) := []
  /-- the raster line output last: its active line, its pixels, whether it was filled, and what a preview of EW itself
  is filled with in its place (R178); it leaves a preview one raster line later (R177) -/
  outPrev : Option (Nat × List Nat × Bool × Option (List Nat)) := none
  deriving DecidableEq, Repr

/-- Tick generator and genlock (R20-R31, R518). -/
structure TickS where
  acc : Nat := 0
  /-- the cycle in which ENG_TICK_FRAC last changed, and acc before that cleared it (R18, R22) -/
  accOld : Option (Nat × Nat) := none
  /-- time of the next scheduled tick, of the last tick, and the number of the last tick of the sequence -/
  at_ : Option Nat := none
  last : Option Nat := none
  seq : Nat := 0
  frameCnt : Nat := 0
  /-- the cycle in which frameCnt was last incremented (R31) -/
  cntAt : Option Nat := none
  /-- FSYNC_IN after the synchroniser, the time its output changed, and the accepted level (R25) -/
  fsLevel : Bool := false
  fsChange : Nat := 0
  fsAccepted : Bool := false
  /-- changes inside the synchroniser: the cycle in which its output shows them, and the level -/
  fsPipe : List (Nat × Bool) := []
  /-- intervals, newest first, at most 8; the last accepted edge and its expected tick number (R27) -/
  hist : List Nat := []
  lastEdge : Option (Nat × Option Nat) := none
  /-- expected tick number for which an edge has been accepted -/
  takenFor : Option Nat := none
  phase : Int := 0
  edgeSince : Bool := false
  framesNoEdge : Nat := 0
  oneStep : Bool := false
  /-- steered MULT of each VPLL, where it differs from the written one (R40) -/
  steer : Tbl Nat := []
  deriving DecidableEq, Repr

/-- The object pool and its loader (R104-R111). -/
structure ObjS where
  /-- active and shadow copies by 8 i + w; pending descriptors -/
  act : Tbl Nat := []
  shadow : Tbl Nat := []
  pend : List Nat := []
  /-- the loader: source address of the next descriptor, next index, remaining -/
  src : Nat := 0
  idx : Nat := 0
  left : Nat := 0
  /-- when it started or wrote its last descriptor (R108) -/
  at_ : Nat := 0
  deriving DecidableEq, Repr

/-- A polder of the active bank (R166-R170). -/
structure PldState where
  crc : Nat := 0xFFFFFFFF
  rows : Nat := 0
  /-- unsent frames in STATIC, the one that begins counted (R169) -/
  unsent : Nat := 0
  /-- sends the frame in progress -/
  sending : Bool := true
  forceFull : Bool := false
  deriving DecidableEq, Repr

structure PldS where
  bank : Nat := 0
  refresh : Bool := false
  /-- the bank check of R158 reads as it stood at CHECK -/
  st : Tbl PldState := []
  deriving DecidableEq, Repr

/-- The warden (R171-R175). -/
structure WardS where
  last : Nat := 15
  /-- frames of the run with a mismatched line, and whether this frame has one -/
  run : Nat := 0
  frameMis : Bool := false
  confirmed : Bool := false
  takeover : Bool := false
  release : Bool := false
  /-- ticks in a row at which TARGET was RUNNING while served (R175) -/
  targetFrames : Nat := 0
  deriving DecidableEq, Repr

/-- A preview output (R176-R182). -/
structure PvwS where
  hpdLow : Option Nat := none
  trained : Bool := false
  retryAt : Option Nat := none
  /-- the AUX transaction under way: when it was started, its REQ -/
  auxAt : Nat := 0
  auxReq : Nat := 0
  idle : Bool := true
  deriving DecidableEq, Repr

/-- An entry of the HBM read-modify-write merge buffer (R274) or of an SRAM merge buffer (R269): the block or
word address, the bytes written, the requesters and the time of the last merge. -/
structure MergeE where
  addr : Nat
  /-- of an SRAM entry, its port: 1 for the fabric port of a core's SRAM, else 0 (R269, R327) -/
  port : Nat := 0
  bytes : Tbl Byte := []
  reqs : List Nat := []
  t : Nat := 0
  deriving DecidableEq, Repr

/-- A 64-bit word of an on-chip array without a system address (R267): entry `k` of the palettes of engine `n`, a pixel of line
`k` in its line FIFO, a pixel of its object line buffer `q`, a double word of an active descriptor, an entry of the LUTs of
port `p`. -/
inductive ArrWord where
  | pal (n k : Nat)
  | line (n k x : Nat)
  | obj (n q x : Nat)
  | desc (i w : Nat)
  | lut (p k : Nat)
  deriving DecidableEq, Repr

/-- A store-conditional that has succeeded (R341): its core, its CCLK cycle, its system address and port, the register that
shows the result, and the four bytes that it replaced. -/
structure ScRec where
  core : Nat
  cyc : Nat
  addr : Nat
  port : Nat
  rd : Nat
  old : List Byte
  deriving DecidableEq, Repr

/-- An entry of the memory error log (R280). -/
structure MemLog where
  typ : Nat
  addr : Nat
  req : Nat
  syms : Nat
  deriving DecidableEq, Repr

/-- The memory controller (R259-R281). -/
structure MemS where
  /-- wrong symbols of HBM blocks (36 symbols at 36 * block + symbol, as XOR) and of SRAM words (80-bit XOR,
  keyed by address of the word) -/
  hbmErr : Tbl Byte := []
  sramErr : Tbl Nat := []
  /-- wrong bits of words of the other on-chip arrays, likewise (R267) -/
  arrErr : List (ArrWord × Nat) := []
  rmw : List MergeE := []
  merge : List MergeE := []
  /-- corrected SRAM words waiting for their write-back (R268) -/
  fix : List Nat := []
  repair : List Nat := []
  log : List MemLog := []
  /-- the entry last dropped for want of room, when, and LOG_OVERFLOW before it (R280) -/
  logLost : Option (Nat × MemLog × Bool) := none
  /-- posted writes (requester, address, bytes) and BAR2 reads (window offset, length) that wait for the HBM, in the
  order of their arrival (R517) -/
  waitW : List ((Nat × Nat × List Byte) ⊕ (Nat × Nat)) := []
  /-- engine fetches that met an error and whose line is not yet known: engine, fault (R49) -/
  held : List (Nat × Nat) := []
  /-- MEM faults raised: source, class, frame, time (R279) -/
  raisedAt : List (Nat × Nat × Nat × Nat) := []
  winCnt : Nat := 0
  quiet : Nat := 0
  winStart : Nat := 0
  scrubAt : Nat := 0
  /-- bytes overwritten since the last frame tick: number, address, what a read found before (R100) -/
  journal : List (Nat × Nat × Byte) := []
  jseq : Nat := 0
  /-- core reservations: core to the address of the reserved 8-byte word (R341) -/
  resv : Tbl Nat := []
  /-- the last CCLK cycle in which the fabric wrote local SRAM, and the bytes it wrote then (R327) -/
  fabW : Nat × List Nat := (0, [])
  /-- the store-conditionals that succeeded in the last CCLK cycle with one (R341) -/
  sc : List ScRec := []
  /-- posted writes of cores refused after their acknowledgement: core, address (R270, R274) -/
  lateErr : List (Nat × Nat) := []
  deriving DecidableEq, Repr

/-- The Sluice (R362-R376). -/
structure SlcS where
  /-- active configuration by register offset, where it differs from reset (R365) -/
  act : Tbl Word := []
  snap : Tbl Word := []
  /-- level signals now high, by code (filtered pins) -/
  level : List Nat := []
  /-- cell outputs now (bit k), and as their consumers see them behind the glitch filters (R371) -/
  q : Nat := 0
  vis : Nat := 0
  /-- cells whose filter holds back a change, with the time it passes (R371) -/
  filt : Tbl Nat := []
  /-- pulses now high, with the time each falls (R362) -/
  high : Tbl Nat := []
  /-- channel outputs now -/
  ch : Nat := 0
  /-- pulses raised by the current command -/
  pulse : List Nat := []
  /-- task inputs with an event taken in: class, index, time; of each input, the last event that its block has taken -/
  due : List (Nat × Nat × Nat) := []
  took : List (Nat × Nat × Nat) := []
  deriving DecidableEq, Repr

/-- An entry of the fault log (R473). -/
structure FltLog where
  src : Nat
  level : Nat
  esc : Bool
  inst : Nat
  frame : Nat
  deriving DecidableEq, Repr

/-- What the fault controller held before the first fault or recovery of a cycle, the faults of the cycle so far, the
events of source 62 they gave, and whether the cycle recovered the device (R463, R469). -/
structure FltCyc where
  t : Nat
  /-- FLT_STATUS, FLT_CLASS, FLT_LOG_STATUS, FLT_RECOV -/
  stat : Nat
  cls : Nat
  logSt : Nat
  recov : Nat
  log : List FltLog
  lastT : Nat
  pulseEnd : Nat
  errLow : Bool
  recovered : Bool
  outFrozen : Bool
  set : List (Nat × Nat) := []
  irqs : Nat := 0
  rec_ : Bool := false
  deriving DecidableEq, Repr

/-- The fault controller (R461-R473). -/
structure FltS where
  log : List FltLog := []
  cyc : Option FltCyc := none
  /-- time of the last fault taken at DEGRADE or above (R469) -/
  lastT : Nat := 0
  pulseEnd : Nat := 0
  errLow : Bool := false
  /-- outputs take the last good frame, from the tick after the freeze (R466) -/
  outFrozen : Bool := false
  recovered : Bool := false
  measured : Bool := false
  hotArmed : Bool := true
  critArmed : Bool := true
  tempAt : Nat := 0
  deriving DecidableEq, Repr

/-- A Pelell cell without its hop sequence number and CRC (R191): header words 1-3 and the payload of 512 bytes
as one big-endian number. -/
structure Cell where
  typ : Nat := 0
  dir : Nat := 0
  mode : Nat := 0
  addr : Nat := 0
  w1 : Nat := 0
  w2 : Nat := 0
  w3 : Nat := 0
  pay : Nat := 0
  deriving DecidableEq, Repr

/-- A cell in a transmitter's queue (R200): the moment it arrived at the node or, for a TICK the Skokor makes,
the tick (R205); when it was queued; a control or own cell, a forwarded one, a pixel cell. -/
structure QCell where
  cell : Cell
  t0 : Nat := 0
  tq : Nat := 0
  ctl : Bool := false
  fwd : Bool := false
  /-- a NOTE that waits for nothing but the next cell boundary (R228) -/
  urg : Bool := false
  /-- of a pixel cell, its polder (R202) -/
  pol : Nat := 0
  /-- wrong bits of its words in the FIFO or the retry buffer, as 80-bit XOR patterns (R267) -/
  bad : Tbl Nat := []
  deriving DecidableEq, Repr

/-- A sent, unacknowledged cell (R197). -/
structure Held where
  seq : Nat
  q : QCell
  tSent : Nat
  deriving DecidableEq, Repr

/-- One end of a Pelell link: its transmitter and its receiver (R189-R201, R210). -/
structure LaneS where
  /-- lane state of a tile's link end, enabled from the tile's power-up (R189, log 72); for a Skokor port it stands in
  PLKn_LSTAT -/
  st : Nat := 1
  seen : Bool := false
  trainAt : Nat := 0
  /-- receiver: E, the NAK outstanding and when sent, cells accepted since the last ACK and when the ACK is due -/
  e : Nat := 0
  nakAt : Option Nat := none
  sinceAck : Nat := 0
  ackDue : Option Nat := none
  inRun : Bool := false
  /-- transmitter -/
  next : Nat := 0
  retry : List Held := []
  resend : List Nat := []
  nakFrom : Option (Nat × Nat) := none
  inRow : Nat := 0
  lcbs : List (Nat × Nat × Nat) := []
  queue : List QCell := []
  runCells : Nat := 0
  /-- STOP received last at; STOP sent last at -/
  stopAt : Option Nat := none
  stopSent : Option Nat := none
  /-- ECHO: next TAG, the outstanding request, samples of d newest first (units of 0.25 ns), the last request -/
  tag : Nat := 0
  echo : Option (Nat × Nat) := none
  samples : List Int := []
  echoAt : Nat := 0
  delay : Int := 0
  /-- bad cells since the last TELEM (tile side) -/
  bad : Nat := 0
  deriving DecidableEq, Repr

/-- A stream of a tile (R207): its key DX, DY, W_M1, H_M1, FMT and the cells accepted, by CELL. -/
structure StreamS where
  dx : Nat
  dy : Nat
  w : Nat
  h : Nat
  fmt : Nat
  cells : Tbl Nat := []
  deriving DecidableEq, Repr

/-- A tile (R192, R206, R207, R213, R219-R222, R229, R238). -/
structure TileS where
  addr : Nat := 0
  valid : Bool := false
  telemPeriod : Nat := 100
  tlock : Bool := false
  feed : Nat := 0
  p : Option Nat := none
  r : Option Nat := none
  streams : List StreamS := []
  /-- the scheduled presentation: time, BRIGHT, BLANK -/
  sched : Option (Nat × Nat × Bool) := none
  /-- streams of the frame that waits for presentation -/
  ready : List StreamS := []
  late : Nat := 0
  maxCorr : Nat := 0
  bright : Nat := 0
  blank : Bool := true
  shown : Tbl Nat := []
  readySent : Bool := false
  /-- an address was assigned and the buffers are not black yet (R223) -/
  blacken : Bool := false
  /-- RESTART has been sent since power-up or the loss of the address (R228) -/
  restartSent : Bool := false
  /-- without an address: the last TICK frame taken (R192, R206) -/
  acc : Option Nat := none
  telemCount : Nat := 0
  telemAt : Nat := 0
  streamDrop : Nat := 0
  deriving DecidableEq, Repr

/-- What the Skokor keeps of a tile beside PLK_TILE (R223-R232, R238, R239). -/
structure ChTile where
  keyhash : Nat := 0
  rxport : Nat := 0
  onward : Bool := false
  fmt36 : Bool := false
  known : Bool := false
  /-- the order in which its READY came (R232) -/
  ready : Nat := 0
  /-- authentication: step (0 none, 1 CHALLENGE sent, 2 verify of the signature, 3 GET_CERT, 4 verify of the
  tile certificate, 5 verify of the intermediate), NONCE, tries, time, TAG -/
  step : Nat := 0
  nonce : Nat := 0
  tries : Nat := 0
  sentAt : Nat := 0
  atag : Nat := 0
  pubkey : Nat := 0
  sig : Nat := 0
  /-- certificates: bytes received, total lengths, the one and the part asked for -/
  cert0 : List Byte := []
  cert1 : List Byte := []
  len0 : Nat := 0
  len1 : Nat := 0
  asked : Nat := 0
  part : Nat := 0
  /-- telemetry: the moment from which its age counts (R239) -/
  telemAt : Option Nat := none
  fresh : Bool := false
  staleRaised : Bool := false
  hot : Bool := false
  bright : Nat := 0
  lateBase : Nat := 0
  /-- joined: polders naming it are sent in full at the next tick (R227) -/
  joined : Bool := false
  /-- admitted by the wake rule; its re-challenge runs in the background (R456) -/
  background : Bool := false
  /-- restored by a wake and not yet matched (R456) -/
  woken : Bool := false
  patrolTries : Nat := 0
  deriving DecidableEq, Repr

/-- A polder being cut into cells by a port: bits gathered, their number, the next CELL, rows taken (R196). -/
structure Build where
  acc : Nat := 0
  len : Nat := 0
  cell : Nat := 0
  row : Nat := 0
  deriving DecidableEq, Repr

/-- A Pelell port of the Skokor beside its registers (R196, R202-R210, R223-R237). -/
structure PortS where
  /-- takes rows and TICKs in this frame; sends every polder of this frame in full -/
  rows : Bool := false
  full : Bool := false
  build : Tbl Build := []
  overrun : List Nat := []
  overrunRaised : Bool := false
  hwm : Nat := 0
  retx : Nat := 0
  lastTick : Nat := 0
  /-- the tick after which a STOPPING port ends (R203) -/
  stopTick : Option Nat := none
  /-- the moment an OFF port's lane ends its IDLE and powers down (R203) -/
  idleEnd : Option Nat := none
  /-- LUT: entry 4096 * bank + e, 48 bits; write hold, read latch (R148) -/
  lut : Tbl Nat := []
  /-- the cycle of the last LUT write, and what that cycle's writes replaced: a pixel of the cycle still uses it (R148) -/
  lutAt : Nat := 0
  lutOld : Tbl Nat := []
  lutHold : Nat := 0
  lutLatch : Nat := 0
  /-- accepted cells that the receive buffer of 128 holds (R201) -/
  rxBuf : Nat := 0
  /-- discovery: hop in work, step (1 DISC sent, 2 address written), tries, time, TAG, patrol hop and time -/
  hop : Nat := 0
  step : Nat := 0
  tries : Nat := 0
  sentAt : Nat := 0
  tag : Nat := 0
  onward : Bool := false
  patHop : Nat := 0
  patAt : Nat := 0
  /-- patrol DISCs not answered yet, oldest first: hop, tries, time -/
  patWait : List (Nat × Nat × Nat) := []
  /-- the TAG of the cascade's DISC -/
  dtag : Nat := 0
  /-- the ring's far-end test at hop 64 (R224) is under way -/
  farTest : Bool := false
  /-- ring (port A): open breaks with the time from which they count, the working split, SPLIT writes that wait for
  a tick or for the end of a break, with their times, closed breaks with the addresses still to confirm, and with the time from which they leave, frames above
  THRESH of A and B, frames to wait, ticks in a row at which the partner's TICK had come -/
  breaks : List (Nat × Nat) := []
  split : Nat := 64
  splitHeld : List (Nat × Nat) := []
  confirm : List (Nat × List Nat) := []
  closing : List (Nat × Nat) := []
  runA : Nat := 0
  runB : Nat := 0
  wait : Nat := 0
  gotTick : Bool := false
  tickRun : Nat := 0
  deriving DecidableEq, Repr

/-- A request in the verify queue (R418). -/
inductive VerJob where
  /-- tile `k`: the CHALLENGE signature, its certificate, or its intermediate certificate (R231, R428) -/
  | tile (k kind : Nat)
  /-- the OPEN of a mailbox slot (R431) -/
  | session (slot : Nat)
  /-- the header of image A or B (R426) -/
  | image (ix : Nat)
  deriving DecidableEq, Repr

/-- A request in the sign unit's queue (R417). -/
inductive SignJob where
  | ecdh (slot : Nat)
  | openRsp (slot : Nat)
  | attest (slot : Nat)
  deriving DecidableEq, Repr

/-- An OTP operation (R422-R425): the item (0-3 a slot's hash, 4 the revocation bits, 5 the counter), the value to
reach, and the mailbox slot that waits for it. -/
structure OtpOp where
  item : Nat
  val : Nat
  slot : Option Nat := none
  deriving DecidableEq, Repr

/-- An OPEN under way (R431, R432). -/
structure OpenOp where
  nonce : List Byte := []
  priv : Nat := 0
  keyIdx : Nat := 0
  epk : List Byte := []
  sid : Nat := 0
  eph : Nat := 0
  devEpk : List Byte := []
  z : List Byte := []
  /-- a close has been asked for: the session closes once its OPEN has been answered (R434, R435) -/
  shut : Bool := false
  deriving DecidableEq, Repr

/-- The security core (R417-R437). -/
structure SecS where
  /-- OTP (R420): DEVICE_ID, private key, public key, slot hashes, revocation bits, the counter's 64 bits -/
  devId : Nat := 0
  devPriv : Nat := 0
  devPub : Nat := 0
  otpHash : Tbl Nat := []
  revoked : Nat := 0
  counter : Nat := 0
  /-- OTP operations, the first in progress, and when its bit began (R424) -/
  ops : List OtpOp := []
  opT : Nat := 0
  /-- requests that wait for a verify unit; those in the two units, with the times at which they end (R418) -/
  verQ : List VerJob := []
  verRun : List (VerJob × Nat) := []
  /-- the sign unit: its request, when it ends, and the report it signs (R417, R437) -/
  signJob : Option SignJob := none
  signT : Nat := 0
  report : List Byte := []
  /-- the TRNG's health tests fail; the time of the next retest (R419) -/
  trngBad : Bool := false
  retestAt : Nat := 0
  /-- unused nonces, oldest first, with their times -/
  nonces : List (List Byte × Nat) := []
  opening : Option OpenOp := none
  /-- per session slot: K, and the time idle counts from; the session whose command executes; closes that wait -/
  keys : Tbl (List Byte) := []
  idleT : Tbl Nat := []
  busy : Option Nat := none
  closing : List Nat := []
  authFaultT : Option Nat := none
  /-- what the image's key sections hold (R427) -/
  enrolled : List (List Byte) := []
  anchors : List (List Byte) := []
  operators : List (List Byte × Nat) := []
  /-- M0-M3 (R436, R437), as big-endian numbers, and SECTIONS -/
  meas : Tbl Nat := []
  sections : Nat := 0
  /-- READY NOTEs taken so far (R232) -/
  readyCnt : Nat := 0
  deriving DecidableEq, Repr

/-- A BLT in execution (R253-R257): its queue and words, when it began, the rows completed, whether its watermark is still
owed, and whether a bus or uncorrectable error has stopped it. -/
structure BltRun where
  q : Nat
  words : List Nat
  t0 : Nat
  rows : Nat := 0
  wm : Bool
  err : Bool := false
  deriving DecidableEq, Repr

/-- The blitter (R240-R258): the fetched HEAD command of each queue, the command in execution, the queue served
last, the queues whose WAIT_TICK at HEAD has met its tick, and the start of each queue in STARTING. -/
structure BltS where
  head : Tbl (List Nat) := []
  ticked : List Nat := []
  startT : Tbl Nat := []
  run : Option BltRun := none
  served : Option Nat := none
  deriving DecidableEq, Repr

/-- A descriptor that passed its checks (R282). -/
structure DmaDesc where
  src : Nat := 0
  dst : Nat := 0
  sLen : Nat := 0
  sStride : Nat := 0
  sCnt : Nat := 0
  dLen : Nat := 0
  dStride : Nat := 0
  dCnt : Nat := 0
  sWrap : Nat := 0
  dWrap : Nat := 0
  flags : Nat := 0
  next : Nat := 0
  wb : Nat := 0
  deriving DecidableEq, Repr

/-- What a DMA channel does (R286): nothing; fetches a descriptor; waits for its trigger; moves data; has moved it
all; stands at an error; stands at an error of its write-back. -/
inductive DmaPhase where
  | idle | fetch | wait | move | moved | error | wbError
  deriving DecidableEq, Repr

/-- A DMA channel beside its registers: the descriptor in work, stream bytes written, the last stream bytes written as
(number, address, value before) (R284), and the bursts whose bytes a merge buffer may still hold: first stream byte, CRC
before it, destination, length (R291). -/
structure DmaS where
  phase : DmaPhase := .idle
  /-- the cycle in which a waiting descriptor begins, having found TRIG_PEND set in the one before (R287) -/
  trigAt : Option Nat := none
  desc : DmaDesc := {}
  pos : Nat := 0
  recent : List (Nat × Nat × Byte) := []
  bursts : List (Nat × Nat × Nat × Nat) := []
  deriving DecidableEq, Repr


/-- A register list in execution (R445): 1 CONFIG, 2 START, 3 RESIDENT; its bytes, the entry at hand, since when. -/
structure ListRun where
  which : Nat
  bytes : List Byte
  ix : Nat
  t : Nat
  deriving DecidableEq, Repr

/-- The wake record of the always-on domain (R453). -/
structure WakeRec where
  meas : Tbl Nat := []
  sections : Nat := 0
  signer : Nat := 0
  svn : Nat := 0
  frameCnt : Nat := 0
  hash : List Byte := []
  deriving DecidableEq, Repr

/-- Boot, Standby and the wake (R438-R459), and the flash (R438, R482). -/
structure BootS where
  /-- the flash, 0xFF where erased; S in MiB and the read mode found (R438, R439) -/
  flash : Tbl Byte := []
  size : Nat := 0
  mode : Nat := 0
  /-- when PORST_N was released; THERMTRIP_N is low (R502) -/
  start : Option Nat := none
  /-- the GPIO banks without supply (R490) -/
  unpow : List Nat := []
  /-- PORST_N is held low -/
  porst : Bool := false
  tripped : Bool := false
  /-- the time at which XSPI_RST_N rises, or has risen; none while PORST_N holds it low (R494) -/
  xspiRise : Option Nat := none
  /-- candidates whose signature is still being verified; those that passed every check (R439, R443) -/
  waiting : List Nat := []
  passed : List Nat := []
  /-- boot steps completed, as bits (R446); sections still to load as (step, entry) -/
  did : Nat := 0
  secs : List (Nat × Nat) := []
  list : Option ListRun := none
  /-- the RESIDENT list, once loaded -/
  resident : Option (List Byte) := none
  /-- step 8: 1 the START list has ended, 2 its first tick has come -/
  show_ : Nat := 0
  /-- the presentation that completes step 8 (R446) -/
  showAt : Option Nat := none
  /-- the wake area (R444): base, bytes of copies in it, and the copies as (TYPE, DEST, SIZE) -/
  wakeBase : Nat := 0
  wakeLen : Nat := 0
  wakeSecs : List (Nat × Nat × Nat) := []
  /-- the wake area's bytes (WAKE_SIZE), and what the Skokor knows to stand in it: what it found and what it has written -/
  wakeSize : Nat := 0
  wakeMem : List Host.Cell := []
  /-- Standby: 0 none, 1 requested, 2 entered at T, 3 cut off, 4 self-refresh, 5 reached, 6 waking -/
  sby : Nat := 0
  /-- T, the time of the first wake event, W -/
  sbyAt : Nat := 0
  wakeT : Option Nat := none
  wakeAt : Nat := 0
  /-- of the wake's steps: HBM, restore, ports (R455), those done -/
  wakeStep : Nat := 0
  /-- RUN = 1 was written during the wake (R457) -/
  runHeld : Bool := false
  rec_ : WakeRec := {}
  /-- events of wake sources since Standby was entered: source, time (R360) -/
  wakeDue : List (Nat × Nat) := []
  deriving DecidableEq, Repr

/-- An entry of a core's store buffer (R337): the core address, the system address where it maps, the bytes, and the
core cycle at which the entry is issued, once it is. -/
structure SbEntry where
  addr : Nat
  sys : Option Nat
  bytes : List Byte
  issued : Option Nat
  deriving DecidableEq, Repr

/-- A control core (R325-R351) beside its CPUn registers; its reservation stands in `MemS.resv`. -/
structure CoreS where
  /-- g1-g31 -/
  g : Tbl Word := []
  pc : Nat := 0
  /-- the words at PC, PC + 4 and PC + 8, already fetched (R333); none: outside the SRAM or uncorrectable -/
  pref : List (Option Nat) := []
  /-- system registers (R351) -/
  status : Nat := 0
  epc : Nat := 0
  cause : Nat := 0
  badaddr : Nat := 0
  vbase : Nat := 0
  scratch0 : Nat := 0
  scratch1 : Nat := 0
  win : Tbl Word := []
  cycHi : Nat := 0
  /-- the return stack, oldest first (R334) -/
  stack : List Nat := []
  sb : List SbEntry := []
  /-- the instruction that waits for memory or the store buffer, and since which CCLK cycle; its stores done -/
  waiting : Option (Nat × Nat) := none
  prog : Nat := 0
  /-- a split access stands between its parts (R335); the bytes a load has read so far -/
  between : Bool := false
  part : List Byte := []
  /-- stores whose bytes a merge buffer may still hold: system address, length, core address (R270, R345) -/
  sent : List (Nat × Nat × Nat) := []
  /-- a halt that falls due at the next boundary: 1 HALT, 2 the end of a STEP (R349) -/
  haltReq : Nat := 0
  /-- CCLK cycles since the model began: that at which the next instruction starts, that at which CYCLE was 0; CYCLE
  while halted -/
  next : Nat := 0
  base : Nat := 0
  held : Nat := 0
  deriving DecidableEq, Repr


/-- A pin (R377-R389): what drives the pad from outside, the last level driven on it, when the filter's hold or ignore
window ends, and the drive latched for HOLD in Standby. -/
structure PinS where
  ext : Option Bool := none
  keep : Bool := false
  busy : Option Nat := none
  latch : Option Bool := none
  /-- SMODE and SPULL as they were when the pin took its Standby state (R388) -/
  sby : Option (Nat × Nat) := none
  /-- the level of an audio output is shown up to this time (R380); the last event of its task input (R386) -/
  wave : Nat := 0
  taskT : Option Nat := none
  /-- a change of function: when the new one takes the pad, and the drive kept until then (R382) -/
  mux : Option (Nat × Option Bool) := none
  deriving DecidableEq, Repr

/-- A Clove engine (R390-R402) beside its registers. -/
structure CloveS where
  outv : Nat := 0
  /-- window pins whose drive the instruction in progress has changed (R391) -/
  own : Nat := 0
  tx : List Nat := []
  rx : List Nat := []
  acc : Nat := 0
  /-- the start and the end of the current engine cycle -/
  cycAt : Nat := 0
  cycEnd : Nat := 0
  /-- the instruction has begun; engine cycles left; this cycle is a stall; the pins read for a and b -/
  begun : Bool := false
  left : Nat := 0
  stalled : Bool := false
  pins : Nat := 0
  /-- the PCLK cycle of the last task-input event, and TRIG_PEND before it -/
  trig : Option (Nat × Bool) := none
  deriving DecidableEq, Repr

/-- A timer (R404-R415) beside its registers. -/
structure TimerS where
  count : Nat := 0
  period : Nat := 0xFFFFFFFFFFFFFFFF
  /-- CMP0-CMP3 in force, and pairs that wait for the period event -/
  cmp : Tbl Nat := []
  cmpBuf : Tbl Nat := []
  /-- held COUNT_LO; latches of COUNT, CAPR and CAPF; the captures -/
  countHold : Nat := 0
  countLatch : Nat := 0
  capr : Nat := 0
  capf : Nat := 0
  caprLatch : Nat := 0
  capfLatch : Nat := 0
  /-- the capture input as last seen; width counter and whether it is armed -/
  capLevel : Bool := false
  width : Nat := 0
  armed : Bool := false
  /-- the next count clock; what was left of the prescaler when it froze -/
  nextAt : Nat := 0
  frozen : Option Nat := none
  /-- the count clock wrapped; compare units that it matched -/
  wrapped : Bool := false
  hit : Nat := 0
  /-- the last count clock: its PCLK cycle, and the width counter before it -/
  clock : Option (Nat × Nat) := none
  /-- the end of STARTING or STOPPING; the PCLK cycle of the last stop of a one-shot -/
  moveAt : Nat := 0
  shot : Option Nat := none
  /-- the last captures: PCLK cycle, the value before, and whether the capture overran one unread, and set OVR -/
  capROld : Option (Nat × Nat × Bool × Bool) := none
  capFOld : Option (Nat × Nat × Bool × Bool) := none
  deriving DecidableEq, Repr



/-- A ramp (R298): from `g0` to `g1` over `n` samples, `k` of them done; it may step at boundaries from `start` on. -/
structure Ramp where
  g0 : Int := 0
  g1 : Int := 0
  n : Nat := 0
  k : Nat := 0
  start : Nat := 0
  deriving DecidableEq, Repr

/-- A tone channel beside its registers (R299, R300): phase, LFSR, operator phases, the last two outputs of operator
3, env, and the time from which a STARTING channel may run. -/
structure ToneS where
  phase : Nat := 0
  lfsr : Nat := 0x7FFFFF
  ops : List Nat := [0, 0, 0, 0]
  o3a : Int := 0
  o3b : Int := 0
  env : Ramp := {}
  start : Nat := 0
  deriving DecidableEq, Repr

/-- A voice beside its registers (R301-R304): pos, env, the time from which it may run, the preset it loads when it is
OFF, and the 32-byte blocks of samples it holds. -/
structure VoiceS where
  pos : Nat := 0
  env : Ramp := {}
  start : Nat := 0
  next : Option (List Byte) := none
  buf : Tbl (List Byte) := []
  deriving DecidableEq, Repr

/-- A send (R312, R313): the route in force, its fading legs (bus, gain), and its gain while it ramps. -/
structure SendS where
  bus : Nat := 0
  en : Bool := false
  fades : List (Nat × Ramp) := []
  gain : Option Ramp := none
  deriving DecidableEq, Repr

/-- A bus beside its registers (R315-R317): active coefficients by 5 k + i where they differ from reset, the state
x1, x2, y1, y2 of each band, bands to load and from when; the delay's next index, its tap in force, the fading one, and
a written DLY with its time; the last samples before the compressor, and its reduction in 2^-16 of 1/256 dB. -/
structure BusS where
  coef : Tbl Nat := []
  st : Tbl (Int × Int × Int × Int) := []
  apply : Nat := 0
  applyAt : Nat := 0
  dlyIx : Option Nat := none
  tap : Nat := 0
  fade : Option (Nat × Ramp) := none
  dlyNew : Option (Nat × Nat) := none
  la : List Int := []
  gr : Int := 0
  /-- the next read of the delay line's tap has failed (R278, R479) -/
  dlyBad : Bool := false
  deriving DecidableEq, Repr

/-- A slot of a TDM output port in a crossfade (R319): the bus in force, the one that fades out and the crossfade, and a
change held until the crossfade ends. -/
structure SlotS where
  bus : Nat
  fade : Option (Nat × Ramp) := none
  held : Option Nat := none
  deriving DecidableEq, Repr

/-- The frame a TDM output port sends (R320, R321): when it began and when the next boundary comes; bits of a slot, its slot
words; where FS is high, as its first bit relative to bit 0 of slot 0 and a length in bits; BCLK and FS inverted. -/
structure TdmFrame where
  t0 : Nat
  t1 : Nat
  width : Nat
  slots : List Nat
  fsAt : Int
  fsLen : Nat
  bclkInv : Bool
  fsInv : Bool
  deriving DecidableEq, Repr

/-- A TDM output port beside its registers (R319-R322): slots in a crossfade, samples since it began to start or stop, the
gain of its slots, the last slot values, newest first, and the frame at its pins. -/
structure OutS where
  slot : Tbl SlotS := []
  cnt : Nat := 0
  start : Nat := 0
  gain : Ramp := {}
  hist : List (List Int) := []
  cur : Option TdmFrame := none
  deriving DecidableEq, Repr

/-- A TDM input port beside its registers (R323): the last frames, newest first, the intervals in a row that have held its
rate and the ECLK they took, a move of more than 1,000 ppm, the ramp that follows the loss of lock, the gain of its
channels. -/
structure InS where
  frames : List (Nat × List Nat) := []
  ref : Nat := 0
  run : Nat := 0
  moved : Bool := false
  losing : Bool := false
  gain : Ramp := {}
  deriving DecidableEq, Repr

/-- A trigger that waits (R307, R308): the engine and active line it is bound to until its line tick (none: it has
arrived, at `t`), whether it is an SND; its voice, action, preset, and the preset once read; its preset could not be read. -/
structure TrigS where
  line : Option (Nat × Nat) := none
  snd : Bool := false
  t : Nat := 0
  voice : Nat := 0
  action : Nat := 0
  preset : Nat := 0
  data : Option (List Byte) := none
  readAt : Nat := 0
  failed : Bool := false
  deriving DecidableEq, Repr

/-- The sound unit (R293-R324). -/
structure AudS where
  /-- AUD_SPF was written since the last tick: the first and the last time -/
  spf : Option (Nat × Nat) := none
  /-- the frame: its tick, length, S_f, boundaries placed; ticks have begun; the last boundary -/
  tTick : Nat := 0
  len : Nat := 0
  placed : Nat := 0
  live : Bool := false
  last : Nat := 0
  /-- the last boundaries, newest first, which the input converters' latency counts (R323) -/
  marks : List Nat := []
  /-- AUD_SCNT and its latched high half -/
  scnt : Nat := 0
  scntHi : Nat := 0
  tone : Tbl ToneS := []
  voice : Tbl VoiceS := []
  /-- gains that ramp, by source number -/
  gains : Tbl Ramp := []
  /-- sends by 4 * source + k -/
  send : Tbl SendS := []
  bus : Tbl BusS := []
  out : Tbl OutS := []
  inp : Tbl InS := []
  trig : List TrigS := []
  /-- the freeze silences the slots (R467): the gain of all of them -/
  frz : Ramp := { g1 := 0x4000 }
  /-- faults of this frame: VOICE_UNDERRUN raised, buses whose BUS_CLIP was raised -/
  underrun : Bool := false
  clipped : List Nat := []
  deriving DecidableEq, Repr



/-- A completion queue beside its registers (R485-R487): the pass of its ring, uncovered entries, when the moderation
timer started, an interrupt held. -/
structure CqS where
  phase : Bool := true
  unc : Nat := 0
  timer : Option Nat := none
  held : Bool := false
  deriving DecidableEq, Repr

/-- Configuration space (R475): identity, BARs, the sizes in force, the error and PME status. Bus Master Enable, MSI-X Enable
and the power state stand in HST_LINK. What the spec gives no reset value for has PCI Express's (log 28). -/
structure CfgS where
  vendor : Nat := 0x1F6C
  device : Nat := 0x7716
  revision : Nat := 0xA1
  classCode : Nat := 0x048000
  subsystem : Nat := 0
  bar0 : Nat := 0
  bar2 : Nat := 0
  /-- the largest payload and read request in force, in bytes -/
  mps : Nat := 128
  mrrs : Nat := 512
  /-- AER: an Unsupported Request, a poisoned completion sent -/
  unsupported : Bool := false
  poisoned : Bool := false
  /-- PM capability: PME_Status -/
  pme : Bool := false
  deriving DecidableEq, Repr

/-- The host port beside its registers (R475-R487): mailbox words by 256 * slot + word, the MSI-X table by 4 * vector +
word and its pending bits, the function mask; queued slots in order, the slot in execution, whether it waits for the
firmware, slots whose completion entries wait; the slot of an accepted DEVICE_RESET, a reset that waits for the interrupt of its queue, and when it falls due. -/
structure HostS where
  mb : Tbl Word := []
  msix : Tbl Word := []
  pba : Tbl Bool := []
  fmask : Bool := false
  order : List Nat := []
  exec : Option Nat := none
  fw : Bool := false
  ents : List Nat := []
  cq : Tbl CqS := []
  resetSlot : Option Nat := none
  resetOn : Option Nat := none
  resetAt : Option Nat := none
  cfg : CfgS := {}
  deriving DecidableEq, Repr


/-- What leaves the part at its pins. -/
inductive Emit where
  /-- a posted write to host memory (R259, R479) -/
  | hostWrite (addr : Nat) (bytes : List Byte)
  /-- a read request of `n` bytes of host memory, behind the posted writes before it (R479) -/
  | hostRead (addr n : Nat)
  /-- an MSI-X message of a vector (R487) -/
  | msix (addr data : Nat)
  /-- a link control block at a link end: LTYPE, ARG, CHK (R184) -/
  | lcb (lane ltype arg chk : Nat)
  /-- a cell at a link end with its sequence number and CRC (R191, R194) -/
  | cell (lane seq : Nat) (c : Cell) (crc : Nat)
  /-- a row of preview `n`: crop row and its sent words, red << 20 | green << 10 | blue (R177, R180) -/
  | video (n row : Nat) (pix : List Nat)
  /-- preview `n` sends the idle pattern for a frame (R178, R179) -/
  | idlePattern (n : Nat)
  /-- the stream pixel clock in Hz that the main stream attributes of preview `n` carry for a frame (R177) -/
  | msa (n clk : Nat)
  /-- the timing of the stream of preview `n` for a frame, in its own pixels and lines (R177): HTOTAL, HSYNC, HBP and W of a
  line; sync lines, back-porch lines and active lines -/
  | timing (n htotal hsync hbp w vsync vbp h : Nat)
  /-- the front-porch lines with which the frame just ended of preview `n` closes (R177) -/
  | porch (n lines : Nat)
  /-- four bytes 0x00 fill the half block on which a run of an odd number of cells ends at a link end (R186) -/
  | fill (lane : Nat)
  /-- a DPCD write on preview `n` (R182) -/
  | dpcd (n addr value : Nat)
  /-- an AUX request of preview `n`: command, address, bytes (R176) -/
  | aux (n req addr len : Nat) (bytes : List Nat)
  /-- a frame of TDM output port `p` from time `t` on (R320-R322): the words of its slots, each of `width` bits sent from
  its highest on; where FS is high, as its first bit relative to bit 0 of slot 0 and a length in bits; whether BCLK and FS
  are inverted. Bit `b` stands at `t` + `b` / bits of the way to the next frame of the port. -/
  | tdm (p t width : Nat) (slots : List Nat) (fsAt : Int) (fsLen : Nat) (bclkInv fsInv : Bool)
  /-- a completion of a host read: 0 data, 1 poisoned data, 2 Unsupported Request (R477, R478) -/
  | completion (status : Nat) (bytes : List Byte)
  /-- a PME message (R487) -/
  | pme
  /-- XSPI_RST_N goes to a level at time `t` (R494) -/
  | xspiRst (high : Bool) (t : Nat)
  deriving DecidableEq, Repr

/-- Why a step stops: nothing in this hardware stops it; no command of the model ends in a fault. -/
inductive Fault where
  /-- never raised by a command of this block: an error of the hardware is an effect on its state (safe) -/
  | none
  deriving DecidableEq, Repr

/-- Why a command has no meaning. -/
inductive Refusal where
  /-- a command that the model does not give a meaning; raised by `exec`'s arms only (safe) -/
  | notModelled (mnemonic : String)
  deriving DecidableEq, Repr

/-- What has come about in one ECLK cycle (R18). It counts only while `t` is the cycle at hand. -/
structure CycS where
  t : Nat := 0
  /-- W1C flags that hardware set: register and bit -/
  set : List (Nat × Nat) := []
  /-- RC fields that hardware updated, by 32 * register + bit: the width, the value before, and the events since -/
  rc : Tbl (Nat × Nat × Nat) := []
  /-- registers with RWS fields that were written: their shadow words before -/
  rws : Tbl Word := []
  /-- descriptors that were written, with the eight words of a shadow that was pending before (R107) -/
  obj : List (Nat × Option (List Nat)) := []
  /-- requests that the tick of this cycle does not meet, and other arrivals: kind and number -/
  arr : List (Nat × Nat) := []
  /-- schedules that came to the SHARE test: engine, schedule, ERRLOC before (R61) -/
  shr : List (Nat × Sched × Nat) := []
  deriving DecidableEq, Repr

/-- The whole state. -/
structure State where
  /-- ECLK cycles since the model began (log 2) -/
  now : Nat := 0
  /-- populated HBM in GiB: 16 or 8 (R1, R3, log 5) -/
  gib : Nat := 16
  /-- registers by offset, where they differ from their reset value; active words of RWS registers (R32) -/
  regs : Tbl Word := []
  ovr : Tbl Word := []
  /-- stored bytes of the 40-bit system space (R259) -/
  mem : List Host.Cell := []
  /-- the model's own: free values used so far (log 8) -/
  freeCnt : Nat := 0
  /-- faults raised by the command at hand: SRC, INST -/
  raised : List (Nat × Nat) := []
  /-- what left the part, newest first -/
  sent : List Emit := []
  /-- the model's own: what the cycle at hand has seen (R18, log 1) -/
  cyc : CycS := {}
  tick : TickS := {}
  eng : Tbl EngS := []
  obj : ObjS := {}
  pld : PldS := {}
  ward : WardS := {}
  pvw : Tbl PvwS := []
  lane : Tbl LaneS := []
  port : Tbl PortS := []
  tile : Tbl TileS := []
  chain : Tbl ChTile := []
  sec : SecS := {}
  memc : MemS := {}
  slc : SlcS := {}
  flt : FltS := {}
  blt : BltS := {}
  dma : Tbl DmaS := []
  /-- the channel served last on each priority level (R288) -/
  dmaServed : Tbl Nat := []
  boot : BootS := {}
  cores : Tbl CoreS := []
  /-- the priority stacks of the interrupt controller, newest first (R355) -/
  irqStk : Tbl (List Nat) := []
  pin : Tbl PinS := []
  /-- function TICK_OUT is high until then (R379) -/
  tickOut : Option Nat := none
  clv : Tbl CloveS := []
  tmr : Tbl TimerS := []
  aud : AudS := {}
  hst : HostS := {}
  /-- the model's own: the word that the last register-read row returned to its requester -/
  rdata : Nat := 0
  pending : List Instr := []
  deriving DecidableEq, Repr

/-- The state right after PORST_N is released (R16). -/
def State.reset : State := {}

end Sys2Proof.Machine
end

