-- ==== Sys2Proof/Machine/Ops.lean ====
section
/-! DEFINITION. The named operations over the state that every family shares: registers and their fields
(R13-R18, R32), interrupt events (R352-R354), Sluice evaluation (R362-R371), raising and taking faults
(R461-R466), free values, time. -/

namespace Sys2Proof.Machine

/-- The fault sources of R461: number, class, severity after PORST_N. -/
def faultTable : List (Nat × Nat × Nat) :=
  [(0x01, 7, 1), (0x02, 7, 2), (0x08, 2, 0), (0x09, 2, 1), (0x0A, 2, 1), (0x0B, 2, 1), (0x0C, 2, 1), (0x0D, 2, 1),
   (0x0E, 2, 1), (0x0F, 2, 2), (0x10, 2, 0), (0x11, 2, 2), (0x12, 2, 2)] ++
  [(0x18, 1, 1), (0x19, 1, 1), (0x1A, 1, 1), (0x1B, 1, 0), (0x1C, 1, 1), (0x1D, 1, 1), (0x1E, 1, 0), (0x1F, 1, 0),
   (0x20, 0, 2), (0x21, 0, 2), (0x22, 0, 2), (0x23, 0, 1), (0x24, 0, 1), (0x25, 0, 0)] ++
  [(0x28, 3, 1), (0x29, 3, 0), (0x2A, 3, 0), (0x2B, 3, 1), (0x30, 4, 2), (0x31, 4, 2), (0x38, 5, 1), (0x39, 5, 1),
   (0x3A, 5, 0), (0x3B, 5, 1), (0x3C, 5, 2), (0x3D, 5, 1), (0x3E, 5, 1)] ++
  [(0x40, 6, 1), (0x41, 6, 1), (0x42, 6, 0), (0x43, 6, 1), (0x44, 6, 1), (0x45, 6, 1), (0x46, 6, 3)]

/-- The class and reset severity of a fault source, if it is not reserved. -/
def faultInfo (src : Nat) : Option (Nat × Nat) :=
  match faultTable.find? (fun e => e.1 == src) with
  | none => none
  | some e => some e.2

/-- The register-space offset is that of FLT_SRCs_CFG (R461), and its source. -/
def fltCfgSrc (o : Nat) : Option Nat :=
  if Nat.ble 0x2408 o && Nat.ble o 0x27F8 && o % 8 == 0 then some ((o - 0x2400) / 8) else none

/-- The reset value of the register at an offset (R16); 0 where none is assigned (R14). -/
def resetOf (gib o : Nat) : Nat :=
  match fltCfgSrc o with
  | some s => match faultInfo s with
    | some (_, sev) => 4 + sev
    | none => 0
  | none => if o == 0 then 0x7716A100 + gib else
    match specAt o with
    | some r => r.reset
    | none => 0

/-- The stored word of a register (R32: the shadow, where it has RWS fields). -/
def State.reg (s : State) (o : Nat) : Nat :=
  match Tbl.find s.regs o with
  | some w => w.toNat
  | none => resetOf s.gib o

/-- The state with the stored word of a register replaced. -/
def State.setReg (s : State) (o v : Nat) : State :=
  let w := w32 v
  { s with regs := if w.toNat = resetOf s.gib o then s.regs.del o else s.regs.put o w }

/-- A field of a register. -/
def State.rd (s : State) (f : Fld) : Nat := bitsOf (s.reg f.off) f.lo f.w

/-- A field of a register is not 0. -/
def State.on (s : State) (f : Fld) : Bool := s.rd f != 0

/-- The state with a field of a register replaced. -/
def State.wr (s : State) (f : Fld) (v : Nat) : State := s.setReg f.off (putBits (s.reg f.off) f.lo f.w v)

/-- The state with a one-bit field set or cleared. -/
def State.wrB (s : State) (f : Fld) (b : Bool) : State := s.wr f (if b then 1 else 0)

/-- The active word of a register (R32). -/
def State.actReg (s : State) (o : Nat) : Nat :=
  match Tbl.find s.ovr o with
  | some w => w.toNat
  | none => s.reg o

/-- The active value of an RWS field (R32). -/
def State.act (s : State) (f : Fld) : Nat := bitsOf (s.actReg f.off) f.lo f.w

/-- The active value of an RWS field is not 0. -/
def State.actOn (s : State) (f : Fld) : Bool := s.act f != 0

/-- The state with the active word of a register replaced, its shadow unchanged. -/
def State.setAct (s : State) (o v : Nat) : State :=
  { s with ovr := if (w32 v).toNat = s.reg o then s.ovr.del o else s.ovr.put o (w32 v) }

/-- The state with the active value of one field replaced. -/
def State.wrAct (s : State) (f : Fld) (v : Nat) : State :=
  s.setAct f.off (putBits (s.actReg f.off) f.lo f.w v)

/-! ### One cycle (R18) -/

/-- What the cycle at hand has seen so far. -/
def State.cycNow (s : State) : CycS := if s.cyc.t = s.now then s.cyc else { t := s.now }

/-- The state with the record of the cycle at hand changed by `f`. -/
def State.modCyc (s : State) (f : CycS → CycS) : State := { s with cyc := f s.cycNow }

/-- Something of a kind arrives in the cycle at hand: 0 COMMIT of engine `i`, 1 DROP of engine `i`, 2 a flip request
(2 n + b), 3 a WAIT_TICK at HEAD of queue `i`, 4 a signal of fence counter `i`, 5 a refusal in queue `i`, 6 a window write of
descriptor word `i`, 7 OBJ_CTRL.HOLD set by hardware, 8 a flip (2 n + b) that found FLIPPED clear, 9 a register write of
palette entry `i`, 10 a flip that found FLIPPED set, 11 ENABLE of voice `i` (384 + c: tone c) written 0 by hardware, 12 the
same of DMA channel `i`, 13 a task input connected to Sluice channel `i`, 14 a task action
on pin `i`, 15 a REQ of flip 2 n + b while one is pending, 16 a FLIP_STALL (2 n + b) that found STALL clear, 17 one that found
it set. -/
def State.arrive (s : State) (k i : Nat) : State := s.modCyc (fun c => { c with arr := (k, i) :: c.arr })

/-- An arrival of the cycle at hand is taken back. -/
def State.depart (s : State) (k i : Nat) : State := s.modCyc (fun c => { c with arr := c.arr.filter (fun e => e != (k, i)) })

/-- It has arrived in the cycle at hand. -/
def State.arrived (s : State) (k i : Nat) : Bool := s.cycNow.arr.contains (k, i)

/-- Ticks are being generated (R24). -/
def State.running (s : State) : Bool := s.on F.ENG_TICK_CTRL.RUN

/-- A counter field plus `n`, saturating at its largest value. -/
def State.incBy (s : State) (f : Fld) (n : Nat) : State := s.wr f (min (2 ^ f.w - 1) (s.rd f + n))

/-- A counter field plus 1, saturating. -/
def State.inc (s : State) (f : Fld) : State := s.incBy f 1

/-- A counter field plus 1, wrapping. -/
def State.incWrap (s : State) (f : Fld) : State := s.wr f (s.rd f + 1)

/-- A W1C bit is set by hardware: a write of 1 to it in the same cycle does not clear it (R18). -/
def State.hwSet (s : State) (f : Fld) : State :=
  (s.wr f 1).modCyc (fun c => { c with set := (f.off, f.lo) :: c.set })

/-- One bit of a W1C field is set by hardware (R18). -/
def State.hwSetBit (s : State) (f : Fld) (i : Nat) : State :=
  (s.setReg f.off (s.reg f.off ||| 2 ^ (f.lo + i))).modCyc (fun c => { c with set := (f.off, f.lo + i) :: c.set })

/-- Hardware counts `n` events in an RC field (R17, R18). -/
def State.incRcBy (s : State) (f : Fld) (n : Nat) : State :=
  let k := 32 * f.off + f.lo
  let old := s.rd f
  (s.incBy f n).modCyc (fun c =>
    let e := Tbl.get (f.w, old, 0) c.rc k
    { c with rc := c.rc.put k (f.w, e.2.1, e.2.2 + n) })

/-- Hardware counts an event in an RC field. -/
def State.incRc (s : State) (f : Fld) : State := s.incRcBy f 1

/-- One event of interrupt source `n` (R352, R353). Sources above 338 are never pending. From the entry into Standby
to the end of the wake, events of sources 163-322 also reach the wake watcher; in Standby and during the wake, while the
controller is powered down or holds its reset values, no event reaches a COUNT (R360, R361). -/
def State.irq (s : State) (n : Nat) : State :=
  let s := if 2 ≤ s.boot.sby ∧ 163 ≤ n ∧ n ≤ 322
    then { s with boot := { s.boot with wakeDue := s.boot.wakeDue ++ [(n, s.now)] } } else s
  if 1 ≤ n ∧ n ≤ 338 ∧ s.boot.sby < 5 then s.incRc (F.IRQ_SRCs.COUNT n) else s

/-- A W1C flag is set by hardware, which is an event of its interrupt source (R352). -/
def State.flag (s : State) (f : Fld) (src : Nat) : State := (s.hwSet f).irq src

/-- The events that a counter has counted in the cycle at hand. -/
def State.evNow (s : State) (f : Fld) : Nat :=
  match Tbl.find s.cycNow.rc (32 * f.off + f.lo) with
  | some (_, _, ev) => ev
  | none => 0

/-- A counter that has counted in the cycle at hand holds its earlier value `old` and `ev` events of the cycle. -/
def State.rcPut (s : State) (f : Fld) (old ev : Nat) : State :=
  (s.wr f (min (2 ^ f.w - 1) (old + ev))).modCyc (fun c => { c with rc := c.rc.put (32 * f.off + f.lo) (f.w, old, ev) })

/-- `n` events of a counter in the cycle at hand are taken back: another request of the same cycle settles it so. What the
counter holds follows from its value before the cycle, so a saturated one stays right. -/
def State.rcBack (s : State) (f : Fld) (n : Nat) : State :=
  match Tbl.find s.cycNow.rc (32 * f.off + f.lo) with
  | some (_, old, ev) => s.rcPut f old (ev - n)
  | none => s

/-- A counter is cleared: the events of the cycle at hand stay counted (R18, R355, R359). -/
def State.rcClear (s : State) (f : Fld) : State :=
  match Tbl.find s.cycNow.rc (32 * f.off + f.lo) with
  | some (_, _, ev) => s.rcPut f 0 ev
  | none => s.wr f 0

/-- `n` events of interrupt source `src` in the cycle at hand are taken back. -/
def State.irqBack (s : State) (src n : Nat) : State := s.rcBack (F.IRQ_SRCs.COUNT src) n

/-- A setting of a W1C flag is taken back, with its event; the flag stays where it was set before. -/
def State.flagBack (s : State) (f : Fld) (src : Nat) (was : Bool) : State :=
  let s := s.irqBack src 1
  if was then s
  else (s.wr f 0).modCyc (fun y => { y with set := y.set.filter (fun e => e != (f.off, f.lo)) })

/-- The bits of register `o` that hardware set in this cycle. -/
def State.setNow (s : State) (o : Nat) : Nat :=
  (s.cycNow.set.filter (fun e => e.1 == o)).foldl (fun a e => a ||| 2 ^ e.2) 0

/-- A written 1 clears a W1C bit that hardware does not set in the same cycle (R17, R18). -/
def State.w1c (s : State) (f : Fld) (one : Bool) : State :=
  if one && !(s.setNow f.off).testBit f.lo then s.wr f 0 else s

/-- A fault is raised in this cycle (R461); it is taken when the command ends (R463). -/
def State.fault (s : State) (src inst : Nat) : State := { s with raised := (src, inst) :: s.raised }

/-- A producer emits a Sluice pulse in this cycle (R362). -/
def State.pulse (s : State) (code : Nat) : State :=
  { s with slc := { s.slc with pulse := code :: s.slc.pulse } }

/-- Something leaves the part. -/
def State.emit (s : State) (e : Emit) : State := { s with sent := e :: s.sent }

/-- The clock stands at least at `t`: the event at hand is due then (log 2). -/
def State.reach (s : State) (t : Nat) : State := { s with now := max s.now t }

/-- The next free value and the state that has used it up (log 8). -/
def State.free (s : State) : Nat × State := (Config.freeNat s.freeCnt, { s with freeCnt := s.freeCnt + 1 })

/-- A register read returns its value to the requester. -/
def State.answer (r : Nat × State) : State := { r.2 with rdata := r.1 }

/-- ECLK cycles in a millisecond and in a microsecond (R10). -/
def msT : Nat := 600000
def usT : Nat := 600

/-- The CCLK cycle that has begun at ECLK time `t`, and the ECLK time at which cycle `g` has begun: CCLK runs at 500 MHz,
ECLK at 600 MHz (R497). -/
def cclkAt (t : Nat) : Nat := 5 * t / 6
def eclkOf (g : Nat) : Nat := (6 * g + 4) / 5

/-! ### The steps of the boot (R446) -/

/-- PHASE of a boot whose completed steps are the bits of `did`: the lowest step not complete, or RUN. -/
def bootPhase (did : Nat) : Nat := ((List.range 10).find? (fun k => decide (0 < k) && !did.testBit k)).getD 10

/-- Boot step `k` completes at time `t`: BOOT_TIMEk is recorded and PHASE moves on, unless the boot has halted. -/
def State.bootMark (s : State) (k t : Nat) : State :=
  if s.boot.did.testBit k then s
  else
    let s := { s with boot := { s.boot with did := setBit1 s.boot.did k } }
    let s := s.wr (F.BOOT_TIMEk.US (k - 1)) ((t - s.boot.start.getD 0) / usT)
    if s.rd F.BOOT_STATUS.PHASE < 10 then s.wr F.BOOT_STATUS.PHASE (bootPhase s.boot.did) else s
where
  /-- `x` with bit `k` set. -/
  setBit1 (x k : Nat) : Nat := if x.testBit k then x else x + 2 ^ k

/-- Boot step 8 is complete once its frame has been presented (R446). -/
def State.showDue (s : State) : State :=
  match s.boot.showAt with
  | none => s
  | some t => if t ≤ s.now then ({ s with boot := { s.boot with showAt := none } }).bootMark 8 t else s

/-- Every enabled port's lane is UP (step 4); every one's cascade has ended (step 5); no tile waits for its
authentication (step 6). -/
def State.portsUp (s : State) : Bool :=
  (List.range 24).all (fun p => s.rd (F.PLKn_CTRL.STATE p) == 0 || s.rd (F.PLKn_LSTAT.LSTATE p) == 3)
def State.portsFound (s : State) : Bool :=
  (List.range 24).all (fun p => s.rd (F.PLKn_CTRL.STATE p) == 0 || s.rd (F.PLKn_CSTAT.DSTATE p) == 2)
def State.tilesProved (s : State) : Bool :=
  (List.range 1536).all (fun k => s.rd (F.PLK_TILE0.TSTATE k) != 1 && s.rd (F.PLK_TILE0.TSTATE k) != 2)

/-- Steps 4 to 6 complete, in order, once step 3 has and their conditions hold (R446). -/
def State.bootSteps (s : State) : State :=
  if !s.boot.did.testBit 3 || s.boot.did.testBit 6 || s.rd F.BOOT_STATUS.PHASE == 11 then s
  else
    let s := if s.portsUp then s.bootMark 4 s.now else s
    let s := if s.boot.did.testBit 4 && s.portsFound then s.bootMark 5 s.now else s
    if s.boot.did.testBit 5 && s.tilesProved then s.bootMark 6 s.now else s

/-- Written ones clear bits of a W1C field that hardware does not set in the same cycle. -/
def State.w1cBits (s : State) (f : Fld) (m : Nat) : State :=
  s.wr f (s.rd f &&& (2 ^ f.w - 1 ^^^ (m % 2 ^ f.w &&& (2 ^ f.w - 1 ^^^ bitsOf (s.setNow f.off) f.lo f.w))))

/-! ### Register writes by access code (R17) -/

/-- The lock bit that governs RWL fields of a block is set (R17, R19, R281). -/
def State.locked (s : State) (o : Nat) : Bool :=
  if Nat.ble 0xA000 o && Nat.blt o 0xB000 then s.on F.MEM_CTRL.LOCK else false

/-- Register `o`, whose shadow word was `old`, is written in the cycle at hand: a tick of this cycle still loads `old`
(R18). -/
def State.rwsNote (s : State) (o old : Nat) : State :=
  s.modCyc (fun c => { c with rws := if (Tbl.find c.rws o).isSome then c.rws else c.rws.put o (w32 old) })

/-- The word of register `o` in the cycle before the one at hand, where writes of it are noted. -/
def State.wordBefore (s : State) (o : Nat) : Nat :=
  match Tbl.find s.cycNow.rws o with
  | some w => w.toNat
  | none => s.reg o

/-- AFFINE exists on T0 and T1 only: on T2-T7 a write of the bit is ignored (R91). -/
def writable (o v : Nat) : Nat :=
  let r := o % 0x10000
  if Nat.ble 0x300000 o && Nat.blt o 0x410000 && Nat.ble 0x1100 r && Nat.blt r 0x1400 && r % 0x80 == 0 && v.testBit 4
  then v - 16 else v

/-- A write of `v` to the register at `o` by the access codes of R17 and the commit rules of R24 and R32. -/
def State.writeByCode (s : State) (o v : Nat) : State :=
  match specAt o with
  | none => s
  | some r =>
    let v := writable o v
    let old := s.reg o
    let oldAct := s.actReg o
    let m := r.rw ||| r.rws ||| (if s.locked o then 0 else r.rwl)
    let a := (old &&& (0xFFFFFFFF ^^^ m)) ||| (v &&& m)
    let a := a &&& (0xFFFFFFFF ^^^ (v &&& r.w1c &&& (0xFFFFFFFF ^^^ s.setNow o)))
    let a := a ||| (v &&& r.w1s)
    let s1 := s.setReg o a
    if r.rws = 0 then s1
    else if s.running then
      (s1.rwsNote o old).setAct o ((a &&& (0xFFFFFFFF ^^^ r.rws)) ||| (oldAct &&& r.rws))
    else { s1 with ovr := s1.ovr.del o }

/-- A line-list write (R33): an RWS field takes the value in its active copy only, an RW field changes. -/
def State.writeByList (s : State) (o v : Nat) : State :=
  match specAt o with
  | none => s
  | some r =>
    let v := writable o v
    let oldAct := s.actReg o
    let a := (s.reg o &&& (0xFFFFFFFF ^^^ r.rw)) ||| (v &&& r.rw)
    let s1 := s.setReg o a
    if r.rws = 0 then s1
    else s1.setAct o ((oldAct &&& (0xFFFFFFFF ^^^ (r.rws ||| r.rw))) ||| (v &&& (r.rws ||| r.rw)))

/-! ### The Sluice -/

/-- The active word of a Sluice register (R365). -/
def State.slcAct (s : State) (o : Nat) : Nat :=
  match Tbl.find s.slc.act o with
  | some w => w.toNat
  | none => 0

/-- A field of an active Sluice register. -/
def State.slcRd (s : State) (f : Fld) : Nat := bitsOf (s.slcAct f.off) f.lo f.w

/-- The level of signal `code` (R363) given the pulses that are high and the cell outputs that consumers see. -/
def sigLevel (level pulses : List Nat) (q code : Nat) : Bool :=
  if Nat.ble 0x160 code && Nat.blt code 0x180 then q.testBit (code - 0x160)
  else if Nat.ble 0x1A0 code && Nat.blt code 0x200 then level.contains code
  else pulses.contains code

/-- The active settings of one cell, read once: IN0-IN3, TT, REG, CLK, FILT. -/
structure CellCfg where
  k : Nat
  in0 : Nat
  in1 : Nat
  in2 : Nat
  in3 : Nat
  tt : Nat
  reg : Bool
  clk : Bool
  filt : Bool
  deriving DecidableEq, Repr

/-- The settings of cell `k` in the active configuration. -/
def State.cellCfg (s : State) (k : Nat) : CellCfg :=
  { k := k
    in0 := s.slcRd (F.SLC_CELLk_IN01.IN0 k), in1 := s.slcRd (F.SLC_CELLk_IN01.IN1 k)
    in2 := s.slcRd (F.SLC_CELLk_IN23.IN2 k), in3 := s.slcRd (F.SLC_CELLk_IN23.IN3 k)
    tt := s.slcRd (F.SLC_CELLk_CFG.TT k)
    reg := s.slcRd (F.SLC_CELLk_CFG.REG k) != 0, clk := s.slcRd (F.SLC_CELLk_CFG.CLK k) != 0
    filt := s.slcRd (F.SLC_CELLk_CFG.FILT k) != 0 }

/-- Bit of a Bool. -/
def b2n (b : Bool) : Nat := if b then 1 else 0

/-- The LUT output of a cell (R369); with CLK = 1 a registered cell's IN3 enters as 0 (R370). -/
def cellLut (c : CellCfg) (level pulses : List Nat) (q : Nat) : Bool :=
  let g := fun code => b2n (sigLevel level pulses q code)
  let i3 := if c.reg && c.clk then 0 else g c.in3
  c.tt.testBit (8 * i3 + 4 * g c.in2 + 2 * g c.in1 + g c.in0)

/-- `q` with bit `k` set to `b`. -/
def setBitN (q k : Nat) (b : Bool) : Nat :=
  if q.testBit k == b then q else if b then q + 2 ^ k else q - 2 ^ k

/-- What consumers see of the cell outputs `q`, where the filters show `vis` (R371). -/
def cellShow (cs : List CellCfg) (q vis : Nat) : Nat :=
  cs.foldl (fun a c => if c.filt then a else setBitN a c.k (q.testBit c.k)) vis

/-- The unregistered cells brought to rest, at most one round per cell (the commit check refuses loops, R372), while the
filters show `vis`. -/
def combFix (cs : List CellCfg) (level pulses : List Nat) (vis : Nat) : Nat → Nat → Nat
  | 0, q => q
  | n + 1, q =>
    let v := cellShow cs q vis
    let q' := cs.foldl (fun a c => if c.reg then a else setBitN a c.k (cellLut c level pulses v)) q
    if q' = q then q else combFix cs level pulses vis n q'

/-- The network brought to rest. It stood at levels `l0`, pulses `p0` and visible outputs `v0`; now levels `l1` and
pulses `p1` hold, the filters show `vis`, and the outputs have become `q`. Cells clocked by a rising IN3 load the value
from before the edge (R370), which may clock others. -/
def netFix (cs : List CellCfg) (l1 p1 : List Nat) (vis : Nat) : Nat → List Nat → List Nat → Nat → Nat → Nat
  | 0, _, _, _, q => combFix cs l1 p1 vis 33 q
  | n + 1, l0, p0, v0, q =>
    let q1 := combFix cs l1 p1 vis 33 q
    let v1 := cellShow cs q1 vis
    let q2 := cs.foldl (fun a c =>
      if c.reg && c.clk && !(sigLevel l0 p0 v0 c.in3) && sigLevel l1 p1 v1 c.in3
      then setBitN a c.k (cellLut c l0 p0 v0) else a) q1
    if q2 = q1 then q1 else netFix cs l1 p1 vis n l1 p1 v1 q2

/-- The filters that hold a change back once the outputs are `q`, of which consumers see `vis`: one that already did goes
on, one whose output has gone back forgets its change (R371). A change passes 3 ns after it, shown at the second ECLK. -/
def filtNext (cs : List CellCfg) (q vis t : Nat) (old : Tbl Nat) : Tbl Nat :=
  cs.filterMap (fun c =>
    if c.filt && (q.testBit c.k != vis.testBit c.k) then some (c.k, (Tbl.find old c.k).getD (t + 2)) else none)

/-- The output of channel `n` (R364). -/
def State.chOut (s : State) (n : Nat) (level pulses : List Nat) (q : Nat) : Bool :=
  let w := s.slcAct (R.SLC_CHn_CFG n)
  if w = 0 then false
  else sigLevel level pulses q (bitsOf w 0 9) &&
    (bitsOf w 15 1 == 0 || (sigLevel level pulses q (bitsOf w 16 9) != (bitsOf w 25 1 == 1)))

/-- The synchronisation window in which ECLK time `t` falls: an ECLK for DMA inputs, a PCLK for the others (R368), which in
Standby is one FCLK cycle of the GPIO block (R387). -/
def State.taskWindow (s : State) (cls t : Nat) : Nat := if cls = 1 then t else if s.boot.sby = 5 then t / 12 else t / 3

/-- An event on channel `n` reaches its one consumer (R366-R368) at time `t`. In Standby one aimed at a block without power is
lost (R376). -/
def State.deliver (s : State) (n t : Nat) : State :=
  let cls := s.rd (F.SLC_CHn_STAT.CLASS n)
  let ix := s.rd (F.SLC_CHn_STAT.INDEX n)
  if cls = 0 then s.irq (259 + n)
  else if s.boot.sby = 5 ∧ cls ≠ 4 then s
  else if (s.slc.due ++ s.slc.took).any (fun e => e.1 == cls && e.2.1 == ix && s.taskWindow cls e.2.2 == s.taskWindow cls t)
  then s.hwSet (F.SLC_CHn_STAT.COLLIDE n)
  else { s with slc := { s.slc with due := s.slc.due ++ [(cls, ix, t)] } }

/-- The cells of the active configuration. -/
def State.slcCells (s : State) : List CellCfg := (List.range 32).map s.cellCfg

/-- The pulses now high. -/
def State.slcHigh (s : State) : List Nat := s.slc.high.map (fun e => e.1)

/-- At time `t` the fabric comes to rest with its levels and pulses as they are now, cell outputs `q` and filters that show
`vis`; before, it stood at levels `l0`, pulses `p0` and visible outputs `v0`. Rising channel outputs are delivered. -/
def State.slcTo (s : State) (l0 p0 : List Nat) (v0 q vis t : Nat) : State :=
  let cs := s.slcCells
  let q1 := netFix cs s.slc.level s.slcHigh vis 33 l0 p0 v0 q
  let v1 := cellShow cs q1 vis
  let l1 := s.slc.level
  let p1 := s.slcHigh
  (List.range 64).foldl (fun a n =>
    let o := a.chOut n l1 p1 v1
    let was := a.slc.ch.testBit n
    let a := { a with slc := { a.slc with ch := setBitN a.slc.ch n o } }
    if o && !was then a.deliver n t else a)
    { s with slc := { s.slc with q := q1, vis := v1, filt := filtNext cs q1 v1 t s.slc.filt } }

/-- The next time at which a pulse falls or a filtered change passes. -/
def State.slcNext (s : State) : Option Nat := ((s.slc.high ++ s.slc.filt).map (fun e => e.2)).min?

/-- Pulses that end by `t` fall, and filtered changes due by `t` pass. -/
def State.slcAt (s : State) (t : Nat) : State :=
  let pass := s.slc.filt.filter (fun e => decide (e.2 ≤ t))
  let vis := pass.foldl (fun v e => setBitN v e.1 (s.slc.q.testBit e.1)) s.slc.vis
  { s with slc := { s.slc with high := s.slc.high.filter (fun e => decide (t < e.2))
                               filt := s.slc.filt.filter (fun e => decide (t < e.2)) } }.slcTo
    s.slc.level s.slcHigh s.slc.vis s.slc.q vis t

/-- What is due in the fabric up to `t` happens, in order; `n` bounds the instants. -/
def State.slcLoop (t : Nat) : Nat → State → State
  | 0, s => s
  | n + 1, s => match s.slcNext with
    | none => s
    | some u => if u ≤ t then State.slcLoop t n (s.slcAt u) else s

/-- The fabric at time `t`. -/
def State.slcUpTo (s : State) (t : Nat) : State :=
  match s.slcNext with
  | none => s
  | some u => s.slcLoop t (t + 1 - u)

/-- The fabric follows the clock and the pulses of the current command, which rise together (R362); a pulse of a signal
still high lengthens it. -/
def State.slcRun (s : State) : State :=
  let p := s.slc.pulse
  let s := { s with slc := { s.slc with pulse := [] } }
  if s.slc.act = [] then s
  else
    let s := s.slcUpTo s.now
    if p = [] then s
    else
      let high := p.foldl (fun h c => Tbl.put h c (s.now + 6)) s.slc.high
      { s with slc := { s.slc with high := high } }.slcTo s.slc.level s.slcHigh s.slc.vis s.slc.q s.slc.vis s.now

/-- A level signal changes (R362). -/
def State.slcLevel (s : State) (code : Nat) (b : Bool) : State :=
  let s := s.slcUpTo s.now
  let l0 := s.slc.level
  let l1 := if b then (if l0.contains code then l0 else code :: l0) else l0.filter (· != code)
  { s with slc := { s.slc with level := l1 } }.slcTo l0 s.slcHigh s.slc.vis s.slc.q s.slc.vis s.now

/-! ### Faults -/

/-- The effective level of a fault of severity `sev` in a class with pending mark, level and cap (R462). -/
def effLevel (pend : Bool) (lvl cap sev : Nat) : Nat :=
  if pend then max sev (min (max sev lvl + 1) cap) else sev

/-- One entry is added to the fault log, or dropped when 32 are held (R473). -/
def State.fltLogAdd (s : State) (e : FltLog) : State :=
  if s.flt.log.length < 32 then
    ({ s with flt := { s.flt with log := s.flt.log ++ [e] } }).wr F.FLT_LOG_STATUS.COUNT (s.flt.log.length + 1)
  else s.hwSet F.FLT_LOG_STATUS.OVERFLOW

/-- An ERR_N pulse starts or restarts (R465). -/
def State.errPulse (s : State) : State :=
  let w := clampN 1 1000 (s.rd F.FLT_PIN.MINW)
  ({ s with flt := { s.flt with pulseEnd := s.now + w * usT, errLow := true } }).wr F.FLT_STATUS.PULSING 1

/-- DEGRADED or FROZEN is entered and the quiet timer restarts (R464, R466). -/
def State.enterLevel (s : State) (e : Nat) : State :=
  if e < 2 then s
  else
    let st := s.rd F.FLT_STATUS.STATE
    let s := { s with flt := { s.flt with lastT := s.now } }
    if e = 3 then (if st = 2 then s else s.wr F.FLT_STATUS.STATE 2)
    else if st = 2 then s else s.wr F.FLT_STATUS.STATE 1

/-- A raised fault is counted, whether its source acts or not (R462). -/
def State.countFault (s : State) (f : Nat × Nat) : State :=
  if (faultInfo f.1).isSome then s.incRc (F.FLT_SRCs_CNT.COUNT f.1) else s

/-- A raised fault is taken (R462-R466, R473). -/
def State.takeFault (s : State) (f : Nat × Nat) : State :=
  match faultInfo f.1 with
  | none => s
  | some (cls, _) =>
    if !s.on (F.FLT_SRCs_CFG.EN f.1) then s
    else
      let sev := s.rd (F.FLT_SRCs_CFG.SEV f.1)
      let pend := (s.rd F.FLT_CLASS.PEND).testBit cls
      let lvl := bitsOf (s.rd F.FLT_CLASS.LVL) (2 * cls) 2
      let cap := bitsOf (s.rd F.FLT_ESC_CAP.CAP) (2 * cls) 2
      let e := effLevel pend lvl cap sev
      let s := s.wr F.FLT_CLASS.PEND (setBitN (s.rd F.FLT_CLASS.PEND) cls true)
      let s := s.wr F.FLT_CLASS.LVL (putBits (s.rd F.FLT_CLASS.LVL) (2 * cls) 2 (max lvl e))
      let s := s.fltLogAdd { src := f.1, level := e, esc := decide (sev < e), inst := f.2 % 4096,
                             frame := s.tick.frameCnt % 2 ^ 32 }
      let s := if s.rd F.FLT_CTRL.IRQ_LEVEL ≤ e then s.irq 62 else s
      let s := if s.rd F.FLT_PIN.LEVEL ≤ e then s.errPulse else s
      s.enterLevel e

/-- Insert a fault in ascending (SRC, INST) order (R463). -/
def fltInsert (f : Nat × Nat) : List (Nat × Nat) → List (Nat × Nat)
  | [] => [f]
  | g :: t => if f.1 < g.1 ∨ (f.1 = g.1 ∧ f.2 ≤ g.2) then f :: g :: t else g :: fltInsert f t

/-- The faults of one cycle in the order in which they are taken (R463). -/
def fltSort (l : List (Nat × Nat)) : List (Nat × Nat) := l.foldr fltInsert []

/-- The device recovers (R469). -/
def State.recover (s : State) : State :=
  let frozen := s.rd F.FLT_STATUS.STATE = 2
  let s := s.wr F.FLT_STATUS.STATE 0
  let s := s.wr F.FLT_CLASS.PEND 0
  let s := s.wr F.FLT_CLASS.LVL 0
  let s := s.inc F.FLT_RECOV.COUNT
  if frozen then { s with flt := { s.flt with recovered := true } } else s

/-- The record of the fault controller's cycle at hand, where it has one. -/
def State.fltNow (s : State) : Option FltCyc :=
  match s.flt.cyc with
  | some c => if c.t = s.now then some c else none
  | none => none

/-- What the faults of the cycle at hand are taken from changes by `f`: an event of the same cycle that is no fault. -/
def State.fltBase (s : State) (f : FltCyc → FltCyc) : State :=
  match s.fltNow with
  | some c => { s with flt := { s.flt with cyc := some (f c) } }
  | none => s

/-- A recovery from FROZEN has yet to take effect: at the next tick, or with RUN = 0 once its cycle is over, in which a
fault may still prevent it (R469). -/
def State.recoverWaits (s : State) : Bool :=
  s.flt.recovered && (s.running || (match s.fltNow with
    | some c => c.rec_
    | none => false))

/-- The bits of FLT_STATUS, FLT_CLASS and FLT_LOG_STATUS that faults change. -/
def fltStat : Fld := ⟨R.FLT_STATUS, 0, 3⟩
def fltCls : Fld := ⟨R.FLT_CLASS, 0, 24⟩
def fltLogSt : Fld := ⟨R.FLT_LOG_STATUS, 0, 7⟩

/-- What the fault controller holds, to come back to within the cycle. -/
def State.fltSnap (s : State) : FltCyc :=
  { t := s.now, stat := s.rd fltStat, cls := s.rd fltCls, logSt := s.rd fltLogSt
    recov := s.rd F.FLT_RECOV.COUNT, log := s.flt.log, lastT := s.flt.lastT, pulseEnd := s.flt.pulseEnd
    errLow := s.flt.errLow, recovered := s.flt.recovered, outFrozen := s.flt.outFrozen }

/-- The fault controller stands as before the faults of its cycle. -/
def State.fltBack (s : State) (c : FltCyc) : State :=
  let s := ((s.wr fltStat c.stat).wr fltCls c.cls).wr fltLogSt c.logSt
  let s := s.modCyc (fun y => { y with set := y.set.filter (fun e => e != (R.FLT_LOG_STATUS, 6)) })
  let s := if c.rec_ then s.wr F.FLT_RECOV.COUNT c.recov else s
  { s with flt := { s.flt with
      log := c.log, lastT := c.lastT, pulseEnd := c.pulseEnd, errLow := c.errLow } }.irqBack 62 c.irqs

/-- The faults of a cycle are taken as one set (R463). A recovery of the same cycle comes after them, unless one of them is
taken at DEGRADE or CRITICAL (R469). An entry into Standby in the same cycle ends a freeze (R467). -/
def State.takeSet (s : State) (c : FltCyc) : State :=
  let n := s.evNow (F.IRQ_SRCs.COUNT 62)
  let s := (fltSort c.set).foldl State.takeFault s
  let c := { c with irqs := s.evNow (F.IRQ_SRCs.COUNT 62) - n }
  let s := if s.boot.sby = 2 ∧ s.boot.sbyAt = s.now ∧ s.rd F.FLT_STATUS.STATE = 2 then s.wr F.FLT_STATUS.STATE 0 else s
  let r := s.flt.recovered
  let s := if !c.rec_ then s
    else if s.flt.lastT = s.now then
      { s with flt := { s.flt with recovered := c.recovered, outFrozen := c.outFrozen } }
    else
      let s := s.recover
      { s with flt := { s.flt with recovered := r } }
  { s with flt := { s.flt with cyc := some c } }

/-- A fault raised in the cycle at hand is taken back: another event of the same cycle settles it so. -/
def State.faultBack (s : State) (f : Nat × Nat) : State :=
  if s.raised.contains f then { s with raised := s.raised.erase f }
  else match s.fltNow with
    | some c =>
      if c.set.contains f then
        ((s.rcBack (F.FLT_SRCs_CNT.COUNT f.1) 1).fltBack c).takeSet { c with set := c.set.erase f }
      else s
    | none => s

/-- What ends every command: the Sluice follows its pulses, then the faults raised in the cycle are taken, with those that
an earlier command of the same cycle raised (R463). -/
def State.settle (s : State) : State :=
  let s := s.slcRun
  if s.raised = [] then s
  else
    let new := s.raised
    let s := new.foldl State.countFault { s with raised := [] }
    match s.fltNow with
    | none => s.takeSet { s.fltSnap with set := new }
    | some c => (s.fltBack c).takeSet { c with set := new ++ c.set }

/-- What a command answers: the next state, once the Sluice and the faults of its cycle have been dealt with. -/
def done (s : State) : Host.Outcome State Fault Refusal := .next s.settle

end Sys2Proof.Machine
end

