-- ==== Sys2Proof/Machine/Mem.lean ====
section
/-! DEFINITION. In-package memory (10_memory_and_protection.md): the address map, both codes, the merge buffers,
the error log and the accesses every requester makes. `State.mem` holds the bytes that were stored; wrong
symbols are kept beside it as XOR patterns (`MemS.hbmErr`, `MemS.sramErr`), since both codes are linear. -/

namespace Sys2Proof.Machine

/-! ### The two codes -/

/-- Multiplication by x in GF(2^m) with primitive polynomial `poly` (of degree m). -/
def gfX (m poly a : Nat) : Nat := if (2 * a).testBit m then (2 * a) ^^^ poly else 2 * a

/-- `a * α^n`. -/
def gfMulPow (m poly : Nat) : Nat → Nat → Nat
  | 0, a => a
  | n + 1, a => gfX m poly (gfMulPow m poly n a)

/-- Product of field elements: `a` times each set bit of `b`, over the bits below `m`. -/
def gfMul (m poly a b : Nat) : Nat :=
  (List.range m).foldl (fun r i => if b.testBit i then r ^^^ gfMulPow m poly i a else r) 0

/-- The field of the HBM code (R271): GF(2^8), x^8 + x^4 + x^3 + x^2 + 1. -/
def rsPow (n a : Nat) : Nat := gfMulPow 8 0x11D (n % 255) a

/-- Syndrome `m` of an error pattern: symbol `j` is the coefficient of x^(35 - j) (R271). -/
def rsSyn (e : List (Nat × Nat)) (m : Nat) : Nat :=
  e.foldl (fun r p => r ^^^ rsPow (m * (35 - p.1)) p.2) 0

/-- One wrong symbol that explains the syndromes. -/
def rsOne (s0 s1 s2 s3 : Nat) : Option (List (Nat × Nat)) :=
  match (List.range 36).find? (fun j =>
      s0 != 0 && rsPow (35 - j) s0 == s1 && rsPow (2 * (35 - j)) s0 == s2 && rsPow (3 * (35 - j)) s0 == s3) with
  | some j => some [(j, s0)]
  | none => none

/-- Two wrong symbols at `i < j` that explain the syndromes: the value at `j` solves
`v (α^pi + α^pj) = s0 α^pi + s1`, and both later syndromes follow the locators of the pair. -/
def rsPair (s0 s1 s2 s3 i j : Nat) : Option (List (Nat × Nat)) :=
  let pi := 35 - i
  let pj := 35 - j
  let den := rsPow pi 1 ^^^ rsPow pj 1
  let num := rsPow pi s0 ^^^ s1
  if (s2 ^^^ rsPow pi s1 ^^^ rsPow pj s1 ^^^ rsPow (pi + pj) s0) != 0 ||
      (s3 ^^^ rsPow pi s2 ^^^ rsPow pj s2 ^^^ rsPow (pi + pj) s1) != 0 then none
  else match (List.range 255).find? (fun n => rsPow n den == num) with
  | none => none
  | some n =>
    let v := rsPow n 1
    let u := s0 ^^^ v
    if u != 0 && (rsPow (2 * pi) u ^^^ rsPow (2 * pj) v) == s2 && (rsPow (3 * pi) u ^^^ rsPow (3 * pj) v) == s3
    then some [(i, u), (j, v)] else none

/-- The decoder of R271: the symbols it corrects, or none where no codeword lies within distance 2. -/
def rsDecode (e : List (Nat × Nat)) : Option (List (Nat × Nat)) :=
  let s0 := rsSyn e 0
  let s1 := rsSyn e 1
  let s2 := rsSyn e 2
  let s3 := rsSyn e 3
  if s0 = 0 ∧ s1 = 0 ∧ s2 = 0 ∧ s3 = 0 then some []
  else match rsOne s0 s1 s2 s3 with
    | some c => some c
    | none => ((List.range 36).flatMap (fun j => (List.range j).map (fun i => (i, j)))).findSome?
        (fun p => rsPair s0 s1 s2 s3 p.1 p.2)

/-- α^n in the field of the SRAM code (R267): GF(2^7), x^7 + x^3 + 1. -/
def bchPow (n : Nat) : Nat := gfMulPow 7 0x89 (n % 127) 1

/-- S1, S3 and P of an 80-bit error pattern over code bits 0-78 (R267). -/
def bchSyn (e : Nat) : Nat × Nat × Bool :=
  (List.range 79).foldl (fun r i =>
    if e.testBit i then (r.1 ^^^ bchPow i, r.2.1 ^^^ bchPow (3 * i), !r.2.2) else r) (0, 0, false)

/-- The check Q fails: data bits of odd number (code bits 16, 18, ... 78) and check bit 15 (bit 79). -/
def bchQ (e : Nat) : Bool :=
  (List.range 32).foldl (fun r i => r != e.testBit (16 + 2 * i)) (e.testBit 79)

/-- The SRAM decoder of R268: the pattern it corrects (bit 79 is check bit 15), or none if uncorrectable. -/
def bchDecode (e : Nat) : Option Nat :=
  let (s1, s3, p) := bchSyn e
  if s1 = 0 ∧ s3 = 0 ∧ p = false then (if bchQ e then some (2 ^ 79) else some 0)
  else
    let c := if p then (List.range 79).findSome? (fun i =>
        if bchPow i = s1 ∧ bchPow (3 * i) = s3 then some (2 ^ i) else none)
      else ((List.range 79).flatMap (fun j => (List.range j).map (fun i => (i, j)))).findSome? (fun q =>
        if (bchPow q.1 ^^^ bchPow q.2) = s1 ∧ (bchPow (3 * q.1) ^^^ bchPow (3 * q.2)) = s3
        then some (2 ^ q.1 + 2 ^ q.2) else none)
    match c with
    | none => none
    | some m => if bchQ (e ^^^ m) then none else some m

/-! ### The address map -/

/-- HBM answers: trained, or Standby entered and its work not yet cut off (R452, R517). -/
def State.hbmOpen (s : State) : Bool := s.on F.HBM_STATUS.TRAINED || s.boot.sby == 2

/-- Outbound accesses reach the host: the link is up, Bus Master Enable is 1 and the function is in D0 (R479). -/
def State.hostUp (s : State) : Bool := s.on F.HST_LINK.UP && s.on F.HST_LINK.BME && !s.on F.HST_LINK.D3HOT

/-- HST_OUT_BASE (R479). -/
def State.hostBase (s : State) : Nat := s.reg R.HST_OUT_BASE_LO + s.reg R.HST_OUT_BASE_HI * 2 ^ 32

/-- What an address of the 40-bit system space names (R259). -/
inductive Region where
  | hbm | sram (port : Nat) | regSpace (off : Nat) | host | none
  deriving DecidableEq, Repr

/-- The map of R259; port 0 is the shared SRAM, 1 + 2c and 2 + 2c are the instruction and data SRAM of core c. -/
def regionOf (gib a : Nat) : Region :=
  if a < 2 ^ 30 * gib then .hbm
  else if Nat.ble 0x1000000000 a && Nat.blt a 0x1000400000 then .sram 0
  else if Nat.ble 0x1040000000 a && Nat.blt a 0x1040100000 then
    let c := (a - 0x1040000000) / 0x40000
    let o := (a - 0x1040000000) % 0x40000
    .sram (if o < 0x20000 then 1 + 2 * c else 2 + 2 * c)
  else if Nat.ble 0x2000000000 a && Nat.blt a 0x2004000000 then .regSpace (a - 0x2000000000)
  else if Nat.ble 0x8000000000 a && Nat.blt a 0x10000000000 then .host
  else .none

/-- The pseudo-channel of an HBM address (R261). -/
def pcOf (a : Nat) : Nat := ((a >>> 8) ^^^ (a >>> 16)) &&& 15

/-- The result of a memory access: bytes, a wait for HBM training (R517), an uncorrectable error (its fault
source), or a decode error (R260). -/
inductive BusRes where
  | ok (bytes : List Byte)
  | wait
  | ue (src : Nat)
  | decode
  deriving DecidableEq, Repr

/-- The class of a requester (R262); 7 stands for the Pelell port buffers. -/
def reqClass (req : Nat) : Nat :=
  if req ≤ 0x10 then 0 else if req = 0x84 then 1 else if req = 0x83 then 2
  else if (Nat.ble 0x20 req && Nat.ble req 0x30) || req == 0x86 then 3
  else if (Nat.ble 0x40 req && Nat.ble req 0x7F) || req == 0x81 || req == 0x82 then 4
  else if req = 0x80 then 5 else if req = 0x87 then 6 else 7

/-- A MEM fault, at most once per frame and requester class, or once per 10,000,000 ECLK while ticks are
stopped (R279). -/
def State.memRaise (s : State) (src req inst : Nat) : State :=
  let c := reqClass req
  let old := s.memc.raisedAt.filter (fun e => e.1 == src && e.2.1 == c)
  let blocked := old.any (fun e =>
    if s.running then e.2.2.1 == s.tick.frameCnt else decide (s.now < e.2.2.2 + 10000000))
  if blocked then s
  else
    let rest := s.memc.raisedAt.filter (fun e => !(e.1 == src && e.2.1 == c))
    ({ s with memc := { s.memc with raisedAt := (src, c, s.tick.frameCnt, s.now) :: rest } }).fault src inst

/-- A MEM fault of a requester. An engine's waits for the deadline of the line it poisons, where it stands in place of
DIKE (R49, R278; log 20). -/
def State.memFaultI (s : State) (src req inst : Nat) : State :=
  if Nat.ble req 0x10 then { s with memc := { s.memc with held := (req, src) :: s.memc.held } }
  else s.memRaise src req inst

/-- A MEM fault whose instance is the requester (R461). -/
def State.memFault (s : State) (src req : Nat) : State := s.memFaultI src req req

/-- An entry for the memory error log (R280); source 61 has an event (R352). -/
def State.memLog (s : State) (typ addr req syms : Nat) : State :=
  if s.memc.log.length < 16 then
    (({ s with memc := { s.memc with log := s.memc.log ++ [({ typ := typ, addr := addr, req := req, syms := syms } : MemLog)] } }).wr
      F.MEM_LOG_STATUS.COUNT (s.memc.log.length + 1)).irq 61
  else
    let e : MemLog := { typ := typ, addr := addr, req := req, syms := syms }
    let s := { s with memc := { s.memc with logLost := some (s.now, e, s.on F.MEM_STATUS.LOG_OVERFLOW) } }
    s.hwSet F.MEM_STATUS.LOG_OVERFLOW

/-- A decode error (R260): counted, logged, and MEM_DECODE raised by the requester that received it (R278). -/
def State.decodeErr (s : State) (addr req : Nat) : State :=
  ((s.incRc F.MEM_DECODE_CNT.COUNT).memLog 8 addr req 0).memFault 0x23 req

/-- An error that an access at `addr` by `req` met, counted, logged and raised: 0 an address without contents (R260),
1 an uncorrectable HBM block (R272), 2 an uncorrectable word of an SRAM array that has no system address (R268); the
address its log entry shows is free (log 8). -/
def State.fetchErr (s : State) (cause addr req : Nat) : State :=
  match cause with
  | 0 => s.decodeErr addr req
  | 1 => ((s.incRc F.MEM_HBM_UE_CNT.COUNT).memLog 4 (addr / 32 * 32) req 0).memFault 0x21 req
  | _ =>
    let (a, s) := s.free
    ((s.incRc F.MEM_SRAM_UE_CNT.COUNT).memLog 2 (a % 2 ^ 40) req 0).memFault 0x20 req

/-! ### Stored bytes -/

/-- The stored byte at a system address; a byte nobody has written reads 0 (R517). -/
def State.byte (s : State) (a : Nat) : Byte := Tbl.get 0#8 s.mem a

/-- `n` stored bytes from address `a`. -/
def State.bytes (s : State) (a n : Nat) : List Byte := (List.range n).map (fun i => s.byte (a + i))

/-- The state with one stored byte replaced. -/
def State.setByte (s : State) (a : Nat) (b : Byte) : State := { s with mem := Tbl.set 0#8 s.mem a b }

/-- The byte at `a` as the last accepted write left it: in a merge buffer, else stored (R269, R270, R274). -/
def State.lastByte (s : State) (a : Nat) : Byte :=
  let at_ := fun (w : Nat) (l : List MergeE) => l.findSome? (fun e => if e.addr == a / w * w then Tbl.find e.bytes (a % w) else none)
  ((at_ 32 s.memc.rmw).orElse (fun _ => at_ 8 s.memc.merge)).getD (s.byte a)

/-- `n` bytes from `a` are about to be overwritten: the journal keeps what an engine may still compose from (R100). -/
def State.journalAdd (s : State) (a n : Nat) : State :=
  let olds := (List.range n).map (fun i => (s.memc.jseq, a + i, s.lastByte (a + i)))
  { s with memc := { s.memc with journal := olds ++ s.memc.journal, jseq := s.memc.jseq + 1 } }

/-- The state with consecutive stored bytes replaced. -/
def State.setBytes (s : State) (a : Nat) : List Byte → State
  | [] => s
  | b :: bs => (s.setByte a b).setBytes (a + 1) bs

/-- A write arrives at bytes `a .. a + n - 1`: reservations on the 8-byte words it touches are cleared (R341). -/
def State.resvClear (s : State) (a n : Nat) : State :=
  { s with memc := { s.memc with resv := s.memc.resv.filter (fun e => !(decide (e.2 < a + n) && decide (a < e.2 + 8))) } }

/-- The wrong symbols of an HBM block. -/
def State.blkErr (s : State) (blk : Nat) : List (Nat × Nat) :=
  (s.memc.hbmErr.filter (fun e => e.1 / 36 == blk)).map (fun e => (e.1 % 36, e.2.toNat))

/-- The injection of R281 strikes a store to the block or word that holds `a .. a + n - 1`. -/
def State.injHits (s : State) (a n : Nat) : Bool :=
  let t := s.rd F.MEM_INJ_ADDR_LO.ADDR_LO + s.rd F.MEM_INJ_ADDR_HI.ADDR_HI * 2 ^ 32
  s.on F.MEM_INJ_CTRL.ARM && s.on F.MEM_INJ_CTRL.N && decide (a ≤ t) && decide (t < a + n)

/-- A whole HBM block is stored with a fresh code (R274), corrupted if an injection is armed for it (R281). -/
def State.storeBlk (s : State) (blk : Nat) (bs : List Byte) : State :=
  let s := s.setBytes (32 * blk) bs
  let clean := s.memc.hbmErr.filter (fun e => e.1 / 36 != blk)
  if s.injHits (32 * blk) 32 then
    let n := s.rd F.MEM_INJ_CTRL.N
    let err := (List.range n).foldl (fun t j => Tbl.put t (36 * blk + j) 1#8) clean
    (({ s with memc := { s.memc with hbmErr := err } }).hwSet F.MEM_STATUS.INJ_DONE).wr F.MEM_INJ_CTRL.ARM 0
  else { s with memc := { s.memc with hbmErr := clean } }

/-- A whole SRAM word is stored with a fresh code, corrupted if an injection is armed for it (R281). -/
def State.storeWord8 (s : State) (wa : Nat) (bs : List Byte) : State :=
  let s := s.setBytes wa bs
  let s := { s with memc := { s.memc with fix := s.memc.fix.filter (· != wa) } }
  if s.injHits wa 8 then
    let n := s.rd F.MEM_INJ_CTRL.N
    (({ s with memc := { s.memc with sramErr := Tbl.put s.memc.sramErr wa ((2 ^ n - 1) * 2 ^ 15) } }).hwSet
      F.MEM_STATUS.INJ_DONE).wr F.MEM_INJ_CTRL.ARM 0
  else { s with memc := { s.memc with sramErr := s.memc.sramErr.del wa } }

/-- A correction of an HBM block: counted per stack and pseudo-channel (R272), logged with LOG_CE (R280), in the
window of R277. -/
def State.hbmCe (s : State) (blk req typ n : Nat) : State :=
  let s := (s.incRc F.MEM_HBM_CE_CNT.COUNT).incRc (F.HBM_PCp_CE.COUNT (pcOf (32 * blk)))
  let s := { s with memc := { s.memc with winCnt := s.memc.winCnt + 1 } }
  if s.on F.MEM_CTRL.LOG_CE then s.memLog typ (32 * blk) req n else s

/-- The address of a corrected block goes to the repair queue (R273). -/
def State.repairAdd (s : State) (blk : Nat) : State :=
  if s.memc.repair.contains blk then s
  else if s.memc.repair.length < 16 then { s with memc := { s.memc with repair := s.memc.repair ++ [blk] } }
  else s.hwSet F.MEM_STATUS.REPAIR_DROP

/-- The 32 bytes of an HBM block as the decoder returns them, with what the decoder does; no effect on the
state. `some (bytes, n)`: `n` symbols corrected. -/
def State.peekBlk (s : State) (blk : Nat) : Option (List Byte × Nat) :=
  let e := s.blkErr blk
  if e = [] then some (s.bytes (32 * blk) 32, 0)
  else match rsDecode e with
    | none => none
    | some c => some ((List.range 32).map (fun j =>
        let at_ := fun l : List (Nat × Nat) => ((l.filter (fun p => p.1 == j)).map (fun p => p.2)).foldl (· ^^^ ·) 0
        s.byte (32 * blk + j) ^^^ BitVec.ofNat 8 (at_ e ^^^ at_ c)), c.length)

/-- The 8 bytes of an SRAM word as the decoder returns them (R268). -/
def State.peekWord8 (s : State) (wa : Nat) : Option (List Byte × Nat) :=
  let e := Tbl.get 0 s.memc.sramErr wa
  if e = 0 then some (s.bytes wa 8, 0)
  else match bchDecode e with
    | none => none
    | some m =>
      let x := bitsOf (e ^^^ m) 15 64
      some ((List.range 8).map (fun j => s.byte (wa + j) ^^^ BitVec.ofNat 8 (x >>> (8 * j))),
        ((List.range 80).filter (fun i => m.testBit i)).length)

/-- Bytes merged over a block or word. -/
def mergeOver (base : List Byte) (m : Tbl Byte) : List Byte :=
  (List.range base.length).map (fun i => Tbl.get (base.getD i 0#8) m i)

/-- An entry of a merge buffer holds bytes of `a .. a + n - 1`. -/
def State.mergeHeld (s : State) (a n : Nat) : Bool :=
  (s.memc.rmw.any (fun e => decide (e.addr < a + n) && decide (a < e.addr + 32))) ||
    s.memc.merge.any (fun e => decide (e.addr < a + n) && decide (a < e.addr + 8))

/-- The writers of a merge that was refused later receive a bus error on their write response (R270, R274, R278): a
core for its posted store, a DMA channel and the blitter for the transfer in work. The entry held the `w` bytes at `addr`;
a DMA channel discards the burst whose bytes these were, and stands at its first byte again (R291); one between descriptors
or one that waits for its trigger stops as well (log 58). -/
def State.writerErr (s : State) (reqs : List Nat) (addr w : Nat) : State :=
  reqs.foldl (fun s r =>
    if Nat.ble 0x20 r && Nat.blt r 0x24 then
      let x := Tbl.get {} s.cores (r - 0x20)
      let a := match x.sent.find? (fun e => decide (e.1 < addr + w) && decide (addr < e.1 + e.2.1)) with
        | some e => e.2.2
        | none => addr
      { s with memc := { s.memc with lateErr := s.memc.lateErr ++ [(r - 0x20, a)] } }
    else if Nat.ble 0x40 r && Nat.blt r 0x80 then
      let d := Tbl.get {} s.dma (r - 0x40)
      if d.phase = .move ∨ d.phase = .moved then
        match d.bursts.find? (fun b => decide (b.2.2.1 < addr + w) && decide (addr < b.2.2.1 + b.2.2.2)) with
        | some b => { s.wr (F.DMAn_CRC.CRC (r - 0x40)) b.2.1 with
                      dma := Tbl.put s.dma (r - 0x40) { d with phase := .error, pos := b.1 } }
        | none => { s with dma := Tbl.put s.dma (r - 0x40) { d with phase := .error } }
      else if d.phase = .wait then { s with dma := Tbl.put s.dma (r - 0x40) { d with phase := .error } }
      else if d.phase = .fetch then { s with dma := Tbl.put s.dma (r - 0x40) { d with phase := .wbError } }
      else s
    else if r = 0x80 then
      match s.blt.run with
      | some b => { s with blt := { s.blt with run := some { b with err := true } } }
      | none => s
    else s) s

/-- An entry of the HBM merge buffer is written (R274). -/
def State.flushRmwE (s : State) (e : MergeE) : State :=
  let s := { s with memc := { s.memc with rmw := s.memc.rmw.filter (fun x => x.addr != e.addr) } }
  let blk := e.addr / 32
  if e.bytes.length = 32 then s.storeBlk blk (mergeOver (List.replicate 32 0#8) e.bytes)
  else match s.peekBlk blk with
    | none =>
      let req := e.reqs.headD 0x30
      let s := (s.incRc F.MEM_HBM_UE_CNT.COUNT).memLog 5 e.addr req 0
      (s.memFault 0x22 req).writerErr e.reqs e.addr 32
    | some (bs, n) =>
      let s := if n = 0 then s else s.hbmCe blk (e.reqs.headD 0x30) 3 n
      s.storeBlk blk (mergeOver bs e.bytes)

/-- The entry of block address `ba`, if one is held, is written first (R274: a read of that block waits). -/
def State.flushRmw (s : State) (ba : Nat) : State :=
  match s.memc.rmw.find? (fun e => e.addr == ba) with
  | none => s
  | some e => s.flushRmwE e

/-- An entry of an SRAM merge buffer is written (R269, R270). -/
def State.flushMergeE (s : State) (e : MergeE) : State :=
  let s := { s with memc := { s.memc with
    merge := s.memc.merge.filter (fun x => x.addr != e.addr || x.port != e.port) } }
  if e.bytes.length = 8 then s.storeWord8 e.addr (mergeOver (List.replicate 8 0#8) e.bytes)
  else match s.peekWord8 e.addr with
    | none =>
      let req := e.reqs.headD 0x30
      let s := (s.incRc F.MEM_SRAM_UE_CNT.COUNT).memLog 2 e.addr req 0
      (s.memFault 0x20 req).writerErr e.reqs e.addr 8
    | some (bs, n) =>
      let s := if n = 0 then s else
        let s := s.incRc F.MEM_SRAM_CE_CNT.COUNT
        if s.on F.MEM_CTRL.LOG_CE then s.memLog 1 e.addr (e.reqs.headD 0x30) n else s
      s.storeWord8 e.addr (mergeOver bs e.bytes)

/-! ### Accesses -/

/-- A read of an HBM block by `req` (R271-R274, R278). `none`: uncorrectable. -/
def State.readBlk (s : State) (blk req : Nat) : Option (List Byte) × State :=
  let s := s.flushRmw (32 * blk)
  match s.peekBlk blk with
  | none => (none, ((s.incRc F.MEM_HBM_UE_CNT.COUNT).memLog 4 (32 * blk) req 0).memFault 0x21 req)
  | some (bs, n) => if n = 0 then (some bs, s) else (some bs, (s.hbmCe blk req 3 n).repairAdd blk)

/-- A read of an SRAM word by `req`: the array word merged with a buffered entry's bytes (R268, R269). -/
def State.readWord8 (s : State) (wa req : Nat) : Option (List Byte) × State :=
  let m := (s.memc.merge.filter (fun e => e.addr == wa)).flatMap (fun e => e.bytes)
  match s.peekWord8 wa with
  | none => (none, ((s.incRc F.MEM_SRAM_UE_CNT.COUNT).memLog 2 wa req 0).memFault 0x20 req)
  | some (bs, n) =>
    if n = 0 then (some (mergeOver bs m), s)
    else
      let s := s.incRc F.MEM_SRAM_CE_CNT.COUNT
      let s := if s.on F.MEM_CTRL.LOG_CE then s.memLog 1 wa req n else s
      let s := { s with memc := { s.memc with
        fix := if s.memc.fix.contains wa then s.memc.fix else s.memc.fix ++ [wa] } }
      (some (mergeOver bs m), s)

/-- `n` free bytes: what host memory returns (log 8). -/
def State.freeBytes (s : State) : Nat → List Byte × State
  | 0 => ([], s)
  | n + 1 =>
    let (v, s) := s.free
    let (bs, s) := s.freeBytes n
    (BitVec.ofNat 8 v :: bs, s)

/-- Consecutive SRAM words read by `req`, up to the first uncorrectable one. -/
def State.readWords8 (s : State) (req wa : Nat) : Nat → BusRes × State
  | 0 => (.ok [], s)
  | k + 1 => match s.readWord8 wa req with
    | (none, s) => (.ue 0x20, s)
    | (some bs, s) => match State.readWords8 s req (wa + 8) k with
      | (.ok r, s) => (.ok (bs ++ r), s)
      | x => x

/-- One piece of a read: `n` bytes at `a`, inside one aligned 32-byte block. -/
def State.readPiece (s : State) (req a n : Nat) : BusRes × State :=
  match regionOf s.gib a with
  | .hbm =>
    if !s.hbmOpen then (.wait, s)
    else match s.readBlk (a / 32) req with
      | (none, s) => (.ue 0x21, s)
      | (some bs, s) => (.ok ((bs.drop (a % 32)).take n), s)
  | .sram _ =>
    let w0 := a / 8 * 8
    match s.readWords8 req w0 ((a + n - 1) / 8 + 1 - a / 8) with
    | (.ok bs, s) => (.ok ((bs.drop (a - w0)).take n), s)
    | x => x
  | .host =>
    if s.hostUp then (s.emit (.hostRead (s.hostBase + a - 0x8000000000) n)).freeBytes n |> fun r => (.ok r.1, r.2)
    else (.decode, s.decodeErr a req)
  | .regSpace _ => (.decode, s.decodeErr a req)
  | .none => (.decode, s.decodeErr a req)

/-- A read of `n` bytes at system address `a` by `req`, block by block; `fuel` bounds the pieces. -/
def State.readLoop (s : State) (req : Nat) : Nat → Nat → Nat → BusRes × State
  | 0, _, _ => (.ok [], s)
  | fuel + 1, a, n =>
    if n = 0 then (.ok [], s)
    else
      let k := min n (32 - a % 32)
      match s.readPiece req a k with
      | (.ok bs, s) => match State.readLoop s req fuel (a + k) (n - k) with
        | (.ok r, s) => (.ok (bs ++ r), s)
        | x => x
      | x => x

/-- A read of `n` bytes at system address `a` by requester `req` (R259-R278). -/
def State.busRead (s : State) (req a n : Nat) : BusRes × State := s.readLoop req (n / 32 + 2) a n

/-- The port of SRAM `p` that a request through the fabric takes: port 1 of a local SRAM, whose port 0 is its core's
(R327), and the one port of the shared SRAM. -/
def sramPort (p : Nat) : Nat := if p = 0 then 0 else 1

/-- What is left of an entry when bytes of word `wa` are written later through port `port` (R270, R327). -/
def MergeE.yield (wa port : Nat) (newer : List Nat) (e : MergeE) : Option MergeE :=
  if e.addr == wa && e.port != port then
    let b := e.bytes.filter (fun q => !newer.contains q.1)
    if b = [] then none else some { e with bytes := b }
  else some e

/-- The bytes of local SRAMs that the fabric has written in this CCLK cycle (R327). -/
def State.fabNow (s : State) : List Nat := if s.memc.fabW.1 = cclkAt s.now then s.memc.fabW.2 else []

/-- Bytes `l` of SRAM word `wa`, by offset, go into the merge buffer of port `port` (R269). -/
def State.wordPut (s : State) (req port wa : Nat) (l : List (Nat × Byte)) : State :=
  if l = [] then s
  else
    let s : State := { s with memc := { s.memc with
      merge := s.memc.merge.filterMap (MergeE.yield wa port (l.map (fun q => q.1))) } }
    let held := s.memc.merge.find? (fun e => e.addr == wa && e.port == port)
    let ents : List MergeE := s.memc.merge.filter (fun e => regionOf s.gib e.addr == regionOf s.gib wa && e.port == port)
    let s := if held.isNone && decide (l.length < 8) && decide (8 ≤ ents.length) then
        (match ents with
        | e :: _ => s.flushMergeE e
        | [] => s)
      else s
    let old : MergeE := held.getD ({ addr := wa, port := port } : MergeE)
    let e : MergeE := { old with
      bytes := l.foldl (fun t q => Tbl.put t q.1 q.2) old.bytes
      reqs := if old.reqs.contains req then old.reqs else old.reqs ++ [req]
      t := s.now }
    let m := if held.isSome then s.memc.merge.map (fun x => if x.addr == wa && x.port == port then e else x)
      else s.memc.merge ++ [e]
    let s := { s with memc := { s.memc with merge := m } }
    if e.bytes.length = 8 then s.flushMergeE e else s

/-- Bytes `bs` go to address `a` of an SRAM through port `port` of it (R269, R327). A byte of a local SRAM that the fabric
writes in the same cycle keeps the fabric's value. -/
def State.sramPut (s : State) (req port a : Nat) (bs : List Byte) : State :=
  let n := bs.length
  let late := if port = 0 ∧ 0x1040000000 ≤ a then s.fabNow else []
  let words := (List.range ((a + n - 1) / 8 + 1 - a / 8)).map (fun i => (a / 8 + i) * 8)
  words.foldl (fun (s : State) wa => s.wordPut req port wa
    (((List.range n).filter (fun i => (a + i) / 8 * 8 == wa && !late.contains (a + i))).map
      (fun i => (a + i - wa, bs.getD i 0#8)))) s

/-- The store-conditional `r` has failed: its word holds what it held, and its register 1 (R341). -/
def State.scFail (s : State) (r : ScRec) : State :=
  let s := s.sramPut (0x20 + r.core) r.port r.addr r.old
  let x := Tbl.get {} s.cores r.core
  { s with
    memc := { s.memc with sc := s.memc.sc.filter (· != r) }
    cores := if r.rd = 0 then s.cores else Tbl.put s.cores r.core { x with g := Tbl.set 0#32 x.g r.rd 1#32 } }

/-- Another requester than the core of a store-conditional writes the word in its cycle: that write comes first, and the SC has
failed (R341). -/
def State.scUndo (s : State) (req a n : Nat) : State :=
  (s.memc.sc.filter (fun r => req != 0x20 + r.core && r.cyc == cclkAt s.now && decide (r.addr / 8 * 8 < a + n) &&
    decide (a < r.addr / 8 * 8 + 8))).foldl State.scFail s

/-- A write of bytes `bs` at address `a` of an SRAM, through port `port` of it: 1 is the fabric's of a local SRAM (R269, R327,
R341). -/
def State.sramWrite (s : State) (req port a : Nat) (bs : List Byte) : State :=
  let n := bs.length
  let s := (((s.scUndo req a n).resvClear a n).journalAdd a n).sramPut req port a bs
  if port = 0 then s
  else { s with memc := { s.memc with fabW := (cclkAt s.now, s.fabNow ++ (List.range n).map (fun i => a + i)) } }

/-- One piece of a write inside one aligned 32-byte block (R269, R274). -/
def State.writePiece (s : State) (req a : Nat) (bs : List Byte) : BusRes × State :=
  let n := bs.length
  match regionOf s.gib a with
  | .hbm =>
    if !s.hbmOpen then (.wait, s)
    else
      let ba := a / 32 * 32
      let s := (s.resvClear a n).journalAdd a n
      let held := s.memc.rmw.find? (fun e => e.addr == ba)
      let s := if held.isNone && decide (n < 32) && decide (32 ≤ s.memc.rmw.length) then
          (match s.memc.rmw with
          | e :: _ => s.flushRmwE e
          | [] => s)
        else s
      let old : MergeE := held.getD ({ addr := ba } : MergeE)
      let e : MergeE := { old with
        bytes := (List.range n).foldl (fun t i => Tbl.put t (a - ba + i) (bs.getD i 0#8)) old.bytes
        reqs := if old.reqs.contains req then old.reqs else old.reqs ++ [req]
        t := s.now }
      let l := if held.isSome then s.memc.rmw.map (fun x => if x.addr == ba then e else x) else s.memc.rmw ++ [e]
      let s := { s with memc := { s.memc with rmw := l } }
      (.ok [], if e.bytes.length = 32 then s.flushRmwE e else s)
  | .sram p => (.ok [], s.sramWrite req (sramPort p) a bs)
  | .host =>
    if s.hostUp then (.ok [], s.emit (.hostWrite (s.hostBase + a - 0x8000000000) bs))
    else (.decode, s.decodeErr a req)
  | .regSpace _ => (.decode, s.decodeErr a req)
  | .none => (.decode, s.decodeErr a req)

/-- A write by `req`, block by block; `fuel` bounds the pieces. -/
def State.writeLoop (s : State) (req : Nat) : Nat → Nat → List Byte → BusRes × State
  | 0, _, _ => (.ok [], s)
  | fuel + 1, a, bs =>
    if bs = [] then (.ok [], s)
    else
      let k := 32 - a % 32
      match s.writePiece req a (bs.take k) with
      | (.ok _, s) => State.writeLoop s req fuel (a + k) (bs.drop k)
      | x => x

/-- A write of bytes at system address `a` by requester `req` (R259-R278). -/
def State.busWrite (s : State) (req a : Nat) (bs : List Byte) : BusRes × State :=
  s.writeLoop req (bs.length / 32 + 2) a bs

/-- A write that its requester posts: it waits where the HBM does not answer yet (R517). -/
def State.postWrite (s : State) (req a : Nat) (bs : List Byte) : State :=
  match s.busWrite req a bs with
  | (.wait, _) => { s with memc := { s.memc with waitW := s.memc.waitW ++ [.inl (req, a, bs)] } }
  | (_, s) => s

/-- A read through BAR2 of `n` bytes at HBM address `a`, in the pieces before and after the top of the window. -/
def State.bar2Read (s : State) (a n : Nat) : BusRes × State :=
  let k := min n (2 ^ 34 - a)
  match s.busRead 0x86 a k with
  | (.ok x, s) => match s.busRead 0x86 0 (n - k) with
    | (.ok y, s) => (.ok (x ++ y), s)
    | r => r
  | r => r

/-- A completion goes to the host: 0 data, 1 poisoned data, 2 Unsupported Request; AER notes the latter two (R475). -/
def State.hostReply (s : State) (status : Nat) (bs : List Byte) : State :=
  let c := s.hst.cfg
  { s with hst := { s.hst with cfg := { c with poisoned := c.poisoned || status == 1, unsupported := c.unsupported || status == 2 } } }.emit
    (.completion status bs)

/-- The completion of a BAR2 read (R278, R478); a read that the HBM does not answer yet waits (R517). -/
def State.bar2Answer (s : State) (a n : Nat) : State :=
  match s.bar2Read a n with
  | (.ok b, s) => s.hostReply 0 b
  | (.ue _, s) => s.hostReply 1 (List.replicate n 0xFF#8)
  | (.decode, s) => s.hostReply 2 []
  | (.wait, _) => { s with memc := { s.memc with waitW := s.memc.waitW ++ [.inr (a, n)] } }

/-- The HBM answers: the accesses that waited for it are made, in order (R517). -/
def State.hbmGo (s : State) : State :=
  s.memc.waitW.foldl (fun s w => match w with
    | .inl w => s.postWrite w.1 w.2.1 w.2.2
    | .inr w => s.bar2Answer w.1 w.2) { s with memc := { s.memc with waitW := [] } }

/-- Little-endian value of bytes (R6). -/
def leVal : List Byte → Nat
  | [] => 0
  | b :: bs => b.toNat + 256 * leVal bs

/-- The low `n` bytes of a number, little-endian (R6). -/
def leBytes : Nat → Nat → List Byte
  | 0, _ => []
  | n + 1, v => BitVec.ofNat 8 v :: leBytes n (v / 256)

/-- Little-endian field of a byte list. -/
def leAt (bs : List Byte) (o n : Nat) : Nat := leVal ((bs.drop o).take n)

/-! ### Engine fetches (R100-R102) -/

/-- One of the values that a byte may be composed from: `now_`, or one that a write accepted since the mark replaced (R100;
log 10). `k` numbers the choice, `x` is the pixel. -/
def State.pickByte (s : State) (mark k x a : Nat) (now_ : Byte) : Byte :=
  match (s.memc.journal.filter (fun e => e.2.1 == a && decide (mark ≤ e.1))).map (fun e => e.2.2) with
  | [] => now_
  | l => (now_ :: l).getD (Config.pick k x a % (l.length + 1)) now_

/-- The byte of a fetched 64-byte block at `a`. -/
def blkByte (t : Tbl (List Byte)) (a : Nat) : Byte := (Tbl.get [] t (a / 64 * 64)).getD (a % 64) 0#8

/-- A fetch of one 32-byte block by an engine: its bytes, or none where it failed. No answer while the HBM gives none
(R517). -/
def State.fetchBlk (s : State) (req ba : Nat) : Option (Option (List Byte) × State) :=
  match s.readPiece req (ba % 2 ^ 40) 32 with
  | (.ok bs, s) => some (some bs, s)
  | (.wait, _) => none
  | (_, s) => some (none, s)

/-- A 64-byte block into the table of blocks `t` a cache holds (R100-R102). A block already there may still be held, or
not (R101); both halves of a fetched block are read, and a failed one is not kept. True: an error. -/
def State.fetch64 (s : State) (req k a : Nat) (t : Tbl (List Byte)) : Option ((Bool × Tbl (List Byte)) × State) :=
  if (Tbl.find t a).isSome && Config.pick k 0 a % 2 == 0 then some ((false, t), s)
  else match s.fetchBlk req a with
    | none => none
    | some (r1, s) => match s.fetchBlk req (a + 32) with
      | none => none
      | some (r2, s) => match r1, r2 with
        | some b1, some b2 => some ((false, Tbl.put t a (b1 ++ b2)), s)
        | _, _ => some ((true, t.del a), s)

/-- Several blocks in order, up to the first that meets an error (R127). -/
def State.fetchUntil (s : State) (req k : Nat) : List Nat → Tbl (List Byte) → Option ((Bool × Tbl (List Byte)) × State)
  | [], t => some ((false, t), s)
  | a :: as, t => match s.fetch64 req k a t with
    | none => none
    | some ((true, t), s) => some ((true, t), s)
    | some ((false, t), s) => s.fetchUntil req k as t

/-- Several blocks. -/
def State.fetchAll (s : State) (req k : Nat) : List Nat → Tbl (List Byte) → Option ((Bool × Tbl (List Byte)) × State)
  | [], t => some ((false, t), s)
  | a :: as, t => match s.fetch64 req k a t with
    | none => none
    | some ((b1, t), s) => match s.fetchAll req k as t with
      | none => none
      | some ((b2, t), s) => some ((b1 || b2, t), s)

end Sys2Proof.Machine
end

