-- ==== Sys2Proof/Machine/Audio.lean ====
section
/-! DEFINITION. Sound: ramps, tone channels, voices, triggers, presets, sends and TDM ports as their commands change
them (12_sound.md R293-R323). What a sample boundary computes stands in Mix.lean. -/

namespace Sys2Proof.Machine

/-- The state with the sound unit changed by `f`. -/
def State.modAud (s : State) (f : AudS → AudS) : State := { s with aud := f s.aud }

/-! ### Ramps (R298) -/

/-- The value a ramp last produced. -/
def Ramp.val (r : Ramp) : Int :=
  if r.k = 0 then r.g0 else if r.n ≤ r.k then r.g1 else r.g0 + ((r.g1 - r.g0) * r.k).tdiv r.n

/-- The ramp has produced its last value. -/
def Ramp.ended (r : Ramp) : Bool := decide (0 < r.k) && decide (r.n ≤ r.k)

/-- The ramp at a boundary at time `t`. -/
def Ramp.step (t : Nat) (r : Ramp) : Ramp := if r.start ≤ t ∧ !r.ended then { r with k := r.k + 1 } else r

/-- A ramp from the value `r` last produced to `g` over `n` samples, from boundaries at `t` on. -/
def Ramp.to (r : Ramp) (g : Int) (n t : Nat) : Ramp := { g0 := r.val, g1 := g, n := n, start := t }

/-- A ramp that has ended at `g`. -/
def rampAt (g : Int) : Ramp := { g0 := g, g1 := g, k := 1 }

/-- RAMP of a source: values below 48 act as 48 (R310). -/
def State.srcRamp (s : State) (src : Nat) : Nat := max 48 (s.rd (F.AUD_Ss_RAMP.RAMP src))

/-- The gain a source's GAIN ramps to: tone channels, voices, buses (R297, R318). -/
def State.gainGoal (s : State) (src : Nat) : Int :=
  if src < 64 then s.rd (F.AUD_Tc_GAIN.GAIN src)
  else if src < 448 then s.rd (F.AUD_Vv_GAIN.GAIN (src - 64))
  else if src < 512 then 0x4000
  else if s.on (F.AUD_Bb_CTRL.MUTE (src - 512)) then 0 else s.rd (F.AUD_Bb_GAIN.GAIN (src - 512))

/-- The ramp of a source's gain. -/
def State.gainRamp (s : State) (src : Nat) : Ramp :=
  match Tbl.find s.aud.gains src with
  | some r => r
  | none => rampAt (s.gainGoal src)

/-- A register that sets a source's gain changes by `f`: the gain ramps to its new goal (R298, R310, R318). -/
def State.gainChange (s : State) (src : Nat) (f : State → State) : State :=
  let r := s.gainRamp src
  let was := s.gainGoal src
  let s := f s
  let n := if 512 ≤ src then max 48 (s.rd (F.AUD_Bb_GAIN.RAMP (src - 512))) else s.srcRamp src
  let goal := s.gainGoal src
  if goal = was then s else s.modAud (fun a => { a with gains := a.gains.put src (r.to goal n (s.now + 1)) })

/-! ### Voices and tone channels (R303, R304) -/

def State.toneS (s : State) (c : Nat) : ToneS := Tbl.get {} s.aud.tone c
def State.modTone (s : State) (c : Nat) (f : ToneS → ToneS) : State :=
  s.modAud (fun a => { a with tone := Tbl.set {} a.tone c (f (Tbl.get {} a.tone c)) })
def State.voiceS (s : State) (v : Nat) : VoiceS := Tbl.get {} s.aud.voice v
def State.modVoice (s : State) (v : Nat) (f : VoiceS → VoiceS) : State :=
  s.modAud (fun a => { a with voice := Tbl.set {} a.voice v (f (Tbl.get {} a.voice v)) })

/-- A 32-byte block of samples, from the voice's buffer or from memory; an error leaves it without content (R305). -/
def State.voiceBlk (s : State) (v blk : Nat) : List Byte × State :=
  match Tbl.find (s.voiceS v).buf blk with
  | some bs => (bs, s)
  | none =>
    let keep := fun (s : State) (bs : List Byte) => s.modVoice v (fun x => { x with buf := Tbl.put x.buf blk bs })
    match s.busRead 0x83 (32 * blk % 2 ^ 40) 32 with
    | (.ok bs, s) => (bs, keep s bs)
    | (.wait, s) => ([], s)
    | (_, s) => ([], keep s [])

/-- The address and the number of the bytes that sample `i` of a voice comes from (R301). -/
def State.voiceAt (s : State) (v i : Nat) : Nat × Nat :=
  let a := s.rd (F.AUD_Vv_ADDR_LO.ADDR_LO v) + s.rd (F.AUD_Vv_ADDR_HI.ADDR_HI v) * 2 ^ 32
  if s.rd (F.AUD_Vv_CTRL.FMT v) = 0 then (a + 2 * i, 2) else (a + 32 * (i / 56), 32)

/-- The blocks that a voice holds at sample `i`: those of the sample and of the 64 bytes after it, up to the end of its
samples, and past the end of a loop those of the loop's start (R305, log 57). -/
def State.voiceAhead (s : State) (v i : Nat) : List Nat :=
  let len := s.rd (F.AUD_Vv_LEN.LEN v)
  if len ≤ i then []
  else
    let (z, m) := s.voiceAt v (len - 1)
    let last := (z + m - 1) / 32
    let from_ := fun (j : Nat) =>
      let (a, n) := s.voiceAt v j
      ((List.range ((a + n + 63) / 32 + 1 - a / 32)).map (fun k => a / 32 + k)).filter (fun b => decide (b ≤ last))
    let own := from_ i
    let (a, n) := s.voiceAt v i
    let wraps := s.on (F.AUD_Vv_CTRL.LOOP v) && decide (last < (a + n + 63) / 32)
    own ++ (if wraps then (from_ (s.rd (F.AUD_Vv_LOOP_START.START v))).filter (fun b => !own.contains b) else [])

/-- A voice reads ahead of its position (R305). -/
def State.voicePre (s : State) (v : Nat) : State :=
  let l := s.voiceAhead v ((s.voiceS v).pos / 65536)
  let s := s.modVoice v (fun x => { x with buf := x.buf.filter (fun e => l.contains e.1) })
  l.foldl (fun s b => (s.voiceBlk v b).2) s

/-- ENABLE of a voice becomes 1 by an event at time `t` (R304, R53): a voice that starts reads ahead (R305). -/
def State.voiceOn (s : State) (v t : Nat) : State :=
  let s := s.wr (F.AUD_Vv_CTRL.ENABLE v) 1
  if s.rd (F.AUD_Vv_CTRL.STATE v) = 0
  then ((s.wr (F.AUD_Vv_CTRL.STATE v) 1).modVoice v (fun x =>
    { x with start := t + 1, env := {}, pos := 0, buf := [] })).voicePre v
  else s

/-- ENABLE of a voice becomes 0: a running voice begins its release ramp (R303, R304). -/
def State.voiceOff (s : State) (v t : Nat) : State :=
  let s := s.wr (F.AUD_Vv_CTRL.ENABLE v) 0
  if s.rd (F.AUD_Vv_CTRL.STATE v) = 2
  then (s.wr (F.AUD_Vv_CTRL.STATE v) 3).modVoice v (fun x =>
    { x with env := x.env.to 0 (s.rd (F.AUD_Vv_ENV.RELEASE v)) (t + 1) })
  else s

/-- KILL of a voice (R303, R304): 48 samples from the current env; `next`: the preset it then starts with (R307). -/
def State.voiceKill (s : State) (v t : Nat) (next : Option (List Byte)) : State :=
  if s.rd (F.AUD_Vv_CTRL.STATE v) = 0 then s
  else
    let s := ((s.wr (F.AUD_Vv_CTRL.ENABLE v) 0).arrive 11 v).wr (F.AUD_Vv_CTRL.STATE v) 3
    s.modVoice v (fun x => { x with env := x.env.to 0 48 (t + 1), next := next })

/-- ENABLE of a tone channel becomes 1 (R304): its LFSR is seeded when it starts (R299). -/
def State.toneOn (s : State) (c : Nat) : State :=
  let s := s.wr (F.AUD_Tc_CTRL.ENABLE c) 1
  if s.rd (F.AUD_Tc_CTRL.STATE c) = 0
  then (s.wr (F.AUD_Tc_CTRL.STATE c) 1).modTone c (fun x => { x with start := s.now + 1, env := {}, lfsr := 0x7FFFFF })
  else s

/-- ENABLE of a tone channel becomes 0 (R304). -/
def State.toneOff (s : State) (c : Nat) : State :=
  let s := s.wr (F.AUD_Tc_CTRL.ENABLE c) 0
  if s.rd (F.AUD_Tc_CTRL.STATE c) = 2
  then (s.wr (F.AUD_Tc_CTRL.STATE c) 3).modTone c (fun x =>
    { x with env := x.env.to 0 (s.rd (F.AUD_Tc_ENV.RELEASE c)) (s.now + 1) })
  else s

/-- KILL of a tone channel (R304). -/
def State.toneKill (s : State) (c : Nat) : State :=
  if s.rd (F.AUD_Tc_CTRL.STATE c) = 0 then s
  else
    let s := ((s.wr (F.AUD_Tc_CTRL.ENABLE c) 0).arrive 11 (384 + c)).wr (F.AUD_Tc_CTRL.STATE c) 3
    s.modTone c (fun x => { x with env := x.env.to 0 48 (s.now + 1) })

/-- A write of a tone channel's CTRL: the settings, then ENABLE, then KILL (R304). ENABLE = 1 in the cycle of a hardware
ENABLE = 0 leaves it 0. -/
def State.toneCtrlWrite (s : State) (c v : Nat) : State :=
  let v := if s.arrived 11 (384 + c) then putBits v 0 1 0 else v
  let en := s.rd (F.AUD_Tc_CTRL.ENABLE c)
  let s := s.writeByCode (R.AUD_Tc_CTRL c) (putBits v 0 1 en)
  let s := if v.testBit 0 then s.toneOn c else s.toneOff c
  if v.testBit 1 then s.toneKill c else s

/-- A write that the voice refuses (R304). -/
def State.voiceReject (s : State) (v : Nat) : State := s.flag (F.AUD_Vv_STATUS.CFG_REJECT v) 130

/-- A write of a voice's CTRL (R304): FMT is honoured only while OFF; ENABLE = 1 in the cycle of a hardware ENABLE = 0
leaves it 0. -/
def State.voiceCtrlWrite (s : State) (v w : Nat) : State :=
  let w := if s.arrived 11 v then putBits w 0 1 0 else w
  let old := s.reg (R.AUD_Vv_CTRL v)
  let off := s.rd (F.AUD_Vv_CTRL.STATE v) = 0
  let bad := !off && bitsOf w 4 1 != bitsOf old 4 1
  let s := s.writeByCode (R.AUD_Vv_CTRL v) (putBits (putBits w 0 1 old) 4 1 (if bad then bitsOf old 4 1 else bitsOf w 4 1))
  let s := if bad then s.voiceReject v else s
  let s := if w.testBit 0 then s.voiceOn v s.now else s.voiceOff v s.now
  if w.testBit 1 then s.voiceKill v s.now none else s

/-- A write of ADDR_LO, ADDR_HI or LEN of a voice, honoured only while OFF (R304). -/
def State.voiceOffWrite (s : State) (v o w : Nat) : State :=
  if s.rd (F.AUD_Vv_CTRL.STATE v) = 0 then s.writeByCode o w else s.voiceReject v

/-! ### Sends (R309-R313) -/

def State.sendS (s : State) (i : Nat) : SendS := Tbl.get {} s.aud.send i
def State.modSend (s : State) (i : Nat) (f : SendS → SendS) : State :=
  s.modAud (fun a => { a with send := Tbl.set {} a.send i (f (Tbl.get {} a.send i)) })

/-- The source is OFF; inputs and buses never are (R312). -/
def State.srcOff (s : State) (src : Nat) : Bool :=
  if src < 64 then s.rd (F.AUD_Tc_CTRL.STATE src) == 0
  else if src < 448 then s.rd (F.AUD_Vv_CTRL.STATE (src - 64)) == 0 else false

/-- The ramp of send `k`'s gain. -/
def State.sendRamp (s : State) (src k : Nat) : Ramp :=
  match (s.sendS (4 * src + k)).gain with
  | some r => r
  | none => rampAt (s.rd (F.AUD_Ss_SENDk.GAIN src k))

/-- AUD_STATUS.CFG_REJECT. -/
def State.audReject (s : State) : State := s.flag F.AUD_STATUS.CFG_REJECT 130

/-- A write of SENDk of a source (R309, R312): GAIN ramps from the write; BUS and EN wait for the tick unless the
source is OFF or ticks are stopped (R24). -/
def State.sendWrite (s : State) (src k v : Nat) : State :=
  if 512 ≤ src ∧ bitsOf v 0 5 ≤ src - 512 then s.audReject
  else
    let r := s.sendRamp src k
    let was := s.rd (F.AUD_Ss_SENDk.GAIN src k)
    let goal := bitsOf v 16 16
    let old := s.reg (R.AUD_Ss_SENDk src k)
    let s := (s.setReg (R.AUD_Ss_SENDk src k) (v &&& 0xFFFF009F)).rwsNote (R.AUD_Ss_SENDk src k) old
    let n := s.srcRamp src
    let s := if goal = was then s
      else s.modSend (4 * src + k) (fun x => { x with gain := some (r.to goal n (s.now + 1)) })
    if s.srcOff src || !s.running
    then s.modSend (4 * src + k) (fun x => { x with bus := bitsOf v 0 5, en := v.testBit 7 }) else s

/-- The route of one send at a tick (R312, R313), which does not take a write of its own cycle yet (R18). -/
def State.routeTick (s : State) (src k : Nat) : State :=
  let x := s.sendS (4 * src + k)
  let bus := s.act (F.AUD_Ss_SENDk.BUS src k)
  let en := s.actOn (F.AUD_Ss_SENDk.EN src k)
  if (bus = x.bus ∧ en = x.en) ∨ (!en ∧ !x.en) then s.modSend (4 * src + k) (fun x => { x with bus := bus })
  else if (x.fades.filter (fun f => !f.2.ended)).length ≥ 2 then s.flag (F.AUD_Ss_RAMP.ROUTE_HELD src) 130
  else
    let n := s.srcRamp src
    let cur := s.sendRamp src k
    let old := x.fades.map (fun f => (f.1, f.2.to 0 n s.now))
    let fades := if x.en then old ++ [(x.bus, cur.to 0 n s.now)] else old
    let g : Option Ramp := if en then some { g1 := s.rd (F.AUD_Ss_SENDk.GAIN src k), n := n, start := s.now } else none
    s.modSend (4 * src + k) (fun x => { x with bus := bus, en := en, fades := fades, gain := g })

/-- The sends whose register or route in force differs from reset: (source, k). -/
def State.sendList (s : State) : List (Nat × Nat) :=
  let a := (s.regs.filter (fun e => Nat.ble 0x810000 e.1 && Nat.blt e.1 0x814400 && Nat.blt (e.1 % 32) 16)).map
    (fun e => ((e.1 - 0x810000) / 32, (e.1 - 0x810000) % 32 / 4))
  let b := s.aud.send.map (fun e => (e.1 / 4, e.1 % 4))
  a ++ b.filter (fun e => !a.contains e)

/-! ### Triggers and presets (R306-R308) -/

/-- An AUD_TRIG is queued before the SNDs that arrived in the same ECLK (R308). -/
def trigInsert (e : TrigS) : List TrigS → List TrigS
  | [] => [e]
  | x :: t => if x.line.isNone && x.t == e.t && x.snd then e :: x :: t else x :: trigInsert e t

/-- A write of AUD_TRIG (R308). -/
def State.audTrig (s : State) (v : Nat) : State :=
  let voice := bitsOf v 0 9
  let action := bitsOf v 9 3
  if 384 ≤ voice ∨ 3 ≤ action then s.audReject
  else
    let e : TrigS := { t := s.now, voice := voice, action := action, preset := bitsOf v 16 16 }
    s.modAud (fun a => { a with trig := trigInsert e a.trig })

/-- An SND start is read into a line-list buffer: its preset is to be read (R307). -/
def State.sndAhead (s : State) (n k voice preset : Nat) : State :=
  s.modAud (fun a => { a with trig := a.trig ++ [{ line := some (n, k), snd := true, voice := voice, preset := preset }] })

/-- An SND fires at its line tick (R34, R307): it now waits for the next boundary. A start whose preset could not be read has
been dropped. -/
def State.sndFire (s : State) (n k voice action preset : Nat) : State :=
  let hit := fun (e : TrigS) => e.line == some (n, k) && e.voice == voice && e.preset == preset
  let e : TrigS := match s.aud.trig.find? hit with
    | some e => if action = 0 then e else {}
    | none => {}
  let new : TrigS := { e with line := none, snd := true, t := s.now, voice := voice, action := action, preset := preset }
  s.modAud (fun a => { a with
    trig := (if action = 0 then a.trig.eraseP hit else a.trig) ++ (if e.failed then [] else [new]) })

/-- SNDs of engine `n` that never fire are forgotten (R69). -/
def State.sndDrop (s : State) (n : Nat) : State :=
  s.modAud (fun a => { a with trig := a.trig.filter (fun e => match e.line with
    | some l => l.1 != n
    | none => true) })

/-- A start whose preset is still to be read (R306). -/
def TrigS.open_ (e : TrigS) : Bool := e.action == 0 && e.data.isNone && !e.failed

/-- The oldest start whose preset is still to be read meets an error: it is dropped, one bound to a line when that line comes
(R307). -/
def State.presetFail (s : State) : State :=
  match s.aud.trig.find? TrigS.open_ with
  | none => s
  | some e => (s.modAud (fun a => { a with
      trig := if e.line.isSome then a.trig.map (fun x => if x == e then { e with failed := true } else x)
              else a.trig.eraseP TrigS.open_ })).audReject

/-- The oldest start whose preset is not yet read is read (R306, R307). -/
def State.presetRead (s : State) : State :=
  match s.aud.trig.find? TrigS.open_ with
  | none => s
  | some e =>
    match s.busRead 0x83 ((s.reg R.AUD_PRESET_BASE * 256 + 64 * e.preset) % 2 ^ 40) 64 with
    | (.ok bs, s) =>
      let e2 := { e with data := some bs, readAt := s.now }
      s.modAud (fun a => { a with trig := a.trig.map (fun x => if x == e then e2 else x) })
    | (.wait, s) => s
    | (_, s) => s.presetFail

/-- A preset is loaded into a voice that is OFF, and the voice starts (R306, R307); the event fell at time `t`. -/
def State.presetStart (s : State) (v t : Nat) (p : List Byte) : State :=
  let w := leAt p 0 4
  let s := s.setReg (R.AUD_Vv_CTRL v) (putBits (s.reg (R.AUD_Vv_CTRL v)) 4 2 w)
  let s := (s.setReg (R.AUD_Vv_ADDR_LO v) (leAt p 4 4)).setReg (R.AUD_Vv_ADDR_HI v) (leAt p 8 1)
  let s := (s.setReg (R.AUD_Vv_LEN v) (leAt p 0xC 4)).setReg (R.AUD_Vv_LOOP_START v) (leAt p 0x10 4)
  let s := (s.wr (F.AUD_Vv_PITCH.PITCH v) (leAt p 0x14 4)).setReg (R.AUD_Vv_ENV v) (leAt p 0x18 4)
  let s := s.wr (F.AUD_Ss_RAMP.RAMP (64 + v)) (leAt p 0x1E 2)
  let s := s.gainChange (64 + v) (fun s => s.wr (F.AUD_Vv_GAIN.GAIN v) (leAt p 0x1C 2))
  let s := (List.range 4).foldl (fun s k => s.sendWrite (64 + v) k (leAt p (0x20 + 4 * k) 4)) s
  s.voiceOn v t

/-- A trigger acts on its voice (R307). -/
def State.trigAct (s : State) (e : TrigS) : State :=
  let st := s.rd (F.AUD_Vv_CTRL.STATE e.voice)
  match e.action with
  | 0 =>
    match e.data with
    | none => s.audReject
    | some p => if st = 0 then s.presetStart e.voice e.t p else s.voiceKill e.voice e.t (some p)
  | 1 => if st = 1 ∨ st = 2 then (s.voiceOff e.voice e.t).arrive 11 e.voice else s
  | _ => s.voiceKill e.voice e.t none

/-- At a boundary at `t` the triggers that have arrived act in order; an AUD_TRIG start waits for its preset, an SND
start does not (R307, R308). -/
def State.trigAll (s : State) (t : Nat) : State :=
  let ready := fun (e : TrigS) => e.line.isNone && decide (e.t < t) &&
    (e.action != 0 || e.snd || (e.data.isSome && decide (e.readAt < t)))
  let go := s.aud.trig.filter ready
  go.foldl State.trigAct (s.modAud (fun a => { a with trig := a.trig.filter (fun e => !ready e) }))

/-! ### Buses (R315, R316) -/

def State.busS (s : State) (b : Nat) : BusS := Tbl.get {} s.aud.bus b
def State.modBus (s : State) (b : Nat) (f : BusS → BusS) : State :=
  s.modAud (fun a => { a with bus := Tbl.set {} a.bus b (f (Tbl.get {} a.bus b)) })

/-- A write of APPLY (R315). -/
def State.eqApply (s : State) (b mask : Nat) : State :=
  s.modBus b (fun x => { x with apply := x.apply ||| (mask % 256), applyAt := s.now + 1 })

/-- A write of a bus's CTRL (R314, R315, R318). -/
def State.busCtrlWrite (s : State) (b v : Nat) : State :=
  let was := s.on (F.AUD_Bb_CTRL.DLY_EN b)
  let s := s.gainChange (512 + b) (fun s => s.writeByCode (R.AUD_Bb_CTRL b) v)
  let s := if bitsOf v 8 8 = 0 then s else s.eqApply b (bitsOf v 8 8)
  if s.on (F.AUD_Bb_CTRL.DLY_EN b) && !was
  then
    let (i, s) := s.free
    s.modBus b (fun x => { x with dlyIx := some (i % 96000), tap := min 96000 (s.rd (F.AUD_Bb_DLY.DLY b)),
                                  fade := none, dlyNew := none })
  else s

/-- A write of DLY: the tap crossfades from the next boundary (R316). -/
def State.dlyWrite (s : State) (b v : Nat) : State :=
  let s := s.writeByCode (R.AUD_Bb_DLY b) v
  s.modBus b (fun x => { x with dlyNew := some (min 96000 (s.rd (F.AUD_Bb_DLY.DLY b)), s.now + 1) })

/-- A write of DLY_BASE, honoured only while DLY_EN = 0 (R316). -/
def State.dlyBaseWrite (s : State) (b v : Nat) : State :=
  if s.on (F.AUD_Bb_CTRL.DLY_EN b) then s.audReject else s.writeByCode (R.AUD_Bb_DLY_BASE b) v

/-! ### TDM ports (R319-R323) -/

def State.outS (s : State) (p : Nat) : OutS := Tbl.get {} s.aud.out p
def State.modOut (s : State) (p : Nat) (f : OutS → OutS) : State :=
  s.modAud (fun a => { a with out := Tbl.set {} a.out p (f (Tbl.get {} a.out p)) })
def State.inS (s : State) (i : Nat) : InS := Tbl.get {} s.aud.inp i
def State.modIn (s : State) (i : Nat) (f : InS → InS) : State :=
  s.modAud (fun a => { a with inp := Tbl.set {} a.inp i (f (Tbl.get {} a.inp i)) })

/-- An output port begins to start, or to stop, as ENABLE and STATE say (R53, R322). -/
def State.outFollow (s : State) (p : Nat) : State :=
  let st := s.rd (F.AUD_Op_CTRL.STATE p)
  if st = 0 ∧ s.on (F.AUD_Op_CTRL.ENABLE p) then
    (s.wr (F.AUD_Op_CTRL.STATE p) 1).modOut p (fun x =>
      { x with cnt := 0, start := s.now + 1, gain := rampAt 0, hist := [] })
  else if st = 2 ∧ !s.on (F.AUD_Op_CTRL.ENABLE p) then
    (s.wr (F.AUD_Op_CTRL.STATE p) 3).modOut p (fun x =>
      { x with cnt := 0, start := s.now + 1, gain := x.gain.to 0 48 (s.now + 1) })
  else s

/-- A write of an output port's CTRL (R322): PDELAY only while OFF, at most 9,600. -/
def State.outCtrlWrite (s : State) (p v : Nat) : State :=
  let old := s.rd (F.AUD_Op_CTRL.PDELAY p)
  let bad := bitsOf v 16 14 != old && (s.rd (F.AUD_Op_CTRL.STATE p) != 0 || decide (9600 < bitsOf v 16 14))
  let s := s.writeByCode (R.AUD_Op_CTRL p) (if bad then putBits v 16 14 old else v)
  let s := if bad then s.flag (F.AUD_Op_CTRL.CFG_REJECT p) 130 else s
  s.outFollow p

/-- Bits of WIDTH and DATA codes (R320). -/
def tdmBits (c : Nat) : Nat := if c = 0 then 16 else if c = 1 then 24 else 32

/-- A write of a TDM port's FMT, honoured only while OFF and with DATA at most WIDTH (R320); `st` and `rej` are its
STATE and CFG_REJECT. -/
def State.tdmFmtWrite (s : State) (o v : Nat) (st rej : Fld) : State :=
  if s.rd st ≠ 0 ∨ tdmBits (bitsOf v 6 2) < tdmBits (bitsOf v 8 2) then s.flag rej 130 else s.writeByCode o v

/-- An input port begins to start or to stop as ENABLE and STATE say (R53, R323). -/
def State.inFollow (s : State) (i : Nat) : State :=
  let st := s.rd (F.AUD_Ip_CTRL.STATE i)
  if st = 0 ∧ s.on (F.AUD_Ip_CTRL.ENABLE i) then
    (s.wr (F.AUD_Ip_CTRL.STATE i) 1).modIn i (fun _ => { gain := rampAt 0 })
  else if st = 2 ∧ !s.on (F.AUD_Ip_CTRL.ENABLE i) then
    (s.wr (F.AUD_Ip_CTRL.STATE i) 3).modIn i (fun x => { x with gain := x.gain.to 0 48 (s.now + 1) })
  else s

/-- A write of an input port's CTRL (R323). -/
def State.inCtrlWrite (s : State) (i v : Nat) : State := (s.writeByCode (R.AUD_Ip_CTRL i) v).inFollow i

/-- A slot word of an input frame as a 24-bit sample (R319, log 8). -/
def slotIn (data w : Nat) : Int :=
  if data = 0 then sext 16 w * 256 else if data = 1 then sext 24 w else sext 32 w / 256

/-- Pin `p` carries its clock, sync or data to an input port: function 4, in force and not held in Standby; an input that no
pin feeds stands at 0 (R379, R381, R382, R388). -/
def State.tdmFed (s : State) (p : Nat) : Bool :=
  s.rd (F.PMX_PINp.FUNC p) == 4 && !s.on F.GPIO_SBY_CTRL.HELD && (match (Tbl.get ({} : PinS) s.pin p).mux with
    | some m => decide (m.1 ≤ s.now)
    | none => true)

/-- `w` intervals that took `t` ECLK have the rate of `n` intervals that took `r`, to one part in `k` and the ECLK grain of
the measurement (R323, log 57). -/
def sameRate (w t n r k : Nat) : Bool := decide ((t * n - w * r) * k ≤ w * r + k * n) && decide ((w * r - t * n) * k ≤ w * r + k * n)

/-- An input frame completes at the pins (R323): its clock and sync must be fed, and data that no pin feeds reads 0. -/
def State.inFrame (s : State) (i : Nat) (vals : List Nat) : State :=
  if s.rd (F.AUD_Ip_CTRL.STATE i) = 0 || !s.tdmFed (24 + 3 * i) || !s.tdmFed (25 + 3 * i) then s
  else
    let x := s.inS i
    let vals := if s.tdmFed (26 + 3 * i) then vals.take 16 else (vals.take 16).map (fun _ => 0)
    let frames := (s.now, vals) :: x.frames.take 255
    match x.frames with
    | [] => s.modIn i (fun x => { x with frames := frames })
    | f :: _ =>
      let d := s.now - f.1
      let w := min x.frames.length (x.run + 1)
      let t := s.now - (x.frames.getD (w - 1) f).1
      let fits := Nat.ble 3124 d && Nat.ble d 75001
      if s.on (F.AUD_Ip_CTRL.LOCK i) then
        s.modIn i (fun x => { x with frames := frames, moved := x.moved || !sameRate w t x.run x.ref 1000 || !fits })
      else if fits && x.run != 0 && sameRate w t x.run x.ref 10000
      then s.modIn i (fun x => { x with frames := frames, run := x.run + 1, ref := x.ref + d })
      else s.modIn i (fun x => { x with frames := frames, ref := if fits then d else 0, run := if fits then 1 else 0 })

/-- The input rate has held for 8,192 frames: LOCK (R323). -/
def State.inLock (s : State) (i : Nat) : State :=
  if s.rd (F.AUD_Ip_CTRL.STATE i) = 1 ∧ 8192 ≤ (s.inS i).run then
    let s := (s.wr (F.AUD_Ip_CTRL.LOCK i) 1).wr (F.AUD_Ip_CTRL.STATE i) 2
    (s.modIn i (fun x => { x with moved := false, gain := x.gain.to 0x4000 480 (s.now + 1) })).inFollow i
  else s

/-- The input port loses lock (R323): no frame for 1 ms, or a move of its rate by more than 1,000 ppm. Its channels ramp to 0,
and then LOCK clears. -/
def State.inUnlock (s : State) (i : Nat) : State :=
  if !s.on (F.AUD_Ip_CTRL.LOCK i) || (s.inS i).losing then s
  else
    let x := s.inS i
    let s := if x.moved then s else match x.frames with
      | [] => s
      | f :: _ => s.reach (f.1 + msT)
    s.modIn i (fun x => { x with losing := true, gain := x.gain.to 0 48 (s.now + 1) })

/-- A write of AUD_SPF (R293): outside its limits it is ignored. -/
def State.spfWrite (s : State) (v : Nat) : State :=
  let num := bitsOf v 12 8
  let den := bitsOf v 20 8
  if bitsOf v 0 12 < 200 ∨ 2002 < bitsOf v 0 12 ∨ ¬(num < den ∨ (num = 0 ∧ den = 0)) then s.audReject
  else (s.writeByCode R.AUD_SPF v).modAud (fun a =>
    { a with spf := some (match a.spf with
                          | some e => (e.1, s.now)
                          | none => (s.now, s.now)) })

/-- A read of AUD_SCNT_LO latches the high half (R296). -/
def State.scntRead (s : State) : Nat × State :=
  (s.aud.scnt % 2 ^ 32, s.modAud (fun a => { a with scntHi := a.scnt / 2 ^ 32 }))

/-! ### Meanings -/

/-- VOICE_ENABLE (R304): a write of CTRL that sets or clears ENABLE. -/
def execVoiceEnable (v w : Nat) (s : State) : Host.Outcome State Fault Refusal := done (s.voiceCtrlWrite v w)

/-- VOICE_KILL (R304): a write of CTRL with KILL = 1. -/
def execVoiceKill (v : Nat) (s : State) : Host.Outcome State Fault Refusal :=
  done (s.voiceCtrlWrite v (s.reg (R.AUD_Vv_CTRL v) ||| 2))

/-- TONE_ENABLE (R304). -/
def execToneEnable (c v : Nat) (s : State) : Host.Outcome State Fault Refusal := done (s.toneCtrlWrite c v)

/-- TONE_KILL (R304). -/
def execToneKill (c : Nat) (s : State) : Host.Outcome State Fault Refusal :=
  done (s.toneCtrlWrite c (s.reg (R.AUD_Tc_CTRL c) ||| 2))

/-- PRESET_READ (R306, R307). -/
def execPresetRead (s : State) : Host.Outcome State Fault Refusal := done s.presetRead

/-- AUD_TRIG_START (R308). -/
def execAudTrigStart (voice preset : Nat) (s : State) : Host.Outcome State Fault Refusal :=
  done (s.audTrig (voice % 512 + preset * 2 ^ 16))

/-- AUD_TRIG_RELEASE (R308). -/
def execAudTrigRelease (voice : Nat) (s : State) : Host.Outcome State Fault Refusal :=
  done (s.audTrig (voice % 512 + 2 ^ 9))

/-- AUD_TRIG_STOP (R308). -/
def execAudTrigStop (voice : Nat) (s : State) : Host.Outcome State Fault Refusal :=
  done (s.audTrig (voice % 512 + 2 ^ 10))

/-- SEND_WRITE (R309, R312). -/
def execSendWrite (src k v : Nat) (s : State) : Host.Outcome State Fault Refusal := done (s.sendWrite src k v)

/-- EQ_APPLY (R315): a write of CTRL with APPLY = `mask`. -/
def execEqApply (b mask : Nat) (s : State) : Host.Outcome State Fault Refusal :=
  done (s.busCtrlWrite b (putBits (s.reg (R.AUD_Bb_CTRL b)) 8 8 mask))

/-- TDM_OUT_ENABLE (R322): a write of an output port's CTRL. -/
def execTdmOutEnable (p v : Nat) (s : State) : Host.Outcome State Fault Refusal := done (s.outCtrlWrite p v)

/-- TDM_IN_ENABLE (R323): a write of an input port's CTRL. -/
def execTdmInEnable (i v : Nat) (s : State) : Host.Outcome State Fault Refusal := done (s.inCtrlWrite i v)

/-- TDM_IN_FRAME (R323). -/
def execTdmInFrame (i : Nat) (vals : List Nat) (s : State) : Host.Outcome State Fault Refusal := done (s.inFrame i vals)

/-- TDM_IN_LOCK (R323). -/
def execTdmInLock (i : Nat) (s : State) : Host.Outcome State Fault Refusal := done (s.inLock i)

/-- IN_UNLOCK (R323). -/
def execInUnlock (i : Nat) (s : State) : Host.Outcome State Fault Refusal := done (s.inUnlock i)

end Sys2Proof.Machine
end

