-- ==== Sys2Proof/Machine/Blitter.lean ====
section
/-! DEFINITION. The blitter (09_blitter.md R240-R258). -/

namespace Sys2Proof.Machine

/-! ### Commands and their geometry -/

/-- Word `i` of a command. -/
def bltW (w : List Nat) (i : Nat) : Nat := w.getD i 0

/-- The fields of word 0 (R244). -/
def bltOp (w : List Nat) : Nat := bitsOf (bltW w 0) 0 4
def bltFmt (w : List Nat) : Nat := bitsOf (bltW w 0) 4 2
def bltSrck (w : List Nat) : Nat := bitsOf (bltW w 0) 6 2
def bltRop (w : List Nat) : Nat := bitsOf (bltW w 0) 16 8
def bltFence (w : List Nat) : Nat := bitsOf (bltW w 0) 24 6
def bltBit (w : List Nat) (i : Nat) : Bool := (bltW w 0).testBit i

/-- B of R246. -/
def bltB (w : List Nat) : Nat := 2 ^ bltFmt w

/-- S, P and D are used (R247). -/
def ropUsesS (rop : Nat) : Bool := (rop ^^^ (rop >>> 2)) &&& 0x33 != 0
def ropUsesP (rop : Nat) : Bool := (rop ^^^ (rop >>> 4)) &&& 0x0F != 0
def ropUsesD (rop : Nat) : Bool := (rop ^^^ (rop >>> 1)) &&& 0x55 != 0

/-- A surface source that the ROP uses (R247). -/
def bltSurf (w : List Nat) : Bool := bltSrck w == 1 && ropUsesS (bltRop w)

/-- A mono source that the ROP or S_TR uses (R247, R248). -/
def bltMono (w : List Nat) : Bool := bltSrck w == 2 && (ropUsesS (bltRop w) || bltBit w 9)

/-- The fields of words 1-17 (R244). -/
def bltDst (w : List Nat) : Nat := bltW w 1 + bitsOf (bltW w 2) 0 8 * 2 ^ 32
def bltDPitch (w : List Nat) : Nat := bitsOf (bltW w 2) 16 16 * 16
def bltDX (w : List Nat) : Nat := bitsOf (bltW w 3) 0 14
def bltDY (w : List Nat) : Nat := bitsOf (bltW w 3) 16 14
def bltWid (w : List Nat) : Nat := bitsOf (bltW w 4) 0 14 + 1
def bltHgt (w : List Nat) : Nat := bitsOf (bltW w 4) 16 14 + 1
def bltSrc (w : List Nat) : Nat := bltW w 5 + bitsOf (bltW w 6) 0 8 * 2 ^ 32
def bltSPitch (w : List Nat) : Nat := bitsOf (bltW w 6) 16 16 * 16
def bltSX (w : List Nat) : Nat := bitsOf (bltW w 7) 0 14
def bltSY (w : List Nat) : Nat := bitsOf (bltW w 7) 16 14
def bltWmLine (w : List Nat) : Nat := bitsOf (bltW w 17) 0 14

/-- First column, columns, first row and rows of the rectangle inside the clip (R248). -/
def bltClip (w : List Nat) : Nat × Nat × Nat × Nat :=
  let x0 := bltDX w
  let x1 := bltDX w + bltWid w
  let y0 := bltDY w
  let y1 := bltDY w + bltHgt w
  if bltBit w 11 then
    let a := max x0 (bitsOf (bltW w 15) 0 14)
    let b := min x1 (bitsOf (bltW w 15) 16 14 + 1)
    let c := max y0 (bitsOf (bltW w 16) 0 14)
    let d := min y1 (bitsOf (bltW w 16) 16 14 + 1)
    if a < b ∧ c < d then (a, b - a, c, d - c) else (x0, 0, y0, 0)
  else (x0, x1 - x0, y0, y1 - y0)

/-- Source and destination are the same surface (R250). -/
def bltSame (w : List Nat) : Bool := bltSurf w && bltDst w == bltSrc w && bltDPitch w == bltSPitch w

/-- Rows run bottom to top (R250). -/
def bltUp (w : List Nat) : Bool := bltSame w && decide (bltSY w < bltDY w)

/-- The byte range of a surface (R251). -/
def bltRange (addr pitch x0 y0 wd h b : Nat) : Nat × Nat :=
  (addr + y0 * pitch + x0 * b, addr + (y0 + h - 1) * pitch + (x0 + wd) * b - 1)

/-- The used source range intersects the destination range (R251). -/
def bltOverlap (w : List Nat) : Bool :=
  let d := bltRange (bltDst w) (bltDPitch w) (bltDX w) (bltDY w) (bltWid w) (bltHgt w) (bltB w)
  let cut := fun r : Nat × Nat => decide (r.1 ≤ d.2) && decide (d.1 ≤ r.2)
  if bltSurf w then
    !bltSame w && cut (bltRange (bltSrc w) (bltSPitch w) (bltSX w) (bltSY w) (bltWid w) (bltHgt w) (bltB w))
  else if bltMono w then
    let x0 := bltSX w / 8
    cut (bltRange (bltSrc w) (bltSPitch w) x0 (bltSY w) ((bltSX w + bltWid w + 7) / 8 - x0) (bltHgt w) 1)
  else false

/-- A reserved bit of words 0-23 is 1 (R244). -/
def bltReserved (w : List Nat) : Bool :=
  let masks : List (Nat × Nat) := [(0, 0xC0008000), (2, 0xFF00), (3, 0xC000C000), (4, 0xC000C000), (6, 0xFF00),
    (7, 0xC000C000), (14, 0xFFFFF8F8), (15, 0xC000C000), (16, 0xC000C000), (17, 0xFFFFC000), (19, 0xFFFFFFFF),
    (20, 0xFFFFFFFF), (21, 0xFFFFFFFF), (22, 0xFFFFFFFF), (23, 0xFFFFFFFF)]
  masks.any (fun p => bltW w p.1 &&& p.2 != 0)

/-- The checks of R252 in the order of their codes; 0 where all pass. -/
def bltCheck (w : List Nat) : Nat :=
  let surf := bltSurf w
  let mono := bltMono w
  let b := bltB w
  if bltOp w ≠ 1 ∨ bltFmt w = 3 ∨ bltSrck w = 3 ∨ bltReserved w then 1
  else if bltDst w % 16 ≠ 0 ∨ ((surf || mono) ∧ bltSrc w % 16 ≠ 0) then 2
  else if bltDPitch w = 0 ∨ bltDPitch w < (bltDX w + bltWid w) * b ∨ ((surf || mono) ∧ bltSPitch w = 0) ∨
      (surf ∧ bltSPitch w < (bltSX w + bltWid w) * b) ∨ (mono ∧ bltSPitch w * 8 < bltSX w + bltWid w) then 3
  else if 16384 < bltDX w + bltWid w ∨ 16384 < bltDY w + bltHgt w ∨
      ((surf || mono) ∧ (16384 < bltSX w + bltWid w ∨ 16384 < bltSY w + bltHgt w)) then 4
  else if bltOverlap w then 5 else 0

/-- One pixel of the raster operation over `nb` bits (R247). -/
def bltRes (rop p s d nb : Nat) : Nat :=
  (List.range nb).foldl (fun r i =>
    let k := (if p.testBit i then 4 else 0) + (if s.testBit i then 2 else 0) + (if d.testBit i then 1 else 0)
    if rop.testBit k then r + 2 ^ i else r) 0

/-- The pattern bit of destination pixel `(x, y)` (R249). -/
def bltPBit (w : List Nat) (x y : Nat) : Bool :=
  let r := (y + bitsOf (bltW w 14) 8 3) % 8
  let row := bitsOf (bltW w (12 + r / 4)) (8 * (r % 4)) 8
  row.testBit (7 - (x + bitsOf (bltW w 14) 0 3) % 8)

/-- Pixel `i` of `b` bytes in a row of bytes. -/
def bltPixAt (bs : List Byte) (b i : Nat) : Nat := leAt bs (b * i) b

/-- The value destination pixel `(x, y)` takes, if it is written (R247, R248). -/
def bltPix (w : List Nat) (srcRow dstRow : List Byte) (m0 x0 x y : Nat) : Option Nat :=
  let b := bltB w
  let i := x - x0
  let mbit := bitsOf (srcRow.getD ((m0 % 8 + i) / 8) 0#8).toNat (7 - (m0 % 8 + i) % 8) 1 != 0
  let pbit := if bltBit w 8 then bltPBit w x y else true
  let skip := (bltBit w 9 && bltSrck w == 2 && !mbit) || (bltBit w 10 && bltBit w 8 && !pbit)
  if skip then none
  else
    let sv := if bltSrck w == 1 then bltPixAt srcRow b i
      else if bltSrck w == 2 then (if mbit then bltW w 8 else bltW w 9) else 0
    let pv := if pbit then bltW w 10 else bltW w 11
    some (bltRes (bltRop w) pv sv (bltPixAt dstRow b i) (8 * b))

/-- Runs of written pixels: first column and bytes. -/
def bltRuns (b x : Nat) : List (Option Nat) → List (Nat × List Byte)
  | [] => []
  | none :: t => bltRuns b (x + 1) t
  | some v :: t => match bltRuns b (x + 1) t with
    | (x1, bs) :: r => if x1 = x + 1 then (x, leBytes b v ++ bs) :: r else (x, leBytes b v) :: (x1, bs) :: r
    | [] => [(x, leBytes b v)]

/-- A read by the blitter at an address modulo 2^40 (R246). -/
def State.bltRead (s : State) (a n : Nat) : BusRes × State :=
  let a := a % 2 ^ 40
  if a + n ≤ 2 ^ 40 then s.busRead 0x80 a n
  else match s.busRead 0x80 a (2 ^ 40 - a) with
    | (.ok x, s) => match s.busRead 0x80 0 (a + n - 2 ^ 40) with
      | (.ok y, s) => (.ok (x ++ y), s)
      | r => r
    | r => r

/-- A write by the blitter at an address modulo 2^40 (R246). -/
def State.bltStore (s : State) (a : Nat) (bs : List Byte) : BusRes × State :=
  let a := a % 2 ^ 40
  if a + bs.length ≤ 2 ^ 40 then s.busWrite 0x80 a bs
  else match s.busWrite 0x80 a (bs.take (2 ^ 40 - a)) with
    | (.ok _, s) => s.busWrite 0x80 0 (bs.drop (2 ^ 40 - a))
    | r => r

/-- Pixels within a row run right to left (R250). -/
def bltLeft (w : List Nat) : Bool := bltSame w && decide (bltSX w < bltDX w)

/-- What became of a row: drawn; it waits for an HBM that is not open (R517); a bus or uncorrectable error (R257). -/
inductive BltRes where
  | drawn | waits | failed
  deriving DecidableEq, Repr

/-- The answer of an access that gave no data. -/
def bltFail : BusRes → BltRes
  | .wait => .waits
  | _ => .failed

/-- The writes of a row in order, up to the first that is not accepted. -/
def State.bltStoreRuns (s : State) (base b : Nat) : List (Nat × List Byte) → BltRes × State
  | [] => (.drawn, s)
  | (x, bs) :: r => match s.bltStore (base + x * b) bs with
    | (.ok _, s) => State.bltStoreRuns s base b r
    | (e, s) => (bltFail e, s)

/-- The writes of a row from its computed pixels: runs from left to right, or pixel by pixel from right to left (R250). -/
def bltWrites (w : List Nat) (x0 : Nat) (px : List (Option Nat)) : List (Nat × List Byte) :=
  if bltLeft w then
    ((List.range px.length).filterMap (fun i => match px.getD i none with
      | some v => some (x0 + i, leBytes (bltB w) v)
      | none => none)).reverse
  else bltRuns (bltB w) x0 px

/-- Destination row `y` of a BLT is read, computed and written. -/
def State.bltRow (s : State) (w : List Nat) (x0 n y : Nat) : BltRes × State :=
  let b := bltB w
  let sx := bltSX w + x0 - bltDX w
  let sy := bltSY w + y - bltDY w
  let srow := bltSrc w + sy * bltSPitch w
  let drow := bltDst w + y * bltDPitch w
  let (r, s) := if bltSurf w then s.bltRead (srow + sx * b) (n * b)
    else if bltMono w then s.bltRead (srow + sx / 8) ((sx + n + 7) / 8 - sx / 8) else (.ok [], s)
  match r with
  | .ok sb =>
    let (r, s) := if ropUsesD (bltRop w) then s.bltRead (drow + x0 * b) (n * b) else (.ok [], s)
    (match r with
    | .ok db => s.bltStoreRuns drow b (bltWrites w x0 ((List.range n).map (fun i => bltPix w sb db sx x0 (x0 + i) y)))
    | e => (bltFail e, s))
  | e => (bltFail e, s)

/-- ECLK a row of `n` pixels takes (R253): 4 + ceil(n / r) with r = min(8, 64 / (b n)), the quotient truncated (R8). -/
def bltRowTime (w : List Nat) (n : Nat) : Nat :=
  let streams := 1 + (if bltSurf w then 1 else 0) + (if ropUsesD (bltRop w) then 1 else 0)
  let r := min 8 (64 / (bltB w * streams))
  4 + (n + r - 1) / r

/-! ### Queues -/

/-- LOG2 as it acts (BLT_Qq_SIZE). -/
def State.bltLog2 (s : State) (q : Nat) : Nat := clampN 4 16 (s.rd (F.BLT_Qq_SIZE.LOG2 q))

/-- The fetched command at HEAD of queue `q`, where one is there to execute. -/
def State.bltHead (s : State) (q : Nat) : Option (List Nat) := Tbl.find s.blt.head q

/-- STATE of queue `q`. -/
def State.bltState (s : State) (q : Nat) : Nat := s.rd (F.BLT_Qq_CTRL.STATE q)

/-- The fetched command of queue `q` is let go. -/
def State.bltForget (s : State) (q : Nat) : State :=
  let s := s.wr (F.BLT_Qq_STATUS.WAITING q) 0
  { s with blt := { s.blt with head := s.blt.head.del q, ticked := s.blt.ticked.filter (· != q) } }

/-- Queue `q` is stopped by the Skokor: a refusal or an error with its code (R242, R252). -/
def State.bltRefuse (s : State) (q code : Nat) : State :=
  let s := (s.wr (F.BLT_Qq_STATUS.ERR_CODE q) code).flag (F.BLT_Qq_STATUS.ERR q) (56 + q)
  let s := ((s.wr (F.BLT_Qq_CTRL.ENABLE q) 0).wr (F.BLT_Qq_CTRL.STATE q) 0).bltForget q
  s.arrive 5 q

/-- A command that reaches HEAD of a RUNNING queue is fetched, once (R241): words 0-23, since the blitter does not read USER
(R244). The tick of this cycle does not serve a WAIT_TICK (R245). -/
def State.bltRefill (s : State) (q : Nat) : State :=
  let h := s.rd (F.BLT_Qq_HEAD.HEAD q)
  let empty := h == s.rd (F.BLT_Qq_TAIL.TAIL q)
  let s := s.wrB (F.BLT_Qq_STATUS.EMPTY q) empty
  if s.bltState q ≠ 2 ∨ empty ∨ (s.bltHead q).isSome then s
  else
    let a := s.rd (F.BLT_Qq_BASE_LO.BASE_LO q) * 128 + s.rd (F.BLT_Qq_BASE_HI.BASE_HI q) * 2 ^ 32 + 128 * h
    match s.bltRead a 96 with
    | (.ok bs, s) =>
      ({ s with blt := { s.blt with head := s.blt.head.put q ((List.range 24).map (fun i => leAt bs (4 * i) 4)) } }).arrive 3 q
    | (.wait, s) => s
    | (_, s) => s.bltRefuse q 6

/-- Queue `q` goes from OFF to STARTING (R242). -/
def State.bltBegin (s : State) (q : Nat) : State :=
  { s.wr (F.BLT_Qq_CTRL.STATE q) 1 with blt := { s.blt with startT := s.blt.startT.put q s.now } }

/-- Queue `q` goes OFF, and starts again where ENABLE says so (R53). -/
def State.bltOff (s : State) (q : Nat) : State :=
  let s := s.bltForget q
  if s.on (F.BLT_Qq_CTRL.ENABLE q) then s.bltBegin q else s.wr (F.BLT_Qq_CTRL.STATE q) 0

/-- A queue in STARTING is RUNNING from the cycle after (R242: within 16 ECLK; log 56); one whose ENABLE has been cleared
goes on to stop (R53). -/
def State.bltSettle (s : State) (q : Nat) : State :=
  if s.bltState q = 1 ∧ Tbl.get 0 s.blt.startT q < s.now then
    let s := s.wr (F.BLT_Qq_CTRL.STATE q) 2
    if s.on (F.BLT_Qq_CTRL.ENABLE q) then s.bltRefill q else s.bltOff q
  else s

/-- All queues. -/
def State.bltSettleAll (s : State) : State := (List.range 4).foldl State.bltSettle s

/-- A command of queue `q` comes up: a queue in STARTING has started by then, and what stands at HEAD is fetched. -/
def State.bltUpTo (s : State) (q : Nat) : State :=
  let s := if s.bltState q = 1 then s.reach (Tbl.get 0 s.blt.startT q + 1) else s
  s.bltSettleAll.bltRefill q

/-- A command of queue `q` is in execution. -/
def State.bltBusy (s : State) (q : Nat) : Bool :=
  match s.blt.run with
  | some r => r.q == q
  | none => false

/-- What follows a completed command: a STOPPING queue goes OFF, a RUNNING one fetches the next. -/
def State.bltNext (s : State) (q : Nat) : State := if s.bltState q = 3 then s.bltOff q else s.bltRefill q

/-- The command at HEAD completes (R240, R258): HEAD advances, CMDS counts, IRQ raises DONE. -/
def State.bltComplete (s : State) (q : Nat) (irq : Bool) : State :=
  let h : Nat := (s.rd (F.BLT_Qq_HEAD.HEAD q) + 1) % 2 ^ s.bltLog2 q
  let s := (s.wr (F.BLT_Qq_HEAD.HEAD q) h).incRc (F.BLT_Qq_CMDS.COUNT q)
  let s := s.bltForget q
  let s := if irq then (s.flag (F.BLT_Qq_STATUS.DONE q) (48 + q)).pulse (0x050 + q) else s
  let s := s.wrB (F.BLT_Qq_STATUS.EMPTY q) (h == s.rd (F.BLT_Qq_TAIL.TAIL q))
  s.bltNext q

/-- The fence test of WAIT_FENCE (R245). -/
def State.fenceTest (s : State) (w : List Nat) : Bool :=
  decide (0 ≤ sext 32 (s.rd (F.BLT_FENCEf.COUNT (bltFence w)) + 2 ^ 32 - bltW w 18))

/-- The WAIT `w` at HEAD of queue `q` is satisfied (R245): its fence has come, or its tick. -/
def State.waitOver (s : State) (q : Nat) (w : List Nat) : Bool :=
  if bltOp w = 2 then s.fenceTest w else s.blt.ticked.contains q

/-- The command `w` is a WAIT. -/
def bltWait (w : List Nat) : Bool := bltOp w == 2 || bltOp w == 3

/-- WAITING of queue `q`: HEAD is an unsatisfied WAIT. -/
def State.waitShow (s : State) (q : Nat) : State :=
  match s.bltHead q with
  | none => s
  | some w => s.wrB (F.BLT_Qq_STATUS.WAITING q) (bltWait w && !s.waitOver q w)

/-- A fence counter changes; a flip's test at this cycle's tick still meets the value before (R144), and WAITING follows. -/
def State.fencePut (s : State) (f v : Nat) : State :=
  let s := (s.rwsNote (R.BLT_FENCEf f) (s.reg (R.BLT_FENCEf f))).wr (F.BLT_FENCEf.COUNT f) (v % 2 ^ 32)
  (List.range 4).foldl State.waitShow s

/-- A fence is signalled (R254). -/
def State.fenceSignal (s : State) (f : Nat) : State :=
  (s.fencePut f (s.rd (F.BLT_FENCEf.COUNT f) + 1)).arrive 4 f

/-- A write of a fence counter; one in the cycle of a signal leaves the written value plus 1 (R254). -/
def State.fenceWrite (s : State) (f v : Nat) : State := s.fencePut f (if s.arrived 4 f then v + 1 else v)

/-- Queue `q` is ready (R243). -/
def State.bltReady (s : State) (q : Nat) : Bool :=
  s.bltState q == 2 && (match s.bltHead q with
    | none => false
    | some w => !bltWait w || s.waitOver q w)

/-- The queue the blitter serves next (R243). -/
def State.bltPick (s : State) : Option Nat :=
  let from_ := if s.on F.BLT_CTRL.ARB then (match s.blt.served with
    | some q => q + 1
    | none => 0) else 0
  ((List.range 4).map (fun i => (from_ + i) % 4)).find? s.bltReady

/-- The command at HEAD of `q` may start: the blitter executes none, and serves `q` (R243). -/
def State.bltStart (s : State) (q : Nat) : Option (List Nat) :=
  if s.blt.run.isNone && s.bltPick == some q then s.bltHead q else none

/-- Queue `q` is served: CURQ and the round robin follow. -/
def State.bltServe (s : State) (q : Nat) : State :=
  { s.wr F.BLT_STATUS.CURQ q with blt := { s.blt with served := some q } }

/-! ### A BLT in execution -/

/-- The BLT in execution with one more row completed, or stopped by an error. -/
def State.bltRun (s : State) (f : BltRun → BltRun) : State := { s with blt := { s.blt with run := s.blt.run.map f } }

/-- The destination row that is number `i` in the order of execution (R250). -/
def bltRowAt (w : List Nat) (i : Nat) : Nat :=
  let (_, _, y0, h) := bltClip w
  if bltUp w then y0 + h - 1 - i else y0 + i

/-- The moment at which `i` rows are completed at the earliest (R253). -/
def BltRun.rowsAt (r : BltRun) (i : Nat) : Nat := r.t0 + 32 + i * bltRowTime r.words (bltClip r.words).2.1

/-- The number of rows the BLT has. -/
def BltRun.height (r : BltRun) : Nat := (bltClip r.words).2.2.2

/-- Rows are drawn one after another, up to row `to_`, a row that waits, or an error (R250, R255, R257). -/
def State.bltRows (s : State) (to_ : Nat) : Nat → State
  | 0 => s
  | fuel + 1 => match s.blt.run with
    | none => s
    | some r =>
      if r.err || decide (to_ ≤ r.rows) then s
      else
        let (x0, n, _, _) := bltClip r.words
        match s.bltRow r.words x0 n (bltRowAt r.words r.rows) with
        | (.drawn, s) => ((s.inc (F.BLT_Qq_PROG.ROWS r.q)).bltRun (fun r => { r with rows := r.rows + 1 })).bltRows to_ fuel
        | (.waits, s) => s
        | (.failed, s) => s.bltRun (fun r => { r with err := true })

/-- The blitter has reached the rows that the time at hand allows (R253, R256; log 56). -/
def State.bltTo (s : State) : State :=
  match s.blt.run with
  | none => s
  | some r =>
    let rt := bltRowTime r.words (bltClip r.words).2.1
    let to_ := min r.height ((s.now - (r.t0 + 32)) / rt)
    s.bltRows to_ (to_ - r.rows)

/-- The rows after which the watermark is due, in the order of execution (R255). -/
def BltRun.wmRows (r : BltRun) : Nat :=
  let (_, _, y0, h) := bltClip r.words
  let line := bltWmLine r.words
  if line < y0 ∨ h = 0 then 0 else if bltUp r.words then h else min h (line - y0 + 1)

/-- The moment at which the watermark is due at the earliest. -/
def BltRun.wmAt (r : BltRun) : Nat := if r.wmRows = 0 then r.t0 else r.rowsAt r.wmRows

/-- A write of BLT_Qq_CTRL (R242, R53). ENABLE written 1 in the cycle of an error clear stays 0. -/
def State.bltCtrlWrite (s : State) (q v : Nat) : State :=
  let s := (s.bltSettle q).writeByCode (R.BLT_Qq_CTRL q) (if s.arrived 5 q then v - v % 2 else v)
  let en := s.on (F.BLT_Qq_CTRL.ENABLE q)
  match s.bltState q with
  | 0 => if en then s.bltBegin q else s
  | 2 => if en then s else if s.bltBusy q then s.wr (F.BLT_Qq_CTRL.STATE q) 3 else s.bltOff q
  | _ => s

/-- A write of BLT_Qq_TAIL. -/
def State.bltTail (s : State) (q v : Nat) : State :=
  if 2 ^ s.bltLog2 q ≤ v % 65536 then s.hwSet (F.BLT_Qq_STATUS.CFG_REJECT q)
  else ((s.bltSettle q).writeByCode (R.BLT_Qq_TAIL q) v).bltRefill q

/-- A write of BLT_Qq_HEAD or BLT_Qq_SIZE: honoured only while OFF (R242). -/
def State.bltOffWrite (s : State) (q off v : Nat) : State :=
  if (s.bltSettle q).bltState q = 0 then ((s.bltSettle q).writeByCode off v).bltRefill q else s.hwSet (F.BLT_Qq_STATUS.CFG_REJECT q)

/-- NOP completes at once; FENCE_EN, WM_EN and IRQ are ignored (R245). -/
def State.bltNopRun (s : State) (q : Nat) : State :=
  match s.bltStart q with
  | some w => if bltOp w = 0 then (s.bltServe q).bltComplete q false else s
  | none => s

/-- A BLT, or a command of a reserved opcode, is checked; a BLT that passes begins to draw (R246-R253). -/
def State.bltDrawRun (s : State) (q : Nat) : State :=
  match s.bltStart q with
  | none => s
  | some w =>
    if bltOp w = 0 ∨ bltWait w ∨ bltOp w = 4 then s
    else
      let s := s.bltServe q
      let code := bltCheck w
      if code ≠ 0 then s.bltRefuse q code
      else { (s.wr (F.BLT_Qq_PROG.ROWS q) 0).wr F.BLT_STATUS.BUSY 1 with
             blt := { s.blt with run := some { q := q, words := w, t0 := s.now, wm := bltBit w 13 } } }

/-- The watermark event (R255). -/
def State.bltWm (s : State) (q : Nat) : State :=
  ((s.flag (F.BLT_Qq_STATUS.WM q) (52 + q)).pulse (0x054 + q)).bltRun (fun r => { r with wm := false })

/-- The watermark falls, where it is owed and its rows are written (R255). -/
def State.bltWmDue (s : State) : State :=
  match s.blt.run with
  | some r => if r.wm && decide (r.wmRows ≤ r.rows) then s.bltWm r.q else s
  | none => s

/-- The BLT in execution passes WM_LINE (R255). -/
def State.bltWmRun (s : State) : State :=
  match s.blt.run with
  | none => s
  | some r => if r.wm then (s.reach r.wmAt).bltTo.bltWmDue else s

/-- The BLT in execution is over. -/
def State.bltIdle (s : State) : State := { s.wr F.BLT_STATUS.BUSY 0 with blt := { s.blt with run := none } }

/-- The BLT in execution has written every row (R254): a watermark still owed falls now, the fence is signalled. One that an
error has stopped, or that waits for memory, does not complete. -/
def State.bltDoneRun (s : State) : State :=
  match s.blt.run with
  | none => s
  | some r =>
    let s := (s.reach (r.rowsAt r.height)).bltTo
    match s.blt.run with
    | none => s
    | some r =>
      if r.err || decide (r.rows < r.height) then s
      else
        let s := s.bltWmDue.bltIdle
        let s := if bltBit r.words 12 then s.fenceSignal (bltFence r.words) else s
        s.bltComplete r.q (bltBit r.words 14)

/-- An error during execution stops the command and its queue (R257); a watermark already due has fallen. -/
def State.bltErrRun (s : State) : State :=
  let s := s.bltTo
  match s.blt.run with
  | none => s
  | some r => if r.err then s.bltWmDue.bltIdle.bltRefuse r.q 6 else s

/-- The satisfied WAIT at HEAD of `q`, with opcode `op`, completes where the blitter serves the queue (R243, R245). -/
def State.bltWaitRun (s : State) (q op : Nat) : State :=
  match s.bltStart q with
  | some w => if bltOp w = op then (s.bltServe q).bltComplete q (bltBit w 14) else s
  | none => s

/-- WAIT_FENCE at HEAD: completes where the fence has reached VALUE, else the queue waits (R245). -/
def State.bltWaitFenceRun (s : State) (q : Nat) : State :=
  if s.bltState q ≠ 2 then s else (s.waitShow q).bltWaitRun q 2

/-- A waiting WAIT_FENCE whose test has become true completes (R245). -/
def State.fenceWaitRun (s : State) (q : Nat) : State := s.bltWaitRun q 2

/-- WAIT_TICK at HEAD: the queue waits; one whose tick has come completes (R245). -/
def State.bltWaitTickRun (s : State) (q : Nat) : State :=
  if s.bltState q ≠ 2 then s else (s.waitShow q).bltWaitRun q 3

/-- Queues whose STARTING was over before this cycle are RUNNING, with their command at HEAD since then (R242, R245). -/
def State.bltSettled (s : State) : State :=
  let late := (List.range 4).filter (fun q => s.bltState q == 1 && decide (Tbl.get 0 s.blt.startT q + 1 < s.now))
  late.foldl (fun s q => s.depart 3 q) s.bltSettleAll

/-- At the frame tick every WAIT_TICK that reached HEAD before this cycle is satisfied (R245), and completes in its turn
while the blitter executes nothing (R243). -/
def State.bltTick (s : State) : State :=
  let s := s.bltSettled
  let at_ := (List.range 4).filter (fun q => s.bltState q == 2 && !s.arrived 3 q && (match s.bltHead q with
    | none => false
    | some w => bltOp w == 3))
  let s := at_.foldl State.waitShow { s with blt := { s.blt with ticked := s.blt.ticked ++ at_ } }
  (List.range 4).foldl (fun s _ => match s.bltPick with
    | some q => s.bltWaitRun q 3
    | none => s) s

/-- FENCE signals its counter as soon as it may start (R245, R254). -/
def State.bltFenceRun (s : State) (q : Nat) : State :=
  match s.bltStart q with
  | some w =>
    if bltOp w = 4 then ((s.bltServe q).fenceSignal (bltFence w)).bltComplete q (bltBit w 14) else s
  | none => s

/-! ### Meanings -/

/-- BLT_Q_ENABLE (R242). -/
def execBltQEnable (q v : Nat) (s : State) : Host.Outcome State Fault Refusal := done (s.bltCtrlWrite q v)

/-- BLT_TAIL_WRITE (R240). -/
def execBltTailWrite (q v : Nat) (s : State) : Host.Outcome State Fault Refusal := done (s.bltTail q v)

/-- BLT_NOP (R245). -/
def execBltNop (q : Nat) (s : State) : Host.Outcome State Fault Refusal := done ((s.bltUpTo q).bltNopRun q)

/-- BLT_DRAW (R246-R253). -/
def execBltDraw (q : Nat) (s : State) : Host.Outcome State Fault Refusal := done ((s.bltUpTo q).bltDrawRun q)

/-- BLT_WAIT_FENCE (R245). -/
def execBltWaitFence (q : Nat) (s : State) : Host.Outcome State Fault Refusal :=
  done ((s.bltUpTo q).bltWaitFenceRun q)

/-- FENCE_WAIT_DONE (R245). -/
def execFenceWaitDone (q : Nat) (s : State) : Host.Outcome State Fault Refusal := done ((s.bltUpTo q).fenceWaitRun q)

/-- BLT_WAIT_TICK (R245). -/
def execBltWaitTick (q : Nat) (s : State) : Host.Outcome State Fault Refusal := done ((s.bltUpTo q).bltWaitTickRun q)

/-- BLT_FENCE (R245, R254). -/
def execBltFence (q : Nat) (s : State) : Host.Outcome State Fault Refusal := done ((s.bltUpTo q).bltFenceRun q)

/-- BLT_DONE (R254, R258). -/
def execBltDone (s : State) : Host.Outcome State Fault Refusal := done s.bltDoneRun

/-- WATERMARK (R255). -/
def execWatermark (s : State) : Host.Outcome State Fault Refusal := done s.bltWmRun

/-- BLT_EXEC_ERROR (R257). -/
def execBltExecError (s : State) : Host.Outcome State Fault Refusal := done s.bltErrRun

end Sys2Proof.Machine
end

