-- ==== Sys2Proof/Machine/Engine.lean ====
section
/-! DEFINITION. Rasters, video PLLs, credits, engine enable and the spillway level
(01_frame_tick_and_line_budget.md R35-R54, R519). -/

namespace Sys2Proof.Machine

/-- The internal state of engine `n`. -/
def State.engS (s : State) (n : Nat) : EngS := Tbl.get {} s.eng n

/-- The state with the internal state of engine `n` replaced. -/
def State.setEng (s : State) (n : Nat) (e : EngS) : State := { s with eng := Tbl.put s.eng n e }

/-- The state with the internal state of engine `n` changed by `f`. -/
def State.modEng (s : State) (n : Nat) (f : EngS → EngS) : State := s.setEng n (f (s.engS n))

/-- The engine whose VPLL and raster engine `n` uses: EW uses TARGET's (R172, R178). -/
def State.clockOf (s : State) (n : Nat) : Nat := if n = 16 then s.rd F.ENG_WARD_STATUS.TARGET else n

/-- A read of the engine's own current H_ACTIVE and so on. -/
def State.hActive (s : State) (n : Nat) : Nat := s.act (F.ENGn_HTIME0.H_ACTIVE n)
def State.vActive (s : State) (n : Nat) : Nat := s.act (F.ENGn_VTIME0.V_ACTIVE n)
def State.hTotal (s : State) (n : Nat) : Nat :=
  s.act (F.ENGn_HTIME1.H_SYNC n) + s.act (F.ENGn_HTIME1.H_BP n) + s.hActive n + s.act (F.ENGn_HTIME0.H_FP n)
def State.vTotal (s : State) (n : Nat) : Nat :=
  s.act (F.ENGn_VTIME1.V_SYNC n) + s.act (F.ENGn_VTIME1.V_BP n) + s.vActive n + s.act (F.ENGn_VTIME0.V_FP n)

/-- The raster line that carries active line `k`: r_k = V_SYNC + V_BP + k (R35). -/
def State.rasterOf (s : State) (n k : Nat) : Nat :=
  s.act (F.ENGn_VTIME1.V_SYNC n) + s.act (F.ENGn_VTIME1.V_BP n) + k

/-- VCLK in Hz for a MULT (UQ8.24) and a POSTDIV, truncated (R38, log 11). -/
def vclkHz (mult postdiv : Nat) : Nat := 50000000 * mult / 2 ^ 24 / postdiv

/-- `line_credits` of R42 for a line of `htotal` pixels. -/
def creditsOf (htotal mult postdiv : Nat) : Nat := htotal * 600000000 / vclkHz mult postdiv

/-- The written settings give a VCLK outside 25-1,200 MHz (R38). -/
def vclkOut (mult postdiv : Nat) : Bool :=
  decide (50 * mult < 25 * postdiv * 2 ^ 24) || decide (1200 * postdiv * 2 ^ 24 < 50 * mult)

/-- The VPLL an engine selects (EW: TARGET's, copied in PREP, R172). -/
def State.vpllOf (s : State) (n : Nat) : Nat := s.rd (F.ENGn_CTRL.VPLL n)

/-- line_credits from the written VPLL settings and the active raster; 0 while the VPLL is unpowered (R42). -/
def State.lineCredits (s : State) (n : Nat) : Nat :=
  let k := s.vpllOf n
  if s.on (F.ENG_VPLLk_CTRL.PWR k)
  then creditsOf (s.hTotal n) (s.rd (F.ENG_VPLLk_MULT.MULT k)) (s.rd (F.ENG_VPLLk_CTRL.POSTDIV k)) else 0

/-- What ENGn_LINE_CREDITS reads (a value above 65,535 reads 0xFFFF). -/
def State.creditsRead (s : State) (n : Nat) : Nat := min 65535 (s.lineCredits n)

/-- VCLK of VPLL `k` in Hz as it runs, steered or not (R38, R40). -/
def State.vclkNow (s : State) (k : Nat) : Nat :=
  vclkHz (Tbl.get (s.rd (F.ENG_VPLLk_MULT.MULT k)) s.tick.steer k) (s.rd (F.ENG_VPLLk_CTRL.POSTDIV k))

/-- The nominal time, in ECLK from the tick, of the line tick of raster line `r` (R35, R42). -/
def State.lineTime (s : State) (n r : Nat) : Nat :=
  r * s.hTotal n * 600000000 / s.vclkNow (s.vpllOf n)

/-- STATE of engine `n`: 0 OFF, 1 STARTING, 2 RUNNING, 3 STOPPING (R53). -/
def State.engState (s : State) (n : Nat) : Nat := s.rd (F.ENGn_CTRL.STATE n)

/-- Engine `n` is not OFF; EW runs from PREP until it is IDLE again (R39, R171). -/
def State.engBusy (s : State) (n : Nat) : Bool :=
  if n = 16 then s.rd F.ENG_WARD_STATUS.WSTATE != 0 else s.engState n != 0

/-- An engine that selects VPLL `k` is not OFF (R39). -/
def State.vpllUsed (s : State) (k : Nat) : Bool :=
  (List.range 17).any (fun n => s.rd (F.ENGn_CTRL.VPLL n) == k && s.engBusy n)

/-- The tracking minimum of a schedule: ceil(LINE_CREDITS * 500 / 1,000,000) (R43, R519). -/
def trackMin (credits : Nat) : Nat := (credits * 500 + 999999) / 1000000

/-- The tracking condition of R519 holds for engine `n`. -/
def State.trackCond (s : State) (n : Nat) : Bool :=
  match (s.engS n).active with
  | none => false
  | some sc => decide (sc.margin < trackMin sc.credits) && s.on (F.ENG_VPLLk_CTRL.TRACK (s.vpllOf n))

/-- Where the tracking condition begins, MARGIN_LOW is set and SCHED_MARGIN raised once (R519). -/
def State.trackEval (s : State) (n : Nat) : State :=
  let c := s.trackCond n
  let s1 := s.modEng n (fun e => { e with tracking := c })
  if c && !(s.engS n).tracking then (s1.flag (F.ENGn_SCHED_STATUS.MARGIN_LOW n) (n + 1)).fault 0x0C n else s1

/-- `trackEval` for every engine E0-E15. -/
def State.trackAll (s : State) : State := (List.range 16).foldl State.trackEval s

/-- A write of ENG_VPLLk_MULT (R38, R39). -/
def State.vpllMultWrite (s : State) (k v : Nat) : State :=
  let old := s.rd (F.ENG_VPLLk_MULT.MULT k)
  let v := v % 2 ^ 32
  if v = old then s
  else if v < 48 * 2 ^ 24 ∨ 96 * 2 ^ 24 < v ∨ s.vpllUsed k then s.hwSet (F.ENG_VPLLk_CTRL.REJECT k)
  else
    let s := s.wr (F.ENG_VPLLk_MULT.MULT k) v
    let s := { s with tick := { s.tick with steer := s.tick.steer.del k } }
    let s := s.wrB (F.ENG_VPLLk_CTRL.RANGE k) (vclkOut v (s.rd (F.ENG_VPLLk_CTRL.POSTDIV k)))
    s.wr (F.ENG_VPLLk_CTRL.LOCKED k) 0

/-- A write of ENG_VPLLk_CTRL (R38, R39): field by field; a refused field keeps its value and sets REJECT. -/
def State.vpllCtrlWrite (s : State) (k v : Nat) : State :=
  let oldP := s.rd (F.ENG_VPLLk_CTRL.POSTDIV k)
  let oldW := s.on (F.ENG_VPLLk_CTRL.PWR k)
  let p := bitsOf v 0 8
  let w := v.testBit 8
  let used := s.vpllUsed k
  let badP := decide (p ≠ oldP) && (used || decide (p < 2) || decide (192 < p))
  let badW := oldW && !w && used
  let s := s.w1c (F.ENG_VPLLk_CTRL.REJECT k) (v.testBit 17)
  let s := s.wrB (F.ENG_VPLLk_CTRL.TRACK k) (v.testBit 9)
  let s := if badP then s else s.wr (F.ENG_VPLLk_CTRL.POSTDIV k) p
  let s := if badW then s else s.wrB (F.ENG_VPLLk_CTRL.PWR k) w
  let s := if badP || badW then s.hwSet (F.ENG_VPLLk_CTRL.REJECT k) else s
  let changed := (decide (p ≠ oldP) && !badP) || (decide (w ≠ oldW) && !badW)
  let s := s.wrB (F.ENG_VPLLk_CTRL.RANGE k)
    (vclkOut (s.rd (F.ENG_VPLLk_MULT.MULT k)) (s.rd (F.ENG_VPLLk_CTRL.POSTDIV k)))
  let s := if changed then s.wr (F.ENG_VPLLk_CTRL.LOCKED k) 0 else s
  s.trackAll

/-- A powered VPLL with settings in range locks (R38). -/
def State.vpllLock (s : State) (k : Nat) : State :=
  if s.on (F.ENG_VPLLk_CTRL.PWR k) && !s.on (F.ENG_VPLLk_CTRL.RANGE k) then s.wr (F.ENG_VPLLk_CTRL.LOCKED k) 1 else s

/-- A VPLL loses lock without a request: VPLL_UNLOCK (R40). -/
def State.vpllUnlock (s : State) (k : Nat) : State :=
  if s.on (F.ENG_VPLLk_CTRL.LOCKED k) then (s.wr (F.ENG_VPLLk_CTRL.LOCKED k) 0).fault 0x02 k else s

/-- An engine enters STARTING: its frame-store buffers are marked invalid (R54). -/
def State.engStarting (s : State) (n : Nat) : State :=
  (s.wr (F.ENGn_CTRL.STATE n) 1).wr (F.ENGn_STATUS.FS_VALID n) 0

/-- ENABLE is compared with STATE where no transition is under way (R53, R54). -/
def State.engFollow (s : State) (n : Nat) : State :=
  let en := s.on (F.ENGn_CTRL.ENABLE n)
  match s.engState n with
  | 0 => if en then s.engStarting n else s
  | 2 => if en then s else s.wr (F.ENGn_CTRL.STATE n) 3
  | _ => s

/-- The engine is fenced by the warden (R175). -/
def State.fenced (s : State) (n : Nat) : Bool := (s.rd F.ENG_WARD_FENCE.FENCE).testBit n

/-- A write of ENGn_CTRL: a changed VPLL selection is refused while the engine is not OFF (R39), ENABLE is ignored
while the engine is fenced (R175). EW is run by the warden (R171): its ENABLE is stored and starts nothing. -/
def State.engCtrlWrite (s : State) (n v : Nat) : State :=
  let oldV := s.rd (F.ENGn_CTRL.VPLL n)
  let oldE := s.rd (F.ENGn_CTRL.ENABLE n)
  let refuse := decide (bitsOf v 12 2 ≠ oldV) && s.engBusy n
  let v := if refuse then putBits v 12 2 oldV else v
  let v := if s.fenced n then putBits v 0 1 oldE else v
  let s := s.writeByCode (R.ENGn_CTRL n) v
  let s := if refuse then s.flag (F.ENGn_STATUS.CFG_REJECT n) (n + 1) else s
  let s := if n < 16 then s.engFollow n else s
  s.trackEval n

/-- The written raster word `r` (0 HTIME0, 1 HTIME1, 2 VTIME0, 3 VTIME1) has its fields inside the limits of
R37. -/
def rasterOk (r v : Nat) : Bool :=
  match r with
  | 0 => let a := bitsOf v 0 14; let f := bitsOf v 16 12
    decide (16 ≤ a) && decide (a ≤ 8192) && a % 2 == 0 && decide (1 ≤ f)
  | 1 => decide (1 ≤ bitsOf v 0 12) && decide (1 ≤ bitsOf v 16 12)
  | 2 => let a := bitsOf v 0 13
    decide (16 ≤ a) && decide (a ≤ 4320) && decide (1 ≤ bitsOf v 16 12)
  | _ => decide (1 ≤ bitsOf v 0 12)

/-- The written (shadow) H_TOTAL. -/
def State.hTotalW (s : State) (n : Nat) : Nat :=
  s.rd (F.ENGn_HTIME1.H_SYNC n) + s.rd (F.ENGn_HTIME1.H_BP n) + s.rd (F.ENGn_HTIME0.H_ACTIVE n) +
    s.rd (F.ENGn_HTIME0.H_FP n)

/-- The register-space offset of raster word `r`. -/
def rasterAt (n r : Nat) : Nat := R.ENGn_HTIME0 n + 4 * r

/-- A raster write is taken (R37): inside the limits, and with line_credits at most 65,535. VCLK's own limits are not
tested here: R38 keeps settings outside them, and the VPLL does not lock (log 65). -/
def State.rasterTakes (s : State) (n r v : Nat) : Bool :=
  let k := s.rd (F.ENGn_CTRL.VPLL n)
  rasterOk r v && decide (creditsOf ((s.writeByCode (rasterAt n r) v).hTotalW n) (s.rd (F.ENG_VPLLk_MULT.MULT k))
    (s.rd (F.ENG_VPLLk_CTRL.POSTDIV k)) ≤ 65535)

/-- A raster write; one that is not taken is ignored and sets CFG_REJECT (R37). -/
def State.rasterWrite (s : State) (n r v : Nat) : State :=
  if s.rasterTakes n r v then s.writeByCode (rasterAt n r) v
  else s.flag (F.ENGn_STATUS.CFG_REJECT n) (n + 1)

/-- The depth of the ladder the engine's active schedule holds (R52, R63). -/
def State.ladderDepth (s : State) (n : Nat) : Nat :=
  match (s.engS n).active with
  | none => 0
  | some sc => sc.depth

/-- LEVEL of engine `n`. EW takes TARGET's (R147); where EW comes to pixel 0 of a line at another moment than TARGET, it is the
LEVEL that TARGET has then, a choice of the model (log 84). -/
def State.level (s : State) (n : Nat) : Nat := s.rd (F.ENGn_SPILL.LEVEL (s.clockOf n))

/-- LEVEL is set, and SPILL_ACTIVE follows it (R52). -/
def State.setLevel (s : State) (n l : Nat) : State :=
  (s.wr (F.ENGn_SPILL.LEVEL n) l).wrB (F.ENGn_STATUS.SPILL_ACTIVE n) (l != 0)

/-- The spillway after a completed line of slack `slack`, or an abandoned line (R52). -/
def State.spillLine (s : State) (n slack : Nat) (abandoned : Bool) : State :=
  let th := s.act (F.ENGn_SPILL.THRESH n)
  if th = 0 ∨ n = 16 then s
  else if slack < th ∨ abandoned then
    (s.setLevel n (min (min 15 (s.ladderDepth n)) (s.rd (F.ENGn_SPILL.LEVEL n) + 1))).modEng n
      (fun e => { e with relaxRun := 0 })
  else s.modEng n (fun e => { e with relaxRun := e.relaxRun + 1 })

/-- RELAX consecutive lines with slack at or above THRESH lower LEVEL by 1 (R52). -/
def State.spillRelax (s : State) (n : Nat) : State :=
  if s.act (F.ENGn_SPILL.THRESH n) ≠ 0 ∧ max 1 (s.act (F.ENGn_SPILL.RELAX n)) ≤ (s.engS n).relaxRun then
    (s.setLevel n (s.rd (F.ENGn_SPILL.LEVEL n) - 1)).modEng n (fun e => { e with relaxRun := 0 })
  else s

/-- STARTING and STOPPING end at the tick (R41, R54); the engine outputs a frame where it is RUNNING, or was
RUNNING when ENABLE fell during its start. -/
def State.engTick (s : State) (n : Nat) : State :=
  let k := s.vpllOf n
  match s.engState n with
  | 1 =>
    if s.on (F.ENG_VPLLk_CTRL.PWR k) && s.on (F.ENG_VPLLk_CTRL.LOCKED k) && decide (s.lineCredits n ≤ 65535) then
      let s := (s.wr (F.ENGn_CTRL.STATE n) 2).modEng n (fun e => { e with live := true })
      s.engFollow n
    else s.modEng n (fun e => { e with live := false })
  | 2 => s.modEng n (fun e => { e with live := true })
  | 3 =>
    let s := (s.wr (F.ENGn_CTRL.STATE n) 0).modEng n (fun e => { e with live := false })
    s.engFollow n
  | _ => s.modEng n (fun e => { e with live := false })

/-- VPLL steering at the tick (R40): with TRACK = 1 in LOCKED, toward the lowest-numbered RUNNING engine on it. -/
def State.vpllSteer (s : State) (k : Nat) : State :=
  let drop : State := { s with tick := { s.tick with steer := s.tick.steer.del k } }
  if s.on (F.ENG_VPLLk_CTRL.TRACK k) && s.rd F.ENG_TICK_STATUS.GLK_STATE == 2 then
    match (List.range 16).find? (fun n => s.rd (F.ENGn_CTRL.VPLL n) == k && s.engState n == 2) with
    | none => drop
    | some n =>
      let p := s.rd F.ENG_GLK_PERIOD.PERIOD
      let mw := s.rd (F.ENG_VPLLk_MULT.MULT k)
      let target := s.vTotal n * s.hTotal n * s.rd (F.ENG_VPLLk_CTRL.POSTDIV k) * 12 * 2 ^ 24 / p
      let lim := mw * 500 / 1000000
      let m := clampN (mw - lim) (mw + lim) target
      if m = mw then drop else { s with tick := { s.tick with steer := s.tick.steer.put k m } }
  else drop

end Sys2Proof.Machine
end

