-- ==== Sys2Proof/Machine/LineList.lean ====
section
/-! DEFINITION. Schedules and line lists (02_line_lists_and_band_tables.md): the loader's checks, promotion, the
line-list sequencer. A line-list command row acts where the word that the sequencer reads next is that command
(log 12). -/

namespace Sys2Proof.Machine

/-! ### SHA-384 (R55, R418; FIPS 180-4) -/

/-- A 64-bit rotation to the right. -/
def ror64 (x n : Nat) : Nat := (x >>> n) ||| ((x <<< (64 - n)) % 2 ^ 64)

/-- The round constants, five of 64 bits in each number, most significant first: the fractions of the cube roots of the
first 80 primes (`sha_cube_roots` in the tests says so of each). -/
def shaRows : List Nat :=
  [0x428a2f98d728ae227137449123ef65cdb5c0fbcfec4d3b2fe9b5dba58189dbbc3956c25bf348b538,
    0x59f111f1b605d019923f82a4af194f9bab1c5ed5da6d8118d807aa98a303024212835b0145706fbe,
    0x243185be4ee4b28c550c7dc3d5ffb4e272be5d74f27b896f80deb1fe3b1696b19bdc06a725c71235,
    0xc19bf174cf692694e49b69c19ef14ad2efbe4786384f25e30fc19dc68b8cd5b5240ca1cc77ac9c65] ++
  [0x2de92c6f592b02754a7484aa6ea6e4835cb0a9dcbd41fbd476f988da831153b5983e5152ee66dfab,
    0xa831c66d2db43210b00327c898fb213fbf597fc7beef0ee4c6e00bf33da88fc2d5a79147930aa725,
    0x06ca6351e003826f142929670a0e6e7027b70a8546d22ffc2e1b21385c26c9264d2c6dfc5ac42aed,
    0x53380d139d95b3df650a73548baf63de766a0abb3c77b2a881c2c92e47edaee692722c851482353b] ++
  [0xa2bfe8a14cf10364a81a664bbc423001c24b8b70d0f89791c76c51a30654be30d192e819d6ef5218,
    0xd69906245565a910f40e35855771202a106aa07032bbd1b819a4c116b8d2d0c81e376c085141ab53,
    0x2748774cdf8eeb9934b0bcb5e19b48a8391c0cb3c5c95a634ed8aa4ae3418acb5b9cca4f7763e373,
    0x682e6ff3d6b2b8a3748f82ee5defb2fc78a5636f43172f6084c87814a1f0ab728cc702081a6439ec] ++
  [0x90befffa23631e28a4506cebde82bde9bef9a3f7b2c67915c67178f2e372532bca273eceea26619c,
    0xd186b8c721c0c207eada7dd6cde0eb1ef57d4f7fee6ed17806f067aa72176fba0a637dc5a2c898a6,
    0x113f9804bef90dae1b710b35131c471b28db77f523047d8432caab7b40c724933c9ebe0a15c9bebc,
    0x431d67c49c100d4c4cc5d4becb3e42b6597f299cfc657e2a5fcb6fab3ad6faec6c44198c4a475817]

/-- The 80 round constants in order. -/
def shaK : List Nat := shaRows.flatMap (fun r => [256, 192, 128, 64, 0].map (fun lo => bitsOf r lo 64))

/-- Big-endian value of bytes. -/
def beVal (l : List Byte) : Nat := l.foldl (fun a b => 256 * a + b.toNat) 0

/-- The low `n` bytes of a number, big-endian. -/
def beBytes (n v : Nat) : List Byte := (leBytes n v).reverse

/-- The message schedule, newest word first. -/
def shaW : Nat → List Nat → List Nat
  | 0, w => w
  | n + 1, w =>
    let g := fun i => w.getD i 0
    let x := g 14
    let y := g 1
    let s0 := ror64 x 1 ^^^ ror64 x 8 ^^^ (x >>> 7)
    let s1 := ror64 y 19 ^^^ ror64 y 61 ^^^ (y >>> 6)
    shaW n ((g 15 + s0 + g 6 + s1) % 2 ^ 64 :: w)

/-- One round on the working variables. -/
def shaRound (v : List Nat) (kw : Nat × Nat) : List Nat :=
  let g := fun i => v.getD i 0
  let e := g 4
  let a := g 0
  let t1 := g 7 + (ror64 e 14 ^^^ ror64 e 18 ^^^ ror64 e 41) + ((e &&& g 5) ^^^ ((2 ^ 64 - 1 - e) &&& g 6)) + kw.1 + kw.2
  let t2 := (ror64 a 28 ^^^ ror64 a 34 ^^^ ror64 a 39) + ((a &&& g 1) ^^^ (a &&& g 2) ^^^ (g 1 &&& g 2))
  [(t1 + t2) % 2 ^ 64, a, g 1, g 2, (g 3 + t1) % 2 ^ 64, e, g 5, g 6]

/-- One block of 128 bytes into the hash value. -/
def shaBlock (h : List Nat) (blk : List Byte) : List Nat :=
  let w := ((List.range 16).map (fun i => beVal ((blk.drop (8 * i)).take 8))).reverse
  let v := (shaK.zip (shaW 64 w).reverse).foldl shaRound h
  (h.zip v).map (fun p => (p.1 + p.2) % 2 ^ 64)

/-- All blocks of a padded message. -/
def shaBlocks : Nat → List Nat → List Byte → List Nat
  | 0, h, _ => h
  | n + 1, h, m => shaBlocks n (shaBlock h (m.take 128)) (m.drop 128)

/-- The initial hash value of SHA-384: the fractions of the square roots of the ninth to sixteenth primes, packed. -/
def shaInit : Nat :=
  0xcbbb9d5dc1059ed8629a292a367cd5079159015a3070dd17152fecd8f70e5939 * 2 ^ 256 +
    0x67332667ffc00b318eb44a8768581511db0c2e0d64f98fa747b5481dbefa4fa4

/-- SHA-384 of a byte string. -/
def sha384 (m : List Byte) : List Byte :=
  let pad := (239 - m.length % 128) % 128
  let p := m ++ [0x80#8] ++ List.replicate pad 0#8 ++ beBytes 16 (8 * m.length)
  let h := shaBlocks (p.length / 128)
    ([448, 384, 320, 256, 192, 128, 64, 0].map (fun lo => bitsOf shaInit lo 64)) p
  (h.flatMap (beBytes 8)).take 48

/-! ### The loader's checks (R60) -/

/-- A failed check: its code and the offset of the first failing item. -/
abbrev SchedErr := Nat × Nat

/-- The header as bytes is right: codes MAGIC, VERSION, ENGINE, SIZE. -/
def schedHeader (n : Nat) (h : List Byte) : Option SchedErr :=
  let f := leAt h
  let depth := f 7 1
  let bandOff := f 0x10 4
  let bandSize := f 0x14 4
  let llOff := f 0x18 4
  let llSize := f 0x1C 4
  let ladOff := f 0x20 4
  let total := f 0x28 4
  let ladSize := 16 * depth
  let inside := fun o z => decide (0x80 ≤ o) && decide (o + z ≤ total)
  let apart := fun o1 z1 o2 z2 => decide (o1 + z1 ≤ o2) || decide (o2 + z2 ≤ o1)
  if f 0 4 ≠ 0x5A534831 then some (1, 0)
  else if ((h.drop 0x2C).take 36).any (· != 0#8) then
    some (1, 0x2C + (((h.drop 0x2C).take 36).findIdx (· != 0#8)))
  else if f 4 2 ≠ 1 then some (2, 4)
  else if f 6 1 ≠ n ∧ f 6 1 ≠ 0xFF then some (3, 6)
  else if 15 < depth then some (4, 7)
  else if bandOff % 16 ≠ 0 ∨ !inside bandOff bandSize then some (4, 0x10)
  else if 524288 < bandSize then some (4, 0x14)
  else if llOff % 16 ≠ 0 ∨ !inside llOff llSize ∨ !apart bandOff bandSize llOff llSize then some (4, 0x18)
  else if 8388608 < llSize ∨ llSize % 8 ≠ 0 then some (4, 0x1C)
  else if depth ≠ 0 ∧ (ladOff % 16 ≠ 0 ∨ !inside ladOff ladSize ∨ !apart bandOff bandSize ladOff ladSize ∨
      !apart llOff llSize ladOff ladSize) then some (4, 0x20)
  else if 16777216 < total then some (4, 0x28)
  else none

/-- The bands of a band table held in `t` bytes, for `v` active lines; stops at the first failing record. -/
def schedBands (t : List Byte) (bandOff v : Nat) : Nat → Nat → Except SchedErr (List Band)
  | 0, _ => .ok []
  | fuel + 1, b =>
    let o := 48 * b
    let r := (t.drop o).take 48
    let off := leAt r 0 4
    let cnt := leAt r 4 2
    if r.length < 48 then .error (8, bandOff + o)
    else if off % 4 ≠ 0 then .error (8, bandOff + o)
    else if t.length < off + 4 * cnt then .error (8, bandOff + o)
    else if 16384 < cnt then .error (8, bandOff + o + 4)
    else if ((r.drop 8).take 8).any (· != 0#8) then .error (8, bandOff + o + 8)
    else
      let refs := (List.range cnt).map (fun j => leAt t (off + 4 * j) 4)
      match refs.findIdx? (fun w => bitsOf w 15 1 != 0 || bitsOf w 24 8 != 0) with
      | some j => .error (8, bandOff + off + 4 * j)
      | none =>
        match schedBands t bandOff v fuel (b + 1) with
        | .error e => .error e
        | .ok rest => .ok ({ peak := leAt r 6 2, cost := (List.range 16).map (fun i => leAt r (0x10 + 2 * i) 2),
                             refs := refs } :: rest)

/-- REF and COST of R60 for band `b` at table offset. -/
def schedRef (t : List Byte) (bandOff v b : Nat) (bd : Band) : Option SchedErr :=
  let off := leAt t (48 * b) 4
  match bd.refs.findIdx? (fun w => decide (bitsOf w 20 4 < bitsOf w 16 4) || decide (v ≤ 16 * b + bitsOf w 20 4)) with
  | some j => some (9, bandOff + off + 4 * j)
  | none => none

/-- COST of R60 for band `b`. -/
def schedCost (bandOff v : Nat) (lim : Int) (b : Nat) (bd : Band) : Option SchedErr :=
  match (List.range 16).find? (fun i =>
      decide (lim < (bd.cost.getD i 0 : Int)) || (decide (v ≤ 16 * b + i) && bd.cost.getD i 0 != 0)) with
  | some i => some (10, bandOff + 48 * b + 0x10 + 2 * i)
  | none => if bd.peak ≠ bd.cost.foldl max 0 then some (10, bandOff + 48 * b + 6) else none

/-- The first failing item of a list of numbered items. -/
def firstErr {α : Type} (f : Nat → α → Option SchedErr) : Nat → List α → Option SchedErr
  | _, [] => none
  | i, a :: t => match f i a with
    | some e => some e
    | none => firstErr f (i + 1) t

/-- The number of payload words of a command word (R65). -/
def llPayload (w : Nat) : Nat :=
  match bitsOf w 60 4 with
  | 3 => (bitsOf w 48 8 + 2) / 2
  | 6 => 3
  | _ => 0

/-- OPCODE of R60: a reserved opcode, reserved field or reserved value (R65). -/
def llReserved (w : Nat) : Bool :=
  let arg := bitsOf w 32 28
  let data := bitsOf w 0 32
  match bitsOf w 60 4 with
  | 0 => arg != 0 || data != 0
  | 1 => decide (2 ^ 13 ≤ arg) || data != 0
  | 2 => decide (2 ^ 16 ≤ arg)
  | 3 => decide (2 ^ 24 ≤ arg) || data != 0
  | 4 => decide (2 ^ 22 ≤ arg)
  | 5 => decide (2 ^ 5 ≤ arg)
  | 6 => decide (2 ≤ arg) || data != 0
  | 7 => decide (8 ≤ arg) || data != 0
  | 8 => decide (2 ^ 12 ≤ arg) || decide (2 ^ 16 ≤ data) || decide (384 ≤ arg % 512) || decide (3 ≤ bitsOf arg 9 3)
  | 9 => decide (4 ≤ arg) || data != 0
  | 10 => decide (2 ^ 14 ≤ arg) || data != 0
  | 11 => arg != 0 || data != 0
  | _ => true

/-- The failures of one command word at the point the walk has reached, as codes: OPCODE 11, ORDER 12,
TARGET 13, SPLIT 14, SIGNAL 15 (R60, R64-R66); and the walk after it. -/
def llCheckWord (w left v h : Nat) (k : LlWalk) : List Nat × LlWalk :=
  let op := bitsOf w 60 4
  let arg := bitsOf w 32 28
  let pay := llPayload w
  let opc := llReserved w || decide (left < pay)
  if op = 1 then
    let bad := decide (v ≤ arg) || (match k.line with | some l => decide (arg ≤ l) | none => false)
    ((if opc then [11] else []) ++ (if bad then [12] else []), { line := some arg, words := 1 })
  else
    let words := k.words + 1 + pay
    let waits := if op = 10 then k.waits + 1 else k.waits
    let ord := op != 0 && (k.line.isNone || decide (256 < words) || decide (8 < waits))
    let tgt := (op == 2 && (arg % 4 != 0 || decide (arg < 0x1000) || decide (0x7FFC < arg))) ||
      (op == 3 && (bitsOf arg 0 16 % 4 != 0 || decide (bitsOf arg 0 16 < 0x1000) ||
        decide (0x7FFC < bitsOf arg 0 16 + 4 * bitsOf arg 16 8)))
    let spl := op == 10 && (arg % 2 != 0 || decide (arg < 2) || decide (h < arg + 2) ||
      (decide (0 < k.waits) && decide (arg ≤ k.x)))
    let sig := op == 9 && k.sigs.contains (arg % 4)
    ((if opc then [11] else []) ++ (if ord then [12] else []) ++ (if tgt then [13] else []) ++
      (if spl then [14] else []) ++ (if sig then [15] else []),
     { line := k.line, words := words, waits := waits, x := if op = 10 then arg else k.x,
       sigs := if op = 9 then arg % 4 :: k.sigs else k.sigs })

/-- All failures of a list, as (code, offset), in list order up to the first END (R64). -/
def llCheck (v h llOff : Nat) : Nat → Nat → List Nat → LlWalk → List SchedErr
  | 0, _, _, _ => []
  | _ + 1, _, [], _ => []
  | fuel + 1, i, w :: ws, k =>
    let (es, k') := llCheckWord w ws.length v h k
    let es := es.map (fun c => (c, llOff + 8 * i))
    if bitsOf w 60 4 = 0 then es
    else es ++ llCheck v h llOff fuel (i + 1 + llPayload w) (ws.drop (llPayload w)) k'

/-- The first failure with the lowest code (R60: the checks are applied in code order). -/
def lowestCode (l : List SchedErr) : Option SchedErr :=
  [11, 12, 13, 14, 15].findSome? (fun c => l.find? (fun e => e.1 == c))

/-- LADDER of R60 (R75). -/
def schedLadder (ladOff maxPeak : Nat) (es : List (List Byte)) : Option SchedErr :=
  firstErr (fun j e =>
    let o := ladOff + 16 * j
    let p := if j = 0 then [] else es.getD (j - 1) []
    let g := fun (b : List Byte) i n => leAt b i n
    if bitsOf (g e 1 1) 4 4 ≠ 0 then some (16, o + 1)
    else if g e 3 1 ≠ 0 then some (16, o + 3)
    else if ((e.drop 6).take 10).any (· != 0#8) then some (16, o + 6 + ((e.drop 6).take 10).findIdx (· != 0#8))
    else if j = 0 then (if maxPeak < g e 4 2 then some (16, o + 4) else none)
    else if g p 0 1 &&& g e 0 1 ≠ g p 0 1 then some (16, o)
    else if g p 1 1 &&& g e 1 1 ≠ g p 1 1 then some (16, o + 1)
    else if g e 2 1 < g p 2 1 then some (16, o + 2)
    else if g p 4 2 < g e 4 2 then some (16, o + 4)
    else none) 0 es

/-- All checks of R60 but SHARE and BUS, in code order, on the schedule's bytes `m` (TOTAL_SIZE of them). -/
def State.schedCheck (s : State) (n base : Nat) (h m : List Byte) : Except SchedErr Sched :=
  let f := leAt h
  let v := f 0x0A 2
  let cred := f 0x0C 2
  let margin := f 0x0E 2
  let bandOff := f 0x10 4
  let llOff := f 0x18 4
  let llSize := f 0x1C 4
  let ladOff := f 0x20 4
  let depth := f 7 1
  match schedHeader n h with
  | some e => .error e
  | none =>
    if sha384 (m.take 0x50 ++ m.drop 0x80) ≠ (m.drop 0x50).take 48 then .error (5, 0x50)
    else if f 8 2 ≠ s.rd (F.ENGn_HTIME0.H_ACTIVE n) then .error (6, 8)
    else if v ≠ s.rd (F.ENGn_VTIME0.V_ACTIVE n) then .error (6, 0x0A)
    else if cred ≠ s.creditsRead n then .error (6, 0x0C)
    else if s.on (F.ENG_VPLLk_CTRL.TRACK (s.vpllOf n)) && decide (margin < trackMin cred) then .error (7, 0x0E)
    else
      let t := (m.drop bandOff).take (f 0x14 4)
      match schedBands t bandOff v ((v + 15) / 16) 0 with
      | .error e => .error e
      | .ok bands =>
        match firstErr (schedRef t bandOff v) 0 bands with
        | some e => .error e
        | none => match firstErr (schedCost bandOff v ((cred : Int) - (margin : Int))) 0 bands with
          | some e => .error e
          | none =>
            let ws := (List.range (llSize / 8)).map (fun i => leAt m (llOff + 8 * i) 8)
            match lowestCode (llCheck v (f 8 2) llOff ws.length 0 ws {}) with
            | some e => .error e
            | none =>
              let es := (List.range depth).map (fun j => (m.drop (ladOff + 16 * j)).take 16)
              match schedLadder ladOff ((bands.map (fun b => b.peak)).foldl max 0) es with
              | some e => .error e
              | none => .ok { base, hActive := f 8 2, vActive := v, credits := cred, margin, llOff, llSize,
                              share := f 0x24 4, id := leAt m 0x50 4, depth,
                              ladder := es.map (fun e => (leAt e 0 1, leAt e 1 1, leAt e 2 1)), bands }

/-- SHARE of R61: the larger of active and READY share of every engine, with `sc` as engine `n`'s READY one. -/
def State.shareSum (s : State) (n : Nat) (sc : Sched) : Nat :=
  (List.range 16).foldl (fun a i =>
    let e := s.engS i
    let act := match e.active with | some x => x.share | none => 0
    let rdy := if i = n then sc.share else match e.ready with | some x => x.share | none => 0
    a + max act rdy) 0

/-- The loader enters FAILED (R58). -/
def State.schedFail (s : State) (n code off : Nat) : State :=
  let s := (s.wr (F.ENGn_SCHED_STATUS.LD_STATE n) 3).wr (F.ENGn_SCHED_STATUS.ERR n) code
  let s := s.wr (F.ENGn_SCHED_ERRLOC.OFFSET n) off
  (s.modEng n (fun e => { e with checking := none, ready := none, commit := false })).fault 0x0A n

/-- The SHARE test of engine `n` and its entry into READY (R61). A check that passes clears ERR and leaves ERRLOC
(log 67). -/
def State.shareTest (s : State) (n : Nat) (sc : Sched) : State :=
  if 300000 < s.shareSum n sc then s.schedFail n 0x11 0x24
  else
    let s := (s.wr (F.ENGn_SCHED_STATUS.LD_STATE n) 2).wr (F.ENGn_SCHED_STATUS.ERR n) 0
    s.modEng n (fun e => { e with checking := none, ready := some sc })

/-- The result of engine `n`'s SHARE test in the cycle at hand is taken back. -/
def State.shareUndo (s : State) (n off : Nat) : State :=
  let failed := s.rd (F.ENGn_SCHED_STATUS.LD_STATE n) == 3
  let s := (s.wr (F.ENGn_SCHED_ERRLOC.OFFSET n) off).modEng n (fun e => { e with ready := none })
  if failed then s.faultBack (0x0A, n) else s

/-- The schedule still stands where the SHARE test of this cycle left it: READY and not yet committed, or refused. -/
def State.shareStands (s : State) (e : Nat × Sched × Nat) : Bool :=
  let st := s.rd (F.ENGn_SCHED_STATUS.LD_STATE e.1)
  (st == 2 && (s.engS e.1).ready == some e.2.1 && !(s.engS e.1).commit) ||
    (st == 3 && s.rd (F.ENGn_SCHED_STATUS.ERR e.1) == 0x11)

/-- Insert a schedule that comes to the SHARE test in ascending engine order. -/
def shareInsert (e : Nat × Sched × Nat) : List (Nat × Sched × Nat) → List (Nat × Sched × Nat)
  | [] => [e]
  | x :: t => if e.1 ≤ x.1 then e :: x :: t else x :: shareInsert e t

/-- Engine `n` comes to the SHARE test: the checks that reach it in one cycle are taken in ascending engine order, whichever
comes first (R61). -/
def State.shareJoin (s : State) (n : Nat) (sc : Sched) : State :=
  let old := s.cycNow.shr.filter (fun e => e.1 != n && s.shareStands e)
  let l := shareInsert (n, sc, s.rd (F.ENGn_SCHED_ERRLOC.OFFSET n)) old
  let s := old.foldl (fun s e => s.shareUndo e.1 e.2.2) s
  (l.foldl (fun s e => s.shareTest e.1 e.2.1) s).modCyc (fun c => { c with shr := l })

/-- LOAD = 1 (R57, R58). -/
def State.schedLoad (s : State) (n : Nat) : State :=
  if n = 16 then s
  else
    let base := s.rd (F.ENGn_SCHED_BASE_LO.BASE_LO n) * 16 + s.rd (F.ENGn_SCHED_BASE_HI.BASE_HI n) * 2 ^ 32
    (s.wr (F.ENGn_SCHED_STATUS.LD_STATE n) 1).modEng n
      (fun e => { e with checking := some base, ready := none, commit := false })

/-- The active schedule of engine `n` changes (R52, R55, R61): status, ID, share, LEVEL and the tracking
condition follow; EW copies TARGET's (R172). -/
def State.setActive (s : State) (n : Nat) (sc : Option Sched) : State :=
  let s := s.modEng n (fun e => { e with
    active := sc, llItems := [], llLine := none, llEnded := false, llPos := 0, llWalk := {}
    llRead := [], llWild := false, tracking := false })
  let s := s.wrB (F.ENGn_SCHED_STATUS.ACTIVE n) sc.isSome
  let s := s.wr (F.ENGn_SCHED_ID.ID n) (match sc with | some x => x.id | none => 0)
  let s := if n < 16 then s.wr (F.MEM_ENGn_SHARE.SHARE n) (match sc with | some x => x.share | none => 0) else s
  let s := s.setLevel n (min (s.rd (F.ENGn_SPILL.LEVEL n)) (match sc with | some x => x.depth | none => 0))
  s.trackEval n

/-- The schedule is promoted: it becomes active (R58). R58 names no LD_STATE for the loader after a promotion: it is IDLE,
a choice of the model (log 83). -/
def State.promote (s : State) (n : Nat) : State :=
  let r := (s.engS n).ready
  let s := s.modEng n (fun e => { e with ready := none, commit := false })
  (s.wr (F.ENGn_SCHED_STATUS.LD_STATE n) 0).setActive n r

/-- A schedule matches the engine's active raster (R62). -/
def State.schedMatch (s : State) (n : Nat) (sc : Sched) : Bool :=
  sc.hActive == s.hActive n && sc.vActive == s.vActive n && sc.credits == s.creditsRead n

/-- COMMIT = 1 (R57, R58); while RUN = 0 it acts at once. -/
def State.schedCommit (s : State) (n : Nat) : State :=
  if n = 16 then s
  else if s.rd (F.ENGn_SCHED_STATUS.LD_STATE n) = 2 then
    if !s.running then s.promote n
    else if (s.engS n).commit then s
    else (s.modEng n (fun e => { e with commit := true })).arrive 0 n
  else s.flag (F.ENGn_SCHED_STATUS.COMMIT_REJECT n) (n + 1)

/-- DROP = 1 (R57, R58); while RUN = 0 it acts at once. -/
def State.schedDrop (s : State) (n : Nat) : State :=
  if n = 16 then s
  else if !s.running then s.setActive n none
  else if (s.engS n).drop then s
  else (s.modEng n (fun e => { e with drop := true })).arrive 1 n

/-- A write of ENGn_SCHED_CTRL: LOAD, COMMIT, DROP in that order (R57). -/
def State.schedCtrlWrite (s : State) (n v : Nat) : State :=
  let s := if v.testBit 0 then s.schedLoad n else s
  let s := if v.testBit 1 then s.schedCommit n else s
  if v.testBit 2 then s.schedDrop n else s

/-- `len` bytes of a schedule from byte `o` on, by blocks of 32; a read error at a block gives the offset of the block's
first schedule byte, and none is given where the HBM does not answer yet (R60, R517). -/
def State.schedRead (s : State) (base len : Nat) : Nat → Nat → Except (Option Nat) (List Byte) × State
  | 0, _ => (.ok [], s)
  | fuel + 1, o =>
    if len ≤ o then (.ok [], s)
    else
      let k := min (len - o) (32 - (base + o) % 32)
      match s.readPiece 0x82 (base + o) k with
      | (.ok bs, s) => match State.schedRead s base len fuel (o + k) with
        | (.ok r, s) => (.ok (bs ++ r), s)
        | x => x
      | (.wait, s) => (.error none, s)
      | (_, s) => (.error (some o), s)

/-- The check ends (R58-R61). The header is read whole before its fields are judged (log 67); while the HBM does not
answer the check waits (R517). -/
def State.schedCheckDone (s : State) (n : Nat) : State :=
  match (s.engS n).checking with
  | none => s
  | some base =>
    match s.schedRead base 0x80 5 0 with
    | (.error none, _) => s
    | (.error (some o), s) => s.schedFail n 0x12 o
    | (.ok h, s) =>
      match schedHeader n h with
      | some (c, o) => s.schedFail n c o
      | none =>
        let total := leAt h 0x28 4
        match s.schedRead base total (total / 32 + 2) 0 with
        | (.error none, _) => s
        | (.error (some o), s) => s.schedFail n 0x12 o
        | (.ok m, s) =>
          match s.schedCheck n base h m with
          | .error (c, o) => s.schedFail n c o
          | .ok sc => s.shareJoin n sc

/-- Promotion, removal and the raster comparison at the tick (R58, R62); a COMMIT or DROP of the tick's own cycle waits
(R57). ERRLOC keeps its value where a schedule due for promotion fails (log 67). -/
def State.schedTick (s : State) (n : Nat) : State :=
  let e := s.engS n
  let by_ := if n = 16 then s.rd F.ENG_WARD_STATUS.TARGET else n
  let s := if e.drop && !s.arrived 1 by_ then (s.modEng n (fun e => { e with drop := false })).setActive n none else s
  let (s, mis) := if e.commit && !s.arrived 0 by_ then
      match e.ready with
      | some sc => if s.schedMatch n sc then (s.promote n, false)
        else (((s.wr (F.ENGn_SCHED_STATUS.LD_STATE n) 3).wr (F.ENGn_SCHED_STATUS.ERR n) 6).modEng n
          (fun e => { e with ready := none, commit := false }), true)
      | none => (s, false)
    else (s, false)
  let (s, mis) := match (s.engS n).active with
    | some sc => if s.schedMatch n sc then (s, mis) else (s.setActive n none, true)
    | none => (s, mis)
  if mis then (s.flag (F.ENGn_SCHED_STATUS.MISMATCH n) (n + 1)).fault 0x0B n else s

/-! ### The sequencer (R64-R70) -/

/-- The sequencer executes commands: a schedule is active and its execution has not ended in this frame. -/
def State.llGo (s : State) (n : Nat) : Bool :=
  let e := s.engS n
  e.active.isSome && !e.llEnded

/-- Execution ends for the frame (R64, R520). -/
def State.llEnd (s : State) (n : Nat) : State := s.modEng n (fun e => { e with llEnded := true })

/-- Words of the read-ahead buffer: those of lines that composition has not left behind (R69). -/
def EngS.llHeld (e : EngS) : Nat :=
  (e.llRead.filter (fun p => Nat.ble e.nextLine p.1)).foldl (fun a p => a + p.2) 0

/-- The sequencer has read every command of line `k` (R69, R125). -/
def State.llPast (s : State) (n k : Nat) : Bool :=
  let e := s.engS n
  match e.active with
  | none => true
  | some sc => e.llEnded || Nat.ble (sc.llSize / 8) e.llPos || (match e.llLine with
    | some l => Nat.blt k l
    | none => false)

/-- Line `k` of engine `n` is poisoned: the faults of the fetches that failed wait for its deadline (R49). -/
def State.poisonLine (s : State) (n k : Nat) : State :=
  let mine := (s.memc.held.filter (fun p => p.1 == n)).map (fun p => (k, p.2))
  let s := { s with memc := { s.memc with held := s.memc.held.filter (fun p => p.1 != n) } }
  s.modEng n (fun e => { e with poison := if e.poison.contains k then e.poison else k :: e.poison, flts := mine ++ e.flts })

/-- Word `i` of the active line list as memory holds it now, and what reading it did; none: at or beyond LL_SIZE, or it
cannot be read (R64, R70). -/
def State.llWordAt (s : State) (n i : Nat) : Option Nat × State :=
  match (s.engS n).active with
  | none => (none, s)
  | some sc =>
    if sc.llSize / 8 ≤ i then (none, s)
    else match s.readPiece n ((sc.base + sc.llOff + 8 * i) % 2 ^ 40) 8 with
      | (.ok bs, s) => (some (leVal bs), s)
      | (_, s) => (none, s)

/-- `cnt` payload words from word `i` on. Beyond LL_SIZE their values are undefined (R520): free values. None: one of them
cannot be read. -/
def State.llPayloadAt (s : State) (n : Nat) : Nat → Nat → Option (List Nat) × State
  | 0, _ => (some [], s)
  | cnt + 1, i =>
    let inside := match (s.engS n).active with
      | some sc => Nat.blt i (sc.llSize / 8)
      | none => false
    let (w, s) := if inside then s.llWordAt n i else let (v, s) := s.free; (some (v % 2 ^ 64), s)
    match w with
    | none => (none, s)
    | some w => match s.llPayloadAt n cnt (i + 1) with
      | (some ws, s) => (some (w :: ws), s)
      | x => x

/-- A word that the loader would refuse for a reason R520 does not settle: the frame's pixels, line-writable registers,
sounds and signals are undefined from it on. Words before the first LINE are skipped. `k` is the walk before it. -/
def llWildWord (w left v h : Nat) (k : LlWalk) : Bool :=
  let op := bitsOf w 60 4
  let es := (llCheckWord w left v h k).1
  let snd := op == 8 && !(decide (2 ^ 12 ≤ bitsOf w 32 28) || decide (2 ^ 16 ≤ bitsOf w 0 32))
  (op == 1 || k.line.isSome) &&
    ((es.contains 11 && decide (op < 12) && !snd) || (es.contains 12 && op != 1) || es.contains 14 || es.contains 15)

/-- The sequencer reads its next command if `p` holds of its word and payload: both, and the state in which they have been
read and counted. It reads no further while its 16 KiB buffer is full (R69). -/
def State.llTake (s : State) (n : Nat) (p : Nat → List Nat → Bool) : Option (Nat × List Nat × State) :=
  if !s.llGo n then none
  else match s.llWordAt n (s.engS n).llPos with
    | (none, _) => none
    | (some w, s1) =>
      let e := s.engS n
      if 2048 < e.llHeld + 1 + llPayload w then none
      else match s1.llPayloadAt n (llPayload w) (e.llPos + 1) with
        | (none, _) => none
        | (some ws, s2) =>
          let left := match e.active with
            | some sc => sc.llSize / 8 - e.llPos - 1
            | none => 0
          let wild := llWildWord w left (s.vActive n) (s.hActive n) e.llWalk
          let walk := (llCheckWord w left (s.vActive n) (s.hActive n) e.llWalk).2
          let line := if bitsOf w 60 4 = 1 then bitsOf w 32 13 else e.llLine.getD 0
          if !p w ws then none
          else some (w, ws, s2.modEng n (fun e => { e with
            llPos := e.llPos + 1 + ws.length, llWalk := walk, llWild := e.llWild || wild
            llRead := Tbl.put e.llRead line (Tbl.get 0 e.llRead line + 1 + ws.length) }))

/-- The sequencer's next command is one of those `p` names, and acts by `f` on its word. -/
def State.llStep (s : State) (n : Nat) (p : Nat → List Nat → Bool) (f : Nat → State → State) : State :=
  match s.llTake n p with
  | none => s
  | some (w, _, s) => f w s

/-- The word has opcode `op`. -/
def opIs (op w : Nat) : Bool := bitsOf w 60 4 == op

/-- A LINE command; a value not above the previous one, or at or beyond V_ACTIVE, ends execution (R520). -/
def State.llLine (s : State) (n k : Nat) : State :=
  let bad := decide (s.vActive n ≤ k) || (match (s.engS n).llLine with | some l => decide (k ≤ l) | none => false)
  if bad then s.llEnd n else s.modEng n (fun e => { e with llLine := some k, llX := 0 })

/-- A command other than LINE and END is bound to its line and segment; before the first LINE it is skipped (R520). What
becomes of a command that is read only after its line's deadline the spec does not say: it is dropped with its register
write, its SND and its SIG, a choice of the model (log 83). -/
def State.llPut (s : State) (n : Nat) (c : LlCmd) : State :=
  match (s.engS n).llLine with
  | none => s
  | some k => s.modEng n (fun e => { e with llItems := e.llItems ++ [{ k, x := e.llX, cmd := c }] })

/-- A WAITX command opens the segment from pixel `x` on (R66, R67). -/
def State.llWaitx (s : State) (n x : Nat) : State :=
  match (s.engS n).llLine with
  | none => s
  | some _ => s.modEng n (fun e => { e with llX := x })

/-- The command that a word and its payload are, by the fields of R65; none: LINE, WAITX, NOP, END. -/
def llDecode (w : Nat) (ws : List Nat) : Option LlCmd :=
  let arg := fun lo n => bitsOf w (32 + lo) n
  let data := bitsOf w 0 32
  let lo := fun i => bitsOf (ws.getD i 0) 0 32
  let hi := fun i => bitsOf (ws.getD i 0) 32 32
  match bitsOf w 60 4 with
  | 2 => some (.wreg (arg 0 16) data)
  | 3 => some (.wblk (arg 0 16) (((List.range ws.length).flatMap (fun i => [lo i, hi i])).take (arg 16 8 + 1)))
  | 4 => some (.pal (arg 0 6) (arg 6 8) (arg 14 8 + 1) data)
  | 5 => some (.scroll (arg 0 3) (arg 3 1 == 1) (arg 4 1 == 1) (bitsOf data 0 16) (bitsOf data 16 16))
  | 6 => some (.affine (arg 0 1) (lo 0) (hi 0) (lo 1) (hi 1) (lo 2) (hi 2))
  | 7 => some (.order (arg 0 3))
  | 8 => some (.snd (arg 0 9) (arg 9 3) (bitsOf data 0 16))
  | 9 => some (.sig (arg 0 2))
  | _ => none

/-- The command `c`, where it is the next one, is read and bound (R65, R67). -/
def State.llBind (s : State) (n : Nat) (c : LlCmd) : State :=
  s.llStep n (fun w ws => llDecode w ws == some c) (fun _ s => s.llPut n c)

/-- LL_END: the list ends at an END word or at LL_SIZE (R64). -/
def State.llStop (s : State) (n : Nat) : State :=
  if !s.llGo n then s
  else match (s.engS n).active with
    | none => s
    | some sc => if sc.llSize / 8 ≤ (s.engS n).llPos then s.llEnd n else s.llStep n (fun w _ => opIs 0 w) (fun _ s => s.llEnd n)

/-- A read error (R70): the first line whose commands are not all read is poisoned, its commands and triggers do
not take effect, and the list ends for the frame. It is met at the next word; `cause` as for `fetchErr`. -/
def State.llReadError (s : State) (n cause : Nat) : State :=
  if !s.llGo n then s
  else
    let at_ := match (s.engS n).active with
      | some sc => sc.base + sc.llOff + 8 * (s.engS n).llPos
      | none => 0
    let k := (s.engS n).llLine.getD 0
    let s := s.modEng n (fun e => { e with
      llEnded := true, llItems := e.llItems.filter (fun i => i.k != k)
      mute := k :: e.mute })
    ((s.flag (F.ENGn_SCHED_STATUS.LL_ABORT n) (n + 1)).fetchErr cause (at_ % 2 ^ 40) n).poisonLine n k

/-- The sequencer starts again from the first word (R520). -/
def State.llRestart (s : State) (n : Nat) : State :=
  s.modEng n (fun e => { e with
    llItems := [], llLine := none, llX := 0, llEnded := false, mute := [], llPos := 0
    llWalk := {}, llRead := [], llWild := false })

end Sys2Proof.Machine
end

