-- ==== Sys2Proof/Machine/Crypto.lean ====
section
/-! DEFINITION. ECDSA and ECDH over P-384 (R417; FIPS 186-5) and the X.509 v3 certificate in DER (R229, R428). -/

namespace Sys2Proof.Machine

/-! ### The curve P-384: y^2 = x^3 - 3x + b modulo p, of order n -/

/-- The field's prime, the curve's coefficient b and its order n. -/
def ecP : Nat := 2 ^ 384 - 2 ^ 128 - 2 ^ 96 + 2 ^ 32 - 1
def ecB : Nat := 0xb3312fa7e23ee7e4988e056be3f82d19181d9c6efe8141120314088f5013875ac656398d8a2ed19d2a85c8edd3ec2aef
def ecN : Nat := 0xffffffffffffffffffffffffffffffffffffffffffffffffc7634d81f4372ddf581a0db248b0a77aecec196accc52973

/-- `b` to the power `e` modulo `m`, over the low `bits` bits of `e`. -/
def powMod (m b : Nat) : Nat → Nat → Nat
  | 0, _ => 1
  | bits + 1, e =>
    let h := powMod m b bits (e / 2)
    let q := h * h % m
    if e % 2 = 1 then q * b % m else q

/-- The inverse of `x` modulo a prime `m` below 2^384. -/
def invMod (m x : Nat) : Nat := powMod m (x % m) 384 (m - 2)

/-- A difference modulo p of values below p. -/
def ecSub (a b : Nat) : Nat := (a + ecP - b) % ecP

/-- A point in Jacobian coordinates: x = X / Z^2, y = Y / Z^3; the point at infinity has Z = 0. -/
structure EcPt where
  x : Nat
  y : Nat
  z : Nat
  deriving DecidableEq, Repr

/-- The point at infinity and the generator. -/
def ecInf : EcPt := { x := 1, y := 1, z := 0 }
def ecG : EcPt :=
  { x := 0xaa87ca22be8b05378eb1c71ef320ad746e1d3b628ba79b9859f741e082542a385502f25dbf55296c3a545e3872760ab7
    y := 0x3617de4a96262c6f5d9e98bf9292dc29f8f41dbd289a147ce9da3113b5f0b8c00a60b1ce1d7e819d7a431d7c90ea0e5f
    z := 1 }

/-- Twice a point. -/
def EcPt.dbl (p : EcPt) : EcPt :=
  if p.z = 0 then p
  else
    let yy := p.y * p.y % ecP
    let zz := p.z * p.z % ecP
    let s := 4 * p.x * yy % ecP
    let m := 3 * ecSub p.x zz * (p.x + zz) % ecP
    let x := ecSub (m * m % ecP) (2 * s % ecP)
    { x := x, y := ecSub (m * ecSub s x % ecP) (8 * (yy * yy % ecP) % ecP), z := 2 * p.y * p.z % ecP }

/-- The sum of two points. -/
def EcPt.add (p q : EcPt) : EcPt :=
  if p.z = 0 then q
  else if q.z = 0 then p
  else
    let pz := p.z * p.z % ecP
    let qz := q.z * q.z % ecP
    let u := p.x * qz % ecP
    let s := p.y * (qz * q.z % ecP) % ecP
    let h := ecSub (q.x * pz % ecP) u
    let r := ecSub (q.y * (pz * p.z % ecP) % ecP) s
    if h = 0 then (if r = 0 then p.dbl else ecInf)
    else
      let hh := h * h % ecP
      let hhh := hh * h % ecP
      let v := u * hh % ecP
      let x := ecSub (ecSub (r * r % ecP) hhh) (2 * v % ecP)
      { x := x, y := ecSub (r * ecSub v x % ecP) (s * hhh % ecP), z := p.z * q.z % ecP * h % ecP }

/-- The low `bits` bits of `k` times a point. -/
def EcPt.mul (p : EcPt) : Nat → Nat → EcPt
  | 0, _ => ecInf
  | bits + 1, k =>
    let q := (EcPt.mul p bits (k / 2)).dbl
    if k % 2 = 1 then q.add p else q

/-- The affine coordinates of a point that is not at infinity. -/
def EcPt.affine (p : EcPt) : Nat × Nat :=
  let i := invMod ecP p.z
  let ii := i * i % ecP
  (p.x * ii % ecP, p.y * (ii * i % ecP) % ecP)

/-- The point of a public key in the form 0x04, X, Y (R222), if it is one of the curve. -/
def ecPoint (key : List Byte) : Option EcPt :=
  let x := beVal ((key.drop 1).take 48)
  let y := beVal (key.drop 49)
  if key.length = 97 ∧ key.head? = some 4#8 ∧ x < ecP ∧ y < ecP ∧
      y * y % ecP = (x * x % ecP * x + (ecP - 3) * x + ecB) % ecP
  then some { x := x, y := y, z := 1 } else none

/-- The public key of a private key, X and Y. -/
def ecPublic (d : Nat) : List Byte :=
  let (x, y) := (ecG.mul 384 d).affine
  beBytes 48 x ++ beBytes 48 y

/-- ECDSA verification of a 96-byte signature over a 48-byte digest under a 97-byte public key (R417). -/
def ecVerify (key digest sig : List Byte) : Bool :=
  let r := beVal (sig.take 48)
  let s := beVal (sig.drop 48)
  match ecPoint key with
  | none => false
  | some q =>
    if r = 0 ∨ ecN ≤ r ∨ s = 0 ∨ ecN ≤ s then false
    else
      let w := invMod ecN s
      let t := (ecG.mul 384 (beVal digest * w % ecN)).add (q.mul 384 (r * w % ecN))
      t.z != 0 && t.affine.1 % ecN == r

/-- The ECDSA signature r, s over a digest with private key `d` and per-message secret `k` (R417). -/
def ecSignWith (d : Nat) (digest : List Byte) (k : Nat) : Nat × Nat :=
  let r := (ecG.mul 384 k).affine.1 % ecN
  (r, invMod ecN k * (beVal digest + r * d) % ecN)

/-- The signature with the first of four per-message secrets from `k` on that gives neither r nor s the value 0. -/
def ecSign (d : Nat) (digest : List Byte) (k : Nat) : List Byte :=
  let l := (List.range 4).map (fun i => ecSignWith d digest ((k + i) % (ecN - 1) + 1))
  let (r, s) := (l.find? (fun e => e.1 != 0 && e.2 != 0)).getD (0, 0)
  beBytes 48 r ++ beBytes 48 s

/-- The x-coordinate of the point shared with the holder of a public key; none where the key is no point of the curve. -/
def ecShared (key : List Byte) (d : Nat) : Option Nat := (ecPoint key).map (fun q => (q.mul 384 d).affine.1)

/-! ### DER -/

/-- The length octets at the head of a list, in their shortest form, and the rest. -/
def derLen : List Byte → Option (Nat × List Byte)
  | [] => none
  | b :: r =>
    if b.toNat < 0x80 then some (b.toNat, r)
    else if b = 0x81#8 then match r with
      | c :: r => if 0x80 ≤ c.toNat then some (c.toNat, r) else none
      | _ => none
    else if b = 0x82#8 then match r with
      | c :: d :: r => if c ≠ 0#8 then some (256 * c.toNat + d.toNat, r) else none
      | _ => none
    else none

/-- The first element: tag, contents, and what follows it. -/
def derNext : List Byte → Option (Nat × List Byte × List Byte)
  | [] => none
  | t :: r => match derLen r with
    | none => none
    | some (n, r) => if r.length < n then none else some (t.toNat, r.take n, r.drop n)

/-- The elements of the contents of a constructed one, at most `fuel`: tag, contents, whole encoding. -/
def derAll : Nat → List Byte → Option (List (Nat × List Byte × List Byte))
  | _, [] => some []
  | 0, _ => none
  | fuel + 1, b => match derNext b with
    | none => none
    | some (t, c, r) => (derAll fuel r).map (fun l => (t, c, b.take (b.length - r.length)) :: l)

/-- The elements of contents. -/
def derItems (b : List Byte) : Option (List (Nat × List Byte × List Byte)) := derAll b.length b

/-- Object identifiers: ecdsa-with-SHA384, id-ecPublicKey, secp384r1, authorityKeyIdentifier, basicConstraints. -/
def oidSign : List Byte := [0x2A#8, 0x86#8, 0x48#8, 0xCE#8, 0x3D#8, 4#8, 3#8, 3#8]
def oidKey : List Byte := [0x2A#8, 0x86#8, 0x48#8, 0xCE#8, 0x3D#8, 2#8, 1#8]
def oidCurve : List Byte := [0x2B#8, 0x81#8, 4#8, 0#8, 0x22#8]
def oidIssuer : List Byte := [0x55#8, 0x1D#8, 0x23#8]
def oidBasic : List Byte := [0x55#8, 0x1D#8, 0x13#8]

/-- An AlgorithmIdentifier that is ecdsa-with-SHA384. -/
def derSignAlg (c : List Byte) : Bool := (derItems c).map (fun l => l.map (fun e => (e.1, e.2.1))) == some [(6, oidSign)]

/-- The 97-byte P-384 key of a SubjectPublicKeyInfo's contents. -/
def derKey (c : List Byte) : Option (List Byte) :=
  match derItems c with
  | some [(0x30, alg, _), (3, bits, _)] =>
    if (derItems alg).map (fun l => l.map (fun e => (e.1, e.2.1))) = some [(6, oidKey), (6, oidCurve)] ∧
        bits.length = 98 ∧ bits.take 2 = [0#8, 4#8]
    then some (bits.drop 1) else none
  | _ => none

/-- The value of the extension `oid`, of the contents of the Extensions sequence. -/
def derExt (oid : List Byte) (exts : List (Nat × List Byte × List Byte)) : Option (List Byte) :=
  exts.findSome? (fun e => match derItems e.2.1 with
    | some ((6, o, _) :: rest) => if o = oid then (match rest.getLast? with
      | some (4, v, _) => some v
      | _ => none) else none
    | _ => none)

/-- keyIdentifier of an authorityKeyIdentifier. -/
def derKeyId (v : List Byte) : Option (List Byte) :=
  match derNext v with
  | some (0x30, c, []) => (derItems c).bind (fun l => (l.find? (fun e => e.1 == 0x80)).map (fun e => e.2.1))
  | _ => none

/-- cA of a basicConstraints. -/
def derIsCa (v : List Byte) : Bool :=
  match derNext v with
  | some (0x30, c, []) => (match derNext c with
    | some (1, b, _) => b == [0xFF#8]
    | _ => false)
  | _ => false

/-- An INTEGER's contents as a number in 48 bytes; none where it is negative or too large. -/
def derInt (c : List Byte) : Option (List Byte) :=
  match c with
  | [] => none
  | b :: _ => if 0x80 ≤ b.toNat ∨ 2 ^ 384 ≤ beVal c then none else some (beBytes 48 (beVal c))

/-- What the Skokor takes from a certificate (R428). -/
structure Cert where
  tbs : List Byte
  sig : List Byte
  key : List Byte
  issuer : Option (List Byte)
  ca : Bool
  deriving DecidableEq, Repr

/-- The fields after the version: serial number, signature algorithm, issuer, validity, subject, subject key, and the
extensions. -/
def certFields (l : List (Nat × List Byte × List Byte)) : Option (List Byte × List (Nat × List Byte × List Byte)) :=
  match l with
  | (2, _, _) :: (0x30, alg, _) :: (0x30, _, _) :: (0x30, _, _) :: (0x30, _, _) :: (0x30, spki, _) :: rest =>
    match derSignAlg alg, derKey spki with
    | true, some key => match rest.filter (fun e => e.1 != 0x81 && e.1 != 0x82) with
      | [] => some (key, [])
      | [(0xA3, x, _)] => (match derNext x with
        | some (0x30, es, []) => (derItems es).map (fun es => (key, es))
        | _ => none)
      | _ => none
    | _, _ => none
  | _ => none

/-- A DER-encoded X.509 v3 certificate of a P-384 key, signed with ecdsa-with-SHA384 (R229); none for any other bytes. -/
def certOf (b : List Byte) : Option Cert :=
  match derNext b with
  | some (0x30, c, []) => match derItems c with
    | some [(0x30, t, tbs), (0x30, alg, _), (3, bits, _)] => match derItems t, bits with
      | some ((0xA0, ver, _) :: fields), z :: sg =>
        if ver ≠ [2#8, 1#8, 2#8] ∨ !derSignAlg alg ∨ z ≠ 0#8 then none
        else match certFields fields, derNext sg with
          | some (key, exts), some (0x30, rs, []) => match derItems rs with
            | some [(2, r, _), (2, s, _)] => match derInt r, derInt s with
              | some r, some s => some { tbs := tbs, sig := r ++ s, key := key
                                         issuer := (derExt oidIssuer exts).bind derKeyId
                                         ca := match derExt oidBasic exts with
                                           | some v => derIsCa v
                                           | none => false }
              | _, _ => none
            | _ => none
          | _, _ => none
      | _, _ => none
    | _ => none
  | _ => none

end Sys2Proof.Machine
end

