-- ==== Sys2Proof/Machine/Arrays.lean ====
section
/-! DEFINITION. Words of on-chip arrays that have no system address: palettes, line FIFOs, object line buffers, the descriptor
pool, LUTs and the cells of ports (R267, R268, R278). Wrong bits of such a word stand beside its data as an XOR pattern over
its 80-bit code word (`MemS.arrErr`, `QCell.bad`), since the code is linear. A word stored anew is a code word again. -/

namespace Sys2Proof.Machine

/-- The data of a word whose decoder corrects it wrongly, or rightly with `x` = 0, is written back (R268). -/
def State.arrPatch (s : State) (w : ArrWord) (x : Nat) : State :=
  if x = 0 then s
  else match w with
    | .pal n k => s.modEng n (fun e => { e with pal := Tbl.set 0 e.pal k ((Tbl.get 0 e.pal k ^^^ x) % 2 ^ 48) })
    | .line n k p => s.modEng n (fun e => { e with
        fifo := e.fifo.map (fun r => if r.k = k then { r with pix := r.pix.set p ((r.pix.getD p 0 ^^^ x) % 2 ^ 36) } else r) })
    | .obj n q p => s.modEng n (fun e =>
        let b := Tbl.get [] e.objBuf q
        match Tbl.find b p with
        | some v => { e with objBuf := Tbl.put e.objBuf q (Tbl.put b p (v ^^^ x)) }
        | none => e)
    | .desc i d =>
      let a := s.obj.act
      let put := fun (t : Tbl Nat) (w v : Nat) => Tbl.set 0 t (8 * i + w) ((Tbl.get 0 t (8 * i + w) ^^^ v) % 2 ^ 32)
      { s with obj := { s.obj with act := put (put a (2 * d) x) (2 * d + 1) (x / 2 ^ 32) } }
    | .lut p k =>
      let y := Tbl.get {} s.port p
      { s with port := Tbl.put s.port p { y with lut := Tbl.set 0 y.lut k ((Tbl.get 0 y.lut k ^^^ x) % 2 ^ 48) } }

/-- A correction in an array without system addresses is counted, and logged with LOG_CE (R268, R280); the address its entry
shows is free (log 8). -/
def State.arrCe (s : State) (req n : Nat) : State :=
  let s := s.incRc F.MEM_SRAM_CE_CNT.COUNT
  if s.on F.MEM_CTRL.LOG_CE then
    let (a, s) := s.free
    s.memLog 1 (a % 2 ^ 40) req n
  else s

/-- The number of bits in a correction. -/
def flips (m : Nat) : Nat := ((List.range 80).filter (fun i => m.testBit i)).length

/-- Words of arrays are stored: they hold code words from now on (R267). -/
def State.arrStore (s : State) (p : ArrWord → Bool) : State :=
  { s with memc := { s.memc with arrErr := s.memc.arrErr.filter (fun e => !p e.1) } }

/-- Requester `req` reads the words of arrays that `p` names: each is decoded; a correctable one is counted and written back
(R268), an uncorrectable one counted, logged and raised (R278, R280). True: one was uncorrectable. -/
def State.arrRead (s : State) (req : Nat) (p : ArrWord → Bool) : Bool × State :=
  (s.memc.arrErr.filter (fun e => p e.1)).foldl (fun r e =>
    match bchDecode e.2 with
    | none => (true, r.2.fetchErr 2 0 req)
    | some m => (r.1, (((r.2.arrCe req (flips m)).arrPatch e.1 (bitsOf (e.2 ^^^ m) 15 64)).arrStore (· == e.1)))) (false, s)

/-- The wrong bits of a cell read from an array, corrected: the cell, and whether a word of it was uncorrectable. Word `j` below
64 is payload bits 64 j to 64 j + 63; 64 and 65 hold the header words. -/
def State.cellRead (s : State) (q : QCell) : (Bool × Cell) × State :=
  q.bad.foldl (fun r e =>
    match bchDecode e.2 with
    | none => ((true, r.1.2), r.2.fetchErr 2 0 0x85)
    | some m =>
      let x := bitsOf (e.2 ^^^ m) 15 64
      let c := r.1.2
      let c := if e.1 < 64 then { c with pay := c.pay ^^^ x * 2 ^ (64 * e.1) }
        else if e.1 = 64 then { c with w1 := c.w1 ^^^ bitsOf x 0 32, w2 := c.w2 ^^^ bitsOf x 32 32 }
        else { c with w3 := c.w3 ^^^ bitsOf x 0 32 }
      ((r.1.1, c), r.2.arrCe 0x85 (flips m))) ((false, q.cell), s)

end Sys2Proof.Machine
end

