-- ==== Sys2Proof/Machine/Pixel.lean ====
section
/-! DEFINITION. Pixel arithmetic shared by the planes: pixel formats, palettes, windows, blending, window effects
(03_tile_planes.md R80-R86, R98-R99; 05_composition.md R134-R138, R149; 06 R162, R166). -/

namespace Sys2Proof.Machine

/-- A list of numbers without repeats. -/
def dedupN (l : List Nat) : List Nat := l.foldr (fun a r => if r.contains a then r else a :: r) []

/-- A plane pixel (R77): 12-bit colours, alpha, FLAGS, and PRIO or PRI. -/
structure PPix where
  r : Nat
  g : Nat
  b : Nat
  a : Nat
  flags : Nat
  pri : Nat
  deriving DecidableEq, Repr

/-- The little-endian value of `n` bytes that a fetch function finds from address `a` (modulo 2^40). -/
def fetchLE (f : Nat → Byte) (a n : Nat) : Nat := leVal ((List.range n).map (fun i => f ((a + i) % 2 ^ 40)))

/-- Bytes of pixel `i` of a run in format `fmt` (0 4 bpp, 1 8 bpp, 2 16 bpp, 3 32 bpp): byte offset (R83). -/
def texelOff (fmt i : Nat) : Nat :=
  match fmt with
  | 0 => i / 2
  | 1 => i
  | 2 => 2 * i
  | _ => 4 * i

/-- Pixel value `i` of a run that starts at `base` (R83). -/
def texel (f : Nat → Byte) (base fmt i : Nat) : Nat :=
  let a := base + texelOff fmt i
  match fmt with
  | 0 => let v := fetchLE f a 1
    if i % 2 = 0 then v % 16 else v / 16
  | 1 => fetchLE f a 1
  | 2 => fetchLE f a 2
  | _ => fetchLE f a 4

/-- Bit replication of 5 and 8 bits to 12 (R84). -/
def exp5 (c : Nat) : Nat := (c <<< 7) ||| (c <<< 2) ||| (c >>> 3)
def exp8 (c : Nat) : Nat := (c <<< 4) ||| (c >>> 4)

/-- A direct pixel (R84); none where it is transparent. -/
def directPix (fmt v pri : Nat) : Option PPix :=
  if fmt = 2 then
    if v.testBit 15 then some ⟨exp5 (bitsOf v 10 5), exp5 (bitsOf v 5 5), exp5 (bitsOf v 0 5), 255, 0, pri⟩ else none
  else if bitsOf v 24 8 = 0 then none
  else some ⟨exp8 (bitsOf v 16 8), exp8 (bitsOf v 8 8), exp8 (bitsOf v 0 8), bitsOf v 24 8, 0, pri⟩

/-- The plane pixel of palette entry `e` of palette `p` (R85, R86). -/
def palPix (pal : Tbl Nat) (p e pri : Nat) : PPix :=
  let v := Tbl.get 0 pal (256 * (p % 64) + e % 256)
  ⟨bitsOf v 24 12, bitsOf v 12 12, bitsOf v 0 12, bitsOf v 36 8, bitsOf v 44 4, pri⟩

/-- An indexed or direct source value as a plane pixel (R84, R86). -/
def valuePix (pal : Tbl Nat) (fmt v p subpal pri : Nat) (zeroOpaque : Bool) : Option PPix :=
  if fmt < 2 then
    if v = 0 ∧ zeroOpaque = false then none
    else some (palPix pal p (if fmt = 0 then subpal * 16 + v else v) pri)
  else directPix fmt v pri

/-- A window (R98). -/
structure Win where
  x0 : Nat
  x1 : Nat
  y0 : Nat
  y1 : Nat
  deriving DecidableEq, Repr

/-- Window `w` contains pixel `(x, k)` (R98). -/
def Win.has (w : Win) (x k : Nat) : Bool :=
  decide (w.x0 ≤ x) && decide (x ≤ w.x1) && decide (w.y0 ≤ k) && decide (k ≤ w.y1)

/-- A plane is visible at a pixel under its window mask (R99). -/
def maskShows (wmode : Nat) (sel0 sel1 in0 in1 : Bool) : Bool :=
  let u := (sel0 && in0) || (sel1 && in1)
  match wmode with
  | 1 => u
  | 2 => !u
  | _ => true

/-- `floor`-free rounding of R135: (v + 127) / 255. -/
def div255 (v : Nat) : Nat := (v + 127) / 255

/-- One channel of a blend of mode `m` with alpha `a` (R135). -/
def blendCh (m a s d : Nat) : Nat :=
  match m with
  | 0 => div255 (s * a + d * (255 - a))
  | 1 => min (d + div255 (s * a)) 4095
  | 2 => d - div255 (s * a)
  | _ => div255 ((s * d + 2047) / 4095 * a + d * (255 - a))

/-- A colour of three 12-bit channels: red, green, blue. -/
abbrev Rgb := Nat × Nat × Nat

/-- A plane pixel blended over the running value (R134-R137). -/
def blendPix (mode palpha : Nat) (p : PPix) (d : Rgb) : Rgb :=
  let a := div255 (p.a * palpha)
  let m := if p.flags % 4 ≠ 0 then p.flags % 4 - 1 else mode
  let sh := p.flags.testBit 3
  let ch := fun s d => blendCh m a (if sh then d / 2 else s) d
  (ch p.r d.1, ch p.g d.2.1, ch p.b d.2.2)

/-- A window effect on one channel (R138). -/
def fxCh (mode l col d : Nat) : Nat :=
  match mode with
  | 1 => div255 (col * l + d * (255 - l))
  | 2 => div255 (d * l)
  | _ => d

/-- A composed pixel as one number: red << 24 | green << 12 | blue. -/
def packRgb (c : Rgb) : Nat := c.1 * 2 ^ 24 + c.2.1 * 2 ^ 12 + c.2.2
def unpackRgb (v : Nat) : Rgb := (bitsOf v 24 12, bitsOf v 12 12, bitsOf v 0 12)

/-- The frame-store word of a composed pixel (R162). -/
def fsWord (v : Nat) : Nat :=
  let (r, g, b) := unpackRgb v
  (min ((r + 1) / 2) 2047) * 2 ^ 21 + (min ((g + 1) / 2) 2047) * 2 ^ 10 + min ((b + 2) / 4) 1023

/-- The composed pixel that a frame-store word expands to (R162). -/
def fsExpand (w : Nat) : Nat :=
  let r := bitsOf w 21 11
  let g := bitsOf w 10 11
  let b := bitsOf w 0 10
  packRgb (2 * r + r / 1024, 2 * g + g / 1024, 4 * b + b / 256)

/-- One byte into the CRC-32 of IEEE 802.3, reflected (R166). -/
def crc32Byte (c : Nat) (b : Nat) : Nat :=
  (List.range 8).foldl (fun c _ => if c % 2 = 1 then (c / 2) ^^^ 0xEDB88320 else c / 2) (c ^^^ (b % 256))

/-- The five bytes a pixel contributes to a signature (R166). -/
def sigBytes (v : Nat) : List Nat :=
  let (r, g, b) := unpackRgb v
  [b % 256, (g % 16) * 16 + b / 256, g / 16, r % 256, r / 256]

/-- Pixels into a running signature (R166). -/
def sigPixels (c : Nat) (pix : List Nat) : Nat := pix.foldl (fun c v => (sigBytes v).foldl crc32Byte c) c

/-- The final XOR of the CRC. -/
def crcOut (c : Nat) : Nat := c ^^^ 0xFFFFFFFF

/-- The dither matrix of R149. -/
def ditherM (y x : Nat) : Nat :=
  ([[0, 8, 2, 10], [12, 4, 14, 6], [3, 11, 1, 9], [15, 7, 13, 5]].getD (y % 4) []).getD (x % 4) 0

/-- Quantisation of a 16-bit value to `nb` bits for tile pixel `(tx, ty)` (R149). -/
def quantise (nb c16 tx ty : Nat) (dither : Bool) : Nat :=
  let d := 16 - nb
  let off := if dither then ditherM ty tx * 2 ^ (d - 4) + 2 ^ (d - 4) / 2 else 2 ^ (d - 1)
  min ((c16 + off) / 2 ^ d) (2 ^ nb - 1)

end Sys2Proof.Machine
end

