-- ==== Sys2Proof/Machine/Link.lean ====
section
/-! DEFINITION. One Pelell link end: control blocks, cells, retry, flow control, echo (07_pelell_link.md). A link end
is named by a number: Skokor port `p` is `p`; side `d` of the tile at hop `h + 1` of chain `p` is
`24 + 2 * (64 * p + h) + d`. -/

namespace Sys2Proof.Machine

/-- The state of a link end. -/
def State.laneS (s : State) (l : Nat) : LaneS := Tbl.get {} s.lane l

/-- The state with a link end changed by `f`. -/
def State.modLane (s : State) (l : Nat) (f : LaneS → LaneS) : State := { s with lane := Tbl.put s.lane l (f (s.laneS l)) }

/-- The internal state of port `p`. -/
def State.portS (s : State) (p : Nat) : PortS := Tbl.get {} s.port p

/-- The state with port `p` changed by `f`. -/
def State.modPort (s : State) (p : Nat) (f : PortS → PortS) : State := { s with port := Tbl.put s.port p (f (s.portS p)) }

/-- The tile at index `k` = 64 * port + hop - 1. -/
def State.tileS (s : State) (k : Nat) : TileS := Tbl.get {} s.tile k

/-- The state with tile `k` changed by `f`. -/
def State.modTile (s : State) (k : Nat) (f : TileS → TileS) : State := { s with tile := Tbl.put s.tile k (f (s.tileS k)) }

/-- The link end of side `d` of tile `k`. -/
def tileLane (k d : Nat) : Nat := 24 + 2 * k + d % 2

/-- The tile of a link end, and its other side. -/
def laneTile (l : Nat) : Nat := (l - 24) / 2
def laneSide (l : Nat) : Nat := (l - 24) % 2
def laneOther (l : Nat) : Nat := tileLane (laneTile l) (1 - laneSide l)

/-- The lane state (R189): 0 DOWN, 1 LOCK, 2 TRAIN, 3 UP. -/
def State.laneSt (s : State) (l : Nat) : Nat :=
  if l < 24 then s.rd (F.PLKn_LSTAT.LSTATE l) else (s.laneS l).st

/-- The lane state is set. -/
def State.setLaneSt (s : State) (l v : Nat) : State :=
  if l < 24 then (s.wr (F.PLKn_LSTAT.LSTATE l) v).bootSteps else s.modLane l (fun x => { x with st := v })

/-- A counter of a Skokor port, if the end is one. -/
def State.laneCnt (s : State) (l : Nat) (f : Nat → Fld) : State := if l < 24 then s.incRc (f l) else s

/-- RETRY_TO in ECLK, RETRY_MAX and ACK_N of a link end (R197, R198). -/
def State.retryTo (s : State) (l : Nat) : Nat :=
  if l < 24 then max 1000 (s.rd (F.PLKn_RETRY.TO l)) * 3 / 5 else 9600
def State.retryMax (s : State) (l : Nat) : Nat := if l < 24 then max 1 (s.rd (F.PLKn_RETRY.MAX l)) else 8
def State.ackN (s : State) (l : Nat) : Nat := if l < 24 then max 1 (s.rd (F.PLKn_RETRY.ACK_N l)) else 8

/-- ECLK cycles in units of 0.25 ns, and back; the first cycle not before a time. -/
def qns (t : Nat) : Nat := t * 20 / 3
def qnsT (q : Nat) : Nat := q * 3 / 20
def qnsUp (q : Nat) : Nat := (q * 3 + 19) / 20

/-- CRC-8 of R184 over a list of bytes. -/
def crc8 (l : List Nat) : Nat :=
  l.foldl (fun c b => (List.range 8).foldl (fun c _ => if c.testBit 7 then ((2 * c) % 256) ^^^ 7 else 2 * c) (c ^^^ b)) 0

/-- The CHK of an LCB (R184). -/
def lcbChk (ltype arg : Nat) : Nat := crc8 (ltype :: (List.range 6).map (fun i => bitsOf arg (8 * (5 - i)) 8))

/-- One byte into the CRC-32C, reflected (R194). -/
def crc32cByte (c b : Nat) : Nat :=
  (List.range 8).foldl (fun c _ => if c % 2 = 1 then (c / 2) ^^^ 0x82F63B78 else c / 2) (c ^^^ (b % 256))

/-- Header word 0 of a cell (R191). -/
def Cell.w0 (c : Cell) (seq : Nat) : Nat :=
  c.typ * 2 ^ 28 + seq * 2 ^ 16 + c.dir * 2 ^ 15 + c.mode * 2 ^ 13 + c.addr % 64

/-- Bytes 0-527 of a cell. -/
def Cell.bytes (c : Cell) (seq : Nat) : List Nat :=
  ((beBytes4 (c.w0 seq) ++ beBytes4 c.w1 ++ beBytes4 c.w2 ++ beBytes4 c.w3)) ++
    (List.range 512).map (fun i => bitsOf c.pay (8 * (511 - i)) 8)
where
  /-- A word as four big-endian bytes. -/
  beBytes4 (w : Nat) : List Nat := (List.range 4).map (fun i => bitsOf w (8 * (3 - i)) 8)

/-- The CRC of a cell (R194). -/
def Cell.crc (c : Cell) (seq : Nat) : Nat := ((c.bytes seq).foldl crc32cByte 0xFFFFFFFF) ^^^ 0xFFFFFFFF

/-- Bytes `a .. a + n - 1` of a payload, big-endian. -/
def payField (pay a n : Nat) : Nat := bitsOf pay (8 * (512 - a - n)) (8 * n)

/-- A payload with value `v` in bytes `a .. a + n - 1`. -/
def payPut (a n v : Nat) : Nat := (v % 2 ^ (8 * n)) * 2 ^ (8 * (512 - a - n))

/-- An LCB is queued (R200). -/
def State.pushLcb (s : State) (l ltype arg : Nat) : State :=
  s.modLane l (fun x => { x with lcbs := x.lcbs ++ [(ltype, arg, s.now)] })

/-- A cell is queued for sending. -/
def State.pushCell (s : State) (l : Nat) (q : QCell) : State := s.modLane l (fun x => { x with queue := x.queue ++ [q] })

/-- Pixel cells that wait in a port's FIFO (R202). -/
def State.pixelsQueued (s : State) (p : Nat) : Nat := ((s.laneS p).queue.filter (fun q => q.cell.typ == 1)).length

/-- All cells that wait in a port's FIFO (R202, R204). -/
def State.fifoCells (s : State) (p : Nat) : Nat := ((s.laneS p).queue.filter (fun q => !q.ctl)).length

/-- Forwarded cells that wait at a tile's link end (R201). -/
def LaneS.forwarded (x : LaneS) : Nat := (x.queue.filter (fun q => q.fwd)).length

/-- A NAK(E) is sent unless one is outstanding (R198). -/
def State.nak (s : State) (l : Nat) : State :=
  let x := s.laneS l
  if x.nakAt.isSome then s
  else ((s.pushLcb l 0xA3 x.e).modLane l (fun x => { x with nakAt := some s.now })).laneCnt l F.PLKn_NAK_TX.COUNT

/-- ACK(E) is sent. -/
def State.ackNow (s : State) (l : Nat) : State :=
  (s.pushLcb l 0xA2 (s.laneS l).e).modLane l (fun x => { x with sinceAck := 0, ackDue := none })

/-- A good cell with sequence number `seq` reaches the receiver: the state after R198, and whether the cell is
accepted. -/
def State.rxSeq (s : State) (l seq : Nat) : Bool × State :=
  let x := s.laneS l
  if s.laneSt l ≠ 3 ∨ x.inRun = false then (false, s)
  else if seq = x.e then
    let s := s.laneCnt l F.PLKn_CELLS_RX.COUNT
    let s := s.modLane l (fun x => { x with e := (x.e + 1) % 4096, nakAt := none, sinceAck := x.sinceAck + 1,
                                            ackDue := some (x.ackDue.getD (s.now + 300)) })
    (true, if s.ackN l ≤ (s.laneS l).sinceAck then s.ackNow l else s)
  else if 1 ≤ (x.e + 4096 - seq) % 4096 ∧ (x.e + 4096 - seq) % 4096 ≤ 2047 then (false, s.ackNow l)
  else (false, s.nak l)

/-- Cells held before `n` are released (R197). -/
def LaneS.release (x : LaneS) (n : Nat) : LaneS :=
  let gone := fun q => decide (1 ≤ (n + 4096 - q) % 4096) && decide ((n + 4096 - q) % 4096 ≤ 64)
  let r := x.retry.filter (fun h => !gone h.seq)
  { x with retry := r, resend := x.resend.filter (fun q => !gone q)
           inRow := if r.length = x.retry.length then x.inRow else 0 }

/-- An ACK(n) is handled (R197). -/
def State.ackRx (s : State) (l n : Nat) : State :=
  if s.laneSt l ≠ 3 then s else s.modLane l (fun x => x.release n)

/-- Every held cell is resent from the oldest, at a time (R197). -/
def LaneS.resendAll (x : LaneS) (t : Nat) : LaneS :=
  { x with
    resend := x.retry.map (fun h => h.seq), inRow := x.inRow + 1
    nakFrom := x.retry.head?.map (fun h => (h.seq, t)) }

/-- RETRY_MAX resends in a row from the oldest held cell have brought no ACK that releases it (R197, log 72). -/
def State.retrySpent (s : State) (l : Nat) : Bool := decide (s.retryMax l ≤ (s.laneS l).inRow)

/-- A received FLOW (R201). -/
def State.flowRx (s : State) (l : Nat) (stop : Bool) : State :=
  let s := s.modLane l (fun x => { x with stopAt := if stop then some s.now else none })
  if l < 24 then s.wrB (F.PLKn_LSTAT.PEER_STOP l) stop else s

/-- An ECHO_RSP yields a sample and, from 8 samples on, the link delay (R210); PERIOD = 0 holds LINK_DELAY. TURN's
error may leave a delay below 0 (log 72). -/
def State.echoRx (s : State) (l tag turn : Nat) : State :=
  match (s.laneS l).echo with
  | none => s
  | some (g, t) =>
    if g ≠ tag then s
    else if l < 24 ∧ s.rd (F.PLKn_ECHO.PERIOD l) = 0 then s.modLane l (fun x => { x with echo := none })
    else
      let d : Int := ((qns (s.now - t) : Int) - turn).tdiv 2
      let sm := (d :: (s.laneS l).samples).take 8
      let s := s.modLane l (fun x => { x with echo := none, samples := sm })
      if sm.length < 8 then s
      else
        let m := (sm.foldl (· + ·) 0).tdiv 8
        let s := s.modLane l (fun x => { x with delay := m })
        if l < 24 then s.wr (F.PLKn_LINK_DELAY.DELAY l) (m % 2 ^ 32).toNat else s

/-- FLOW with STOP = 1 at link end `l` once `n` cells wait, `hi` or more (R201). -/
def State.flowStop (s : State) (l n hi : Nat) : State :=
  if hi ≤ n ∧ (s.laneS l).stopSent.isNone then
    (s.pushLcb l 0xA4 1).modLane l (fun x => { x with stopSent := some s.now })
  else s

/-- FLOW with STOP = 0 at link end `l` once the cells that wait have fallen to `lo` (R201). -/
def State.flowGo (s : State) (l n lo : Nat) : State :=
  if n ≤ lo ∧ (s.laneS l).stopSent.isSome then
    (s.pushLcb l 0xA4 0).modLane l (fun x => { x with stopSent := none })
  else s

/-- The functions of port `p` take cells out of its receive buffer. How fast, no rule says: a free number (log 22). -/
def State.rxDrain (s : State) (p : Nat) : State :=
  let (f, s) := s.free
  let s := s.modPort p (fun x => { x with rxBuf := x.rxBuf - f % (x.rxBuf + 1) })
  s.flowGo p (s.portS p).rxBuf 32

/-- An accepted cell enters the receive buffer of port `p`, which stops its peer at 64 cells (R201). -/
def State.rxEnter (s : State) (p : Nat) : State :=
  let s := (s.rxDrain p).modPort p (fun x => { x with rxBuf := min 128 (x.rxBuf + 1) })
  s.flowStop p (s.portS p).rxBuf 64

/-! ### Sending -/

/-- CORR of a TICK sent now (R205): its age at arrival, the residence and the outgoing link delay. -/
def State.corrOut (s : State) (l : Nat) (q : QCell) : Nat :=
  if q.cell.w2 = 0xFFFFFFFF then 0xFFFFFFFF
  else min 0xFFFFFFFF (((q.cell.w2 + qns (s.now - q.t0) : Nat) : Int) + (s.laneS l).delay).toNat

/-- The cell as it is sent now: a TICK carries its true age. -/
def State.sendForm (s : State) (l : Nat) (q : QCell) : Cell :=
  if q.cell.typ = 2 then { q.cell with w2 := s.corrOut l q } else q.cell

/-- The cell run at hand ends: a half block is filled (R186). -/
def State.runEnd (s : State) (l : Nat) : State :=
  if (s.laneS l).runCells = 0 then s
  else
    let s := if (s.laneS l).runCells % 2 = 1 then s.emit (.fill l) else s
    s.modLane l (fun x => { x with runCells := 0 })

/-- A cell goes out, with SOR in front of a run (R186). -/
def State.putCell (s : State) (l seq : Nat) (q : QCell) : State :=
  let x := s.laneS l
  let s := if x.runCells = 0 then s.emit (.lcb l 0xA1 0 (lcbChk 0xA1 0)) else s
  let c := s.sendForm l q
  let s := s.emit (.cell l seq c (c.crc seq))
  let s := s.modLane l (fun x => { x with runCells := if x.runCells = 31 then 0 else x.runCells + 1 })
  let s := s.laneCnt l F.PLKn_CELLS_TX.COUNT
  if l < 24 ∧ q.cell.typ = 2 then s.wr (F.PLKn_TICK_LAT.LAT l) (min 0xFFFFFFFF (qns (s.now - q.t0))) else s

/-- A pixel cell of the frame that the last tick began waits until PRES + 2 us after that tick (R208). -/
def State.pixelHeld (s : State) (p : Nat) (q : QCell) : Bool :=
  decide (p < 24) && q.cell.typ == 1 && bitsOf q.cell.w1 16 16 == s.tick.frameCnt % 65536 &&
    decide (s.now < (s.portS p).lastTick + qnsUp (s.act F.PLK_PRES.OFS) + 1200)

/-- The index of the queued cell that may be sent next (R200): an urgent NOTE (R228), then a control or own cell where no
other waits or once it has waited long enough, then the others in order. -/
def State.nextCell (s : State) (l : Nat) : Option Nat :=
  let q := (s.laneS l).queue
  let waitMax := if l < 24 then 60000 else 30000
  let plain := (List.range q.length).find? (fun i => match q[i]? with
    | some c => !c.ctl && !s.pixelHeld l c
    | none => false)
  let anyPlain := q.any (fun c => !c.ctl)
  let urg := (List.range q.length).find? (fun i => match q[i]? with
    | some c => c.urg
    | none => false)
  let ctl := (List.range q.length).find? (fun i => match q[i]? with
    | some c => c.ctl && (!anyPlain || decide (c.tq + waitMax ≤ s.now))
    | none => false)
  match urg, ctl with
  | some i, _ => some i
  | none, some i => some i
  | none, none => plain

/-- What an LCB carries when it is sent: TURN of an ECHO_RSP is known only then (R210). -/
def State.putLcb (s : State) (l : Nat) (b : Nat × Nat × Nat) : State :=
  let s := s.runEnd l
  let arg := if b.1 = 0xA6 then b.2.1 + 2 ^ 16 * (qns (s.now - b.2.2)) else b.2.1
  let s := s.emit (.lcb l b.1 arg (lcbChk b.1 arg))
  s.modLane l (fun x => { x with echo := if b.1 = 0xA5 then some (b.2.1, s.now) else x.echo })

/-- The lane of an OFF port sends IDLE before it powers down (R203). -/
def State.laneIdle (s : State) (l : Nat) : State := (s.runEnd l).emit (.lcb l 0x1E 0 (lcbChk 0x1E 0))

/-- The held cell with number `q` is sent again (R197). -/
def State.resendOne (s : State) (l q : Nat) (qs : List Nat) : State :=
  let s := s.modLane l (fun x => { x with resend := qs })
  match (s.laneS l).retry.find? (fun h => h.seq == q) with
  | none => s
  | some h =>
    let s := (s.putCell l q h.q).laneCnt l F.PLKn_RETX.COUNT
    let s := if l < 24 then s.modPort l (fun p => { p with retx := p.retx + 1 }) else s
    s.modLane l (fun x => { x with retry := x.retry.map (fun g => if g.seq = q then { g with tSent := s.now } else g) })

/-- Rows of polder `i` are discarded for the rest of the frame, with its partly built cell; one more OVERRUN is counted
(R202). -/
def State.pixDrop (s : State) (p i : Nat) : State :=
  (s.modPort p (fun x => { x with
    overrun := if x.overrun.contains i then x.overrun else i :: x.overrun, build := x.build.del i })).incRc
    (F.PLKn_OVERRUN_CNT.COUNT p)

/-- The pixel FIFO of port `l` gives a word of cell `q` that is uncorrectable: the row is discarded as in R202, and what is
queued of its polder's frame with it (R278). -/
def State.fifoBad (s : State) (l : Nat) (q : QCell) : State :=
  (((s.modLane l (fun x => { x with
    queue := x.queue.filter (fun g => !(g.cell.typ == 1 && g.pol == q.pol && g.cell.w1 == q.cell.w1)) })).pixDrop l q.pol).flag
    (F.PLKn_LSTAT.OVERRUN l) (20 + l))

/-- The queued cell at index `i` is sent under a new number and kept (R197). -/
def State.sendNew (s : State) (l i : Nat) (q : QCell) : State :=
  let n := (s.laneS l).next
  let s := s.modLane l (fun x => { x with queue := x.queue.eraseIdx i })
  let s := s.putCell l n q
  let s := s.modLane l (fun x => { x with
    retry := x.retry ++ [{ seq := n, q := q, tSent := s.now }], next := (n + 1) % 4096 })
  if l < 24 then s else s.flowGo (laneOther l) (s.laneS l).forwarded 8

/-- A transmitter sends its next item: retransmissions, LCBs, queued cells (R200, R201). With none to send its run
ends (R186). -/
def State.cellSend (s : State) (l : Nat) : State :=
  let x := s.laneS l
  if s.laneSt l ≠ 3 then s
  else if l < 24 ∧ (s.portS l).idleEnd.isSome then s.laneIdle l
  else
    let stopped := x.stopAt.isSome
    match (if stopped then [] else x.resend), x.lcbs with
    | q :: qs, _ => s.resendOne l q qs
    | [], b :: bs => (s.modLane l (fun x => { x with lcbs := bs })).putLcb l b
    | [], [] =>
      if stopped || decide (64 ≤ x.retry.length) then s.runEnd l
      else match s.nextCell l with
        | none => s.runEnd l
        | some i => match x.queue[i]? with
          | none => s.runEnd l
          | some q => match s.cellRead q with
            | ((true, _), s) => s.fifoBad l q
            | ((false, c), s) => s.sendNew l i { q with cell := c, bad := [] }

end Sys2Proof.Machine
end

