-- ==== Sys2Proof/Machine/Chain.lean ====
section
/-! DEFINITION. Chains and rings as the Skokor keeps them: the tile table, discovery and patrol, ring breaks,
telemetry and brightness (08_chains_rings_and_discovery.md). Authentication stands in Auth.lean, the tile's own side in
Tile.lean. -/

namespace Sys2Proof.Machine

/-! ### The tile table -/

/-- What the Skokor keeps of tile `k` = 64 * port + address beside PLK_TILE. -/
def State.chT (s : State) (k : Nat) : ChTile := Tbl.get {} s.chain k

/-- The record of tile `k` changed by `f`. -/
def State.modCh (s : State) (k : Nat) (f : ChTile → ChTile) : State := { s with chain := Tbl.put s.chain k (f (s.chT k)) }

/-- TSTATE of a tile (R230): 0 ABSENT ... 6 LOST. -/
def State.tstate (s : State) (k : Nat) : Nat := s.rd (F.PLK_TILE0.TSTATE k)

/-- A tile changes TSTATE, which is an event of its port's source (R352). ENROLLED says how an ADMITTED tile came in:
any other state clears it (R230, R231). -/
def State.setTstate (s : State) (k v : Nat) : State :=
  let s := if v = 3 then s else s.wr (F.PLK_TILE0.ENROLLED k) 0
  if s.tstate k = v then s else ((s.wr (F.PLK_TILE0.TSTATE k) v).irq (20 + k / 64)).bootSteps

/-! ### Rings -/

/-- The MODE of a port's ring setting: 1 primary, 2 far, else chain (R216). -/
def State.ringMode (s : State) (p : Nat) : Nat := let m := s.rd (F.PLKn_RING.MODE p); if m = 3 then 0 else m

/-- The partner named by port `p`. -/
def State.partner (s : State) (p : Nat) : Nat := s.rd (F.PLKn_RING.PARTNER p)

/-- Port `p` and its partner hold matching ring settings (R216). -/
def State.pairOk (s : State) (p : Nat) : Bool :=
  let q := s.partner p
  decide (q < 24) && s.partner q == p && s.ringMode p + s.ringMode q == 3 && s.ringMode p != 0 && s.ringMode q != 0

/-- Port `p` is the primary, or the far port, of a ring. -/
def State.isA (s : State) (p : Nat) : Bool := s.ringMode p == 1 && s.pairOk p
def State.isB (s : State) (p : Nat) : Bool := s.ringMode p == 2 && s.pairOk p

/-- The port under which the tile table keeps the tiles that port `p` reaches. -/
def State.tableOf (s : State) (p : Nat) : Nat := if s.isB p then s.partner p else p

/-- LEN of the ring of primary port `a`. -/
def State.ringLen (s : State) (a : Nat) : Nat := s.rd (F.PLKn_RSTAT.LEN a)

/-- The hop of address `x` from port `p`, and the address at a hop (R216, R225). -/
def State.hopOf (s : State) (p x : Nat) : Nat := if s.isB p then s.ringLen (s.partner p) - x else x + 1
def State.addrAt (s : State) (p hop : Nat) : Nat := if s.isB p then s.ringLen (s.partner p) - hop else hop - 1

/-- The port that serves address `x` of the chain or ring of `a`, if one does (R217). A ring whose far port serves nothing
because no end has been found yet is a chain (log 73). -/
def State.serving (s : State) (a x : Nat) : Option Nat :=
  if s.isA a then
    if s.ringLen a = 0 ∧ s.rd (F.PLKn_RSTAT.B_START a) = 0 then some a
    else if x < s.rd (F.PLKn_RSTAT.A_END a) then some a
    else if s.rd (F.PLKn_RSTAT.B_START a) ≤ x then some (s.partner a) else none
  else some a

/-- The port by which address `x` can be asked: in a ring with open breaks, A below the lowest and B from the highest on
(R226, R233); none where no port reaches it, or no length is known for B to count from (R225). -/
def State.asker (s : State) (a x : Nat) : Option Nat :=
  if !s.isA a then some a
  else
    let bs := (s.portS a).breaks.map Prod.fst
    if bs.all (fun b => decide (x < b)) then some a
    else if s.ringLen a ≠ 0 && bs.all (fun b => decide (b ≤ x)) then some (s.partner a) else none

/-- Port `p` reaches address `x` of its chain or ring (R225, R233). -/
def State.reaches (s : State) (p x : Nat) : Bool :=
  if s.isB p then
    decide (x < s.ringLen (s.partner p)) && (s.portS (s.partner p)).breaks.all (fun b => decide (b.1 ≤ x))
  else !s.isA p || (s.portS p).breaks.all (fun b => decide (x < b.1))

/-- A_END and B_START of both ports of a ring; tiles that change port are joined anew, so that their polders are sent
in full (R227, R234). -/
def State.setSplit (s : State) (a ae bs : Nat) : State :=
  let q := s.partner a
  let s1 := (((s.wr (F.PLKn_RSTAT.A_END a) ae).wr (F.PLKn_RSTAT.B_START a) bs).wr (F.PLKn_RSTAT.A_END q) ae).wr
    (F.PLKn_RSTAT.B_START q) bs
  (List.range 64).foldl (fun t x =>
    if s.serving a x ≠ s1.serving a x then t.modCh (64 * a + x) (fun c => { c with joined := true }) else t) s1

/-- LEN of both ports of a ring. -/
def State.setLen (s : State) (a len : Nat) : State :=
  (s.wr (F.PLKn_RSTAT.LEN a) len).wr (F.PLKn_RSTAT.LEN (s.partner a)) len

/-- CLOSED of both ports of a ring. -/
def State.setClosed (s : State) (a : Nat) (c : Bool) : State :=
  (s.wrB (F.PLKn_RSTAT.CLOSED a) c).wrB (F.PLKn_RSTAT.CLOSED (s.partner a)) c

/-- The count of ticks at which a port had its partner's TICK starts anew: a break has cleared CLOSED (R218, R233). -/
def State.ticksAnew (s : State) (p : Nat) : State := s.modPort p (fun x => { x with tickRun := 0, gotTick := false })

/-- The Skokor learns of a break at position `pos` of the ring of port `a` (R233, R234). -/
def State.ringBreak (s : State) (a pos : Nat) : State :=
  let p := s.portS a
  if p.breaks.any (fun b => b.1 == pos) then s
  else
    let s := s.modPort a (fun p => { p with breaks := (pos, s.now + 150000) :: p.breaks,
                                            confirm := p.confirm.filter (fun c => c.1 != pos),
                                            closing := p.closing.filter (fun c => c.1 != pos) })
    let s := (s.ticksAnew a).ticksAnew (s.partner a)
    ((s.setClosed a false).flag (F.PLKn_RSTAT.BREAK a) (20 + a)).fault 0x1D a

/-! ### Control cells of the Skokor -/

/-- A control cell is queued at port `p` (R200, R203: in every STATE except OFF). -/
def State.control (s : State) (p : Nat) (c : Cell) : State :=
  s.pushCell p { cell := c, t0 := s.now, tq := s.now, ctl := true }

/-- A fresh TAG of port `p`. -/
def State.newTag (s : State) (p : Nat) : Nat × State :=
  let t := ((s.portS p).tag + 1) % 65536
  (t, s.modPort p (fun x => { x with tag := t }))

/-- DISC to a hop (R222, R223). -/
def State.sendDisc (s : State) (p hop : Nat) : State :=
  let (t, s) := s.newTag p
  s.control p { typ := 6, dir := 0, mode := 2, addr := hop - 1, w1 := t }

/-- The address write of R223 step 2: ADDR = `x` with VALID = 1 to the tile at a hop, by MODE 2, with ACKREQ. -/
def State.sendAddr (s : State) (p hop x : Nat) : State :=
  let (t, s) := s.newTag p
  s.control p { typ := 3, dir := 0, mode := 2, addr := hop - 1, w1 := 0, w2 := t + 2 ^ 16, pay := payPut 0 4 (x % 64 + 128) }

/-- The round-trip bound T_h = 7 us x h in ECLK (R223). -/
def roundTrip (hop : Nat) : Nat := 4200 * hop

/-! ### Discovery -/

/-- The cascade's DISC to a hop, whose TAG its answer repeats (R222, R223). -/
def State.cascadeDisc (s : State) (p hop : Nat) : State :=
  (s.sendDisc p hop).modPort p (fun x => { x with dtag := x.tag, sentAt := s.now })

/-- The cascade works on a hop: DISC is sent (R223 step 1). -/
def State.cascadeAt (s : State) (p hop : Nat) : State :=
  let s := s.wr (F.PLKn_CSTAT.DSTATE p) 1
  let s := s.modPort p (fun x => { x with hop := hop, step := 1, tries := 1, sentAt := s.now })
  s.cascadeDisc p hop

/-- The cascade of port `p` ends with `reach` tiles and the patrol begins (R226). -/
def State.cascadeEnd (s : State) (p reach : Nat) : State :=
  let s := (s.wr (F.PLKn_CSTAT.REACH p) reach).wr (F.PLKn_CSTAT.DSTATE p) 2
  (s.modPort p (fun x => { x with step := 0, patHop := 1, patAt := s.now, patWait := [] })).bootSteps

/-- The cascade ends without reaching the far port: a ring is open, and its LEN 0 (R225). One that ends at a break the
Skokor knows leaves the ring as R233 and R235 have it (log 73). -/
def State.cascadeOpen (s : State) (p reach : Nat) : State :=
  let s := if s.isA p && !(s.portS p).breaks.any (fun b => b.1 == reach) then
      (s.setLen p 0).modPort p (fun x => { x with breaks := [], closing := [], confirm := [] })
    else s
  s.cascadeEnd p reach

/-- More than 64 tiles: OVERFLOW and CHAIN_OVERFLOW (R224). -/
def State.overflow (s : State) (p : Nat) : State := (s.flag (F.PLKn_CSTAT.OVERFLOW p) (20 + p)).fault 0x1A p

/-- The tile at hop 64 reports that its other port is UP: a ring asks from B whether that is its own far end (R224). -/
def State.farAsk (s : State) (p : Nat) : State :=
  (s.modPort p (fun x => { x with farTest := true, step := 3, sentAt := s.now })).sendDisc (s.partner p) 1

/-- Discovery starts from hop 1 when a port's lane is UP with STATE not OFF (R223); the far port of a ring only
patrols, since the primary numbers the tiles (R216, R225). -/
def State.cascadeStart (s : State) (p : Nat) : State :=
  if s.rd (F.PLKn_CTRL.STATE p) = 0 ∨ s.laneSt p ≠ 3 then s
  else if s.isB p then s.cascadeEnd p (s.rd (F.PLKn_CSTAT.REACH p))
  else (s.wr (F.PLKn_CSTAT.REACH p) 0).cascadeAt p 1

/-- The cascade goes on after hop `h` has sent READY: to the next hop, or it ends (R223 step 4, R224, R225). -/
def State.cascadeNext (s : State) (p h : Nat) : State :=
  if !(s.portS p).onward then s.cascadeOpen p h
  else if h < 64 then s.cascadeAt p (h + 1)
  else if s.isA p then s.farAsk p
  else (s.overflow p).cascadeEnd p h

/-- The address of the tile at a hop is written (R223 step 2). -/
def State.assign (s : State) (p hop : Nat) : State :=
  let a := s.addrAt p hop
  let s := s.modCh (64 * s.tableOf p + a) (fun t => { t with known := true })
  s.sendAddr p hop a

/-- The fields of a DISC_RSP got by port `p` go into the tile table (R222). RXPORT is kept as it faces port A (R233): the
far port's DISC arrives at the tile's other side. -/
def State.learnTile (s : State) (p k pay : Nat) : State :=
  let g := payField pay
  let fl := g 61 1
  let s := (s.wr (F.PLK_TILE1.UID_HI k) (g 0 4)).wr (F.PLK_TILE2.UID_LO k) (g 4 4)
  let s := (s.wr (F.PLK_TILE3.RASTER_W k) (g 56 2)).wr (F.PLK_TILE3.RASTER_H k) (g 58 2)
  s.modCh k (fun t => { t with
    keyhash := g 8 48, rxport := if s.isB p then 1 - fl % 2 else fl % 2, onward := fl.testBit 1, fmt36 := fl.testBit 3 })

/-- The ring of port A is found closed with `len` tiles (R225). A new ring takes the working split at the next tick (R237);
one of the length known so far has every break confirmed, to leave 250 us later (R235). -/
def State.ringFound (s : State) (a len : Nat) : State :=
  if s.ringLen a = len then
    (s.modPort a (fun p => { p with
      confirm := []
      closing := p.breaks.map (fun b => (b.1,
        ((p.closing.find? (fun c => c.1 == b.1)).map Prod.snd).getD (s.now + 150000))) })).cascadeEnd a len
  else
    let s := s.setLen a len
    (s.modPort a (fun x => { x with
      split := min len (s.act (F.PLKn_RING.SPLIT a)), breaks := [], closing := [], confirm := [] })).cascadeEnd a len

/-- An address has been confirmed on both sides of a closed break (R235). -/
def State.confirmAddr (s : State) (a x : Nat) : State :=
  s.modPort a (fun p =>
    let c := p.confirm.map (fun e => (e.1, e.2.filter (· != x)))
    { p with confirm := c.filter (fun e => e.2 != [])
             closing := p.closing ++ (c.filter (fun e => e.2 == [])).map (fun e => (e.1, s.now + 150000)) })

/-! ### Telemetry and brightness (R238, R239) -/

/-- The moment from which the age of a tile's telemetry counts: its last TELEM, or its entry into ADMITTED. -/
def State.telemFrom (s : State) (k : Nat) : Nat := ((s.chT k).telemAt).getD 0

/-- The age of a tile's telemetry in ms, as PLK_TILE word 5 reports it; 0 for a tile that neither has been. -/
def State.tileAge (s : State) (k : Nat) : Nat :=
  match (s.chT k).telemAt with
  | some t => min 65535 ((s.now - t) / msT)
  | none => 0

/-- cap_t and cap_i of R239. -/
def State.caps (s : State) (k : Nat) : Nat × Nat :=
  let c := s.chT k
  let t := sext 16 (s.rd (F.PLK_TILE4.TEMP k))
  let knee := sext 16 (s.rd F.PLK_THERM.KNEE)
  let tmax := sext 16 (s.rd F.PLK_THERM.TMAX)
  let cmin : Int := s.rd F.PLK_THERM2.CAP_MIN
  let stale := decide (s.telemFrom k + s.rd F.PLK_LIMITS.STALE * msT < s.now)
  let t := if stale then tmax else t
  let capT : Int :=
    if !c.fresh && !stale then 0x8000
    else if t ≤ knee then 0x8000
    else if tmax ≤ t then cmin
    else 0x8000 - ((0x8000 - cmin) * (t - knee)).tdiv (tmax - knee)
  let ilim := s.rd F.PLK_LIMITS.ILIM
  let i := s.rd (F.PLK_TILE5.I_LED k)
  let capI := if !c.fresh || ilim == 0 || decide (i ≤ ilim) then 0x8000
    else max (s.rd F.PLK_THERM2.CAP_MIN) (c.bright * ilim / i)
  (capT.toNat, capI)

/-- The target brightness of a tile (R239). -/
def State.brightTarget (s : State) (k : Nat) : Nat :=
  let lvl := match s.serving (k / 64) (k % 64) with
    | some p => s.act (F.PLKn_BRIGHT.LEVEL p)
    | none => s.act (F.PLKn_BRIGHT.LEVEL (k / 64))
  min lvl (min (s.caps k).1 (s.caps k).2)

/-- The BRIGHT of one ADMITTED tile at the tick (R239). -/
def State.brightTick (s : State) (k : Nat) : State :=
  if s.tstate k ≠ 3 then s
  else
    let target : Int := s.brightTarget k
    let old : Int := s.rd (F.PLK_TILE6.BRIGHT k)
    let ramp : Int := s.rd F.PLK_THERM2.RAMP
    let s := (s.wr (F.PLK_TILE6.CAP k) (min (s.caps k).1 (s.caps k).2)).wr (F.PLK_TILE6.BRIGHT k)
      (old + clampI (-ramp) ramp (target - old)).toNat
    let low := decide ((s.caps k).1 < 0x8000)
    let s := if low && !(s.chT k).hot then s.fault 0x42 k else s
    s.modCh k (fun t => { t with hot := low })

/-- A tile enters ADMITTED (R227, R231, R239). -/
def State.admitTile (s : State) (k : Nat) (enrolled : Bool) : State :=
  let s := (s.setTstate k 3).wrB (F.PLK_TILE0.ENROLLED k) enrolled
  let s := s.modCh k (fun t => { t with joined := true, telemAt := some s.now, fresh := false, staleRaised := false,
                                        hot := false, step := 0, patrolTries := 0 })
  s.wr (F.PLK_TILE6.BRIGHT k) (s.brightTarget k)

/-- A tile is REFUSED: TILE_REFUSED is raised (R231). -/
def State.refuse (s : State) (k : Nat) : State :=
  ((s.setTstate k 5).modCh k (fun t => { t with step := 0, background := false })).fault 0x3B k

/-- A TELEM cell is stored in the tile table (R238). -/
def State.telemRx (s : State) (k pay : Nat) : State :=
  let g := payField pay
  let late := g 8 2
  let old := s.rd (F.PLK_TILE0.LATE k)
  let s := (s.wr (F.PLK_TILE4.TEMP k) (g 0 2)).wr (F.PLK_TILE4.SUPPLY k) (g 2 2)
  let s := (s.wr (F.PLK_TILE5.I_LED k) (g 4 2)).wr (F.PLK_TILE0.LATE k) late
  let s := (s.wr (F.PLK_TILE7.MAXCORR k) (g 12 4)).wrB (F.PLK_TILE0.FEED k) ((g 22 1).testBit 0)
  let s := s.wr F.PLK_MAXCORR.CORR (max (s.rd F.PLK_MAXCORR.CORR) (g 12 4))
  let s := s.modCh k (fun t => { t with telemAt := some s.now, fresh := true, staleRaised := false, bright := g 6 2 })
  let vmin := s.rd F.PLK_LIMITS2.V_MIN
  let s := if vmin ≠ 0 ∧ g 2 2 < vmin then s.fault 0x40 k else s
  if old < late then s.fault 0x1F k else s

/-- Telemetry older than STALE ms (R239). -/
def State.telemStale (s : State) (k : Nat) : State :=
  if s.tstate k ≠ 3 ∨ (s.chT k).staleRaised then s
  else
    let s := s.reach (s.telemFrom k + s.rd F.PLK_LIMITS.STALE * msT + 1)
    (s.modCh k (fun t => { t with staleRaised := true })).fault 0x41 k

/-! ### The ring at a tick (R218, R234-R237) -/

/-- The working split moves by one tile away from a port that retransmits too much, in the tick's cycle (R236). -/
def State.rebalMove (s : State) (a : Nat) : State :=
  let p := s.portS a
  let n := max 1 (s.rd (F.PLKn_REBAL.N a))
  let lo := s.rd (F.PLKn_REBAL_RANGE.LO a)
  let hi := s.rd (F.PLKn_REBAL_RANGE.HI a)
  let new := if n ≤ p.runA then p.split - 1 else p.split + 1
  let fires := decide (p.lastTick = s.now) && decide (p.wait = 0) && (decide (n ≤ p.runA) || decide (n ≤ p.runB)) && p.breaks.isEmpty &&
    s.on (F.PLKn_RSTAT.CLOSED a) && decide (lo ≤ new) && decide (new ≤ hi) && decide (new ≤ s.ringLen a) && new != p.split
  if !fires then s
  else
    let s := s.modPort a (fun x => { x with split := new, runA := 0, runB := 0, wait := n })
    let s := s.setSplit a new new
    ((s.flag (F.PLKn_RSTAT.REBALANCED a) (20 + a)).incRc (F.PLKn_CSTAT.REBAL_CNT a)).fault 0x1E a

/-- What one port counts of its frame (R218, R236). -/
def State.portFrame (s : State) (p : Nat) : State :=
  let x := s.portS p
  let s := (s.wr (F.PLKn_RETX_FRAME.COUNT p) (min 0xFFFFFFFF x.retx)).wr (F.PLKn_LSTAT.FIFO_HWM p) (min 65535 x.hwm)
  s.modPort p (fun x => { x with retx := 0, hwm := s.fifoCells p, overrun := [], overrunRaised := false,
                                 tickRun := if x.gotTick then x.tickRun + 1 else 0, gotTick := false, lastTick := s.now })

/-- The frames in a row in which the ring's ports retransmit too much (R236): counted while the ring is closed. -/
def State.ringRuns (s : State) (a : Nat) : State :=
  let th := s.rd (F.PLKn_REBAL.THRESH a)
  let ra := s.rd (F.PLKn_RETX_FRAME.COUNT a)
  let rb := s.rd (F.PLKn_RETX_FRAME.COUNT (s.partner a))
  let on := s.on (F.PLKn_RSTAT.CLOSED a) && th != 0
  s.modPort a (fun x => { x with
    runA := if on && decide (th < ra) && decide (rb < th / 2) then x.runA + 1 else 0
    runB := if on && decide (th < rb) && decide (ra < th / 2) then x.runB + 1 else 0
    wait := x.wait - 1 })

/-- Closed breaks leave 250 us after their confirmation (R235). With none open, a SPLIT written before this cycle becomes
the working split (R237, R18). -/
def State.ringOpenBreaks (s : State) (a : Nat) : State :=
  let p := s.portS a
  let gone := (p.closing.filter (fun c => decide (c.2 ≤ s.now))).map (fun c => c.1)
  let left := p.breaks.filter (fun b => !gone.contains b.1)
  let s := s.modPort a (fun x => { x with breaks := left, closing := x.closing.filter (fun c => !gone.contains c.1) })
  match p.splitHeld.find? (fun w => decide (w.2 < s.now)) with
  | some (v, _) =>
    if left = [] then s.modPort a (fun x => { x with
      split := min (s.ringLen a) v, splitHeld := x.splitHeld.filter (fun w => decide (s.now ≤ w.2)) }) else s
  | none => s

/-- A ring at the tick: CLOSED, rebalance counts, breaks that take effect or leave (R218, R234-R237). -/
def State.ringTick (s : State) (a : Nat) : State :=
  if !s.isA a then s
  else
    let s := s.setClosed a (decide (2 ≤ (s.portS a).tickRun) && decide (2 ≤ (s.portS (s.partner a)).tickRun))
    if s.ringLen a = 0 then s
    else
      let s := (s.ringRuns a).ringOpenBreaks a
      let p := s.portS a
      match (p.breaks.filter (fun b => decide (b.2 ≤ s.now))).map (fun b => b.1) with
      | [] => if p.breaks.isEmpty then s.setSplit a p.split p.split else s
      | b :: bs => s.setSplit a (bs.foldl min b) (bs.foldl max b)

end Sys2Proof.Machine
end

