-- ==== Sys2Proof/Machine/Tile.lean ====
section
/-! DEFINITION. What a compatible tile does (R192, R206, R207, R213, R219-R222, R228, R229, R238). A tile is named by
64 * port + hop - 1, its two sides are 0 and 1, side 0 facing the port that counts the hops. -/

namespace Sys2Proof.Machine

/-- A cell the tile originates goes out of its feed port, or out of the other where the feed lane is not UP
(R192, R219). An urgent one does not wait (R228). -/
def State.originate (s : State) (k : Nat) (c : Cell) (urgent : Bool) : State :=
  let f := tileLane k (s.tileS k).feed
  let l := if s.laneSt f = 3 then f else laneOther f
  if s.laneSt l = 3 then s.pushCell l { cell := c, t0 := s.now, tq := s.now, ctl := !urgent, urg := urgent } else s

/-- A response leaves by the port on which the request arrived (R192). -/
def State.respond (s : State) (l : Nat) (c : Cell) : State :=
  s.pushCell l { cell := c, t0 := s.now, tq := s.now, ctl := true }

/-- A tile's own address in a cell it sends: MODE 0 with its address, or MODE 2 counting hops (R191, R228). -/
def State.ownForm (s : State) (k : Nat) (c : Cell) : Cell :=
  let t := s.tileS k
  if t.valid then { c with dir := 1, mode := 0, addr := t.addr } else { c with dir := 1, mode := 2, addr := 0 }

/-- A NOTE (R228). -/
def State.note (s : State) (k ev arg : Nat) (urgent : Bool) : State :=
  s.originate k (s.ownForm k { typ := 0xB, w1 := ev, w2 := arg }) urgent

/-- RESTART is sent once, after power-up or on losing the address, once a port is UP (R228). -/
def State.restart (s : State) (k : Nat) : State :=
  let t := s.tileS k
  if t.valid || t.restartSent || (s.laneSt (tileLane k 0) != 3 && s.laneSt (tileLane k 1) != 3) then s
  else (s.modTile k (fun t => { t with restartSent := true })).note k 4 0 false

/-- The cell goes out of the other port; a tile whose other port is not UP discards it (R192). A TICK keeps the
moment it arrived (R205). FLOW STOP goes back where the queue has grown (R201). -/
def State.forward (s : State) (l : Nat) (c : Cell) : State :=
  let o := laneOther l
  if s.laneSt o ≠ 3 then s
  else
    let s := s.pushCell o { cell := c, t0 := s.now, tq := s.now, fwd := true }
    s.flowStop l (s.laneS o).forwarded 24

/-- The number of cells of a stream (R195). -/
def streamCells (w h fmt : Nat) : Nat := ((w + 1) * (h + 1) * (if fmt = 0 then 30 else 36) + 4095) / 4096

/-- A pixel of a stream: `bpp` bits from stream bit `i * bpp` (R195). -/
def StreamS.pixel (x : StreamS) (i : Nat) : Nat :=
  let bpp := if x.fmt = 0 then 30 else 36
  (List.range bpp).foldl (fun v j =>
    let bit := i * bpp + j
    2 * v + (if (Tbl.get 0 x.cells (bit / 4096)).testBit (4095 - bit % 4096) then 1 else 0)) 0

/-- STREAMS a tile tracks: at least 16 (R207). -/
def tileStreams (k : Nat) : Nat := max 16 (payField (Config.tileIdent k) 62 2)

/-- An accepted PIXEL cell's slice goes into its stream (R207). Of a cell whose CELL is not below the stream's number of
cells no rule speaks: it is kept and counted like the others, a choice of the model (log 86). -/
def State.streamPut (s : State) (k : Nat) (c : Cell) : State :=
  let key := (bitsOf c.w1 0 13, bitsOf c.w2 16 13, bitsOf c.w2 0 13, bitsOf c.w3 19 13, bitsOf c.w1 15 1)
  let cell := bitsOf c.w3 0 19
  let t := s.tileS k
  let same := fun (x : StreamS) => (x.dx, x.dy, x.w, x.h, x.fmt) == key
  if t.streams.any same then
    s.modTile k (fun t => { t with streams := t.streams.map (fun x =>
      if same x then { x with cells := Tbl.put x.cells cell c.pay } else x) })
  else if t.streams.length < tileStreams k then
    s.modTile k (fun t => { t with streams := t.streams ++
      [{ dx := key.1, dy := key.2.1, w := key.2.2.1, h := key.2.2.2.1, fmt := key.2.2.2.2, cells := [(cell, c.pay)] }] })
  else s.modTile k (fun t => { t with streamDrop := min 65535 (t.streamDrop + 1) })

/-- "Later" of R207, on 16-bit frame numbers. -/
def later (a b : Nat) : Bool := decide (0 < sext 16 (a + 65536 - b))

/-- A PIXEL cell addressed to the tile (R207). -/
def State.tilePixel (s : State) (k : Nat) (c : Cell) : State :=
  let t := s.tileS k
  let f := bitsOf c.w1 16 16
  let old := match t.p with
    | some p => !later f p
    | none => false
  if old then s
  else match t.r with
    | none => (s.modTile k (fun t => { t with r := some f, streams := [] })).streamPut k c
    | some r =>
      if f = r then s.streamPut k c
      else if later f r then (s.modTile k (fun t => { t with r := some f, streams := [] })).streamPut k c
      else s

/-- The presentation: complete streams show their pixels, BRIGHT and BLANK apply (R206, R207). -/
def State.present (s : State) (k : Nat) (bright : Nat) (blank : Bool) : State :=
  let draw := fun (m : Tbl Nat) (x : StreamS) =>
    (List.range ((x.w + 1) * (x.h + 1))).foldl (fun m i =>
      let col := x.dx + i % (x.w + 1)
      let row := x.dy + i / (x.w + 1)
      if col < payField (Config.tileIdent k) 56 2 ∧ row < payField (Config.tileIdent k) 58 2
      then Tbl.put m (row * 65536 + col) (x.pixel i) else m) m
  s.modTile k (fun t => { t with shown := t.ready.foldl draw t.shown, ready := [], sched := none,
                                 bright := min 0x8000 bright, blank := blank || !t.valid })

/-- A presentation still pending is made at once (R207). -/
def State.presentPending (s : State) (k : Nat) : State :=
  match (s.tileS k).sched with
  | some (_, b, x) => s.present k b x
  | none => s

/-- A TICK reaches a tile at link end `l` (R206, R207). Without an address the tile presents nothing and holds no P; it
still takes the first TICK of a frame as that of its feed port (R192). -/
def State.tileTick (s : State) (l k : Nat) (c : Cell) : State :=
  let t := s.tileS k
  let f := bitsOf c.w1 16 16
  let s := s.modTile k (fun t => { t with maxCorr := max t.maxCorr c.w2 })
  let isNew := match (if t.valid then t.p else t.acc) with
    | some p => later f p
    | none => true
  if !isNew then s
  else
    let s := (s.modTile k (fun t => { t with feed := laneSide l }))
    if !t.valid then s.modTile k (fun t => { t with acc := some f })
    else
      let s := s.presentPending k
      let done := if t.r = some f then
          t.streams.filter (fun x => x.cells.length == streamCells x.w x.h x.fmt) else []
      let bright := payField c.pay (8 * t.addr) 2
      let blank := (payField c.pay (8 * t.addr + 2) 1).testBit 0
      let s := s.modTile k (fun t => { t with p := some f, r := none, streams := [], ready := done })
      if c.w3 < c.w2 then
        let s := (s.present k bright blank).modTile k (fun t => { t with late := min 65535 (t.late + 1) })
        s.note k 5 (s.tileS k).late false
      else s.modTile k (fun t => { t with sched := some (s.now + qnsT (c.w3 - c.w2), bright, blank) })

/-- A tile register is read (R221): its value and STATUS. -/
def State.tileRegRd (s : State) (k reg : Nat) : Nat × Nat :=
  let t := s.tileS k
  match reg with
  | 0 => (t.addr + (if t.valid then 128 else 0), 0)
  | 4 => (t.telemPeriod, 0)
  | 8 => ((if t.tlock then 1 else 0) + (if s.laneSt (tileLane k 0) = 3 then 2 else 0) +
      (if s.laneSt (tileLane k 1) = 3 then 4 else 0) + 8 * t.feed, 0)
  | 12 => (t.p.getD 0, 0)
  | 16 => (t.maxCorr, 0)
  | _ => if 0x8000 ≤ reg ∧ reg ≤ 0xFFFC then (Config.tileReg k reg % 2 ^ 32, 0) else (0, 1)

/-- A tile register is written (R221): STATUS and the state. An address assigned anew leaves neither P nor R (R207) and
buffers to be made black; the one already held leaves P and R. Either way READY follows, with both buffers black (R223).
Losing the address sends RESTART (R228). -/
def State.tileRegWr (s : State) (k reg v : Nat) : Nat × State :=
  match reg with
  | 0 =>
    let t := s.tileS k
    let valid := v.testBit 7
    if valid then
      if t.valid ∧ t.addr = v % 64 then (0, s.modTile k (fun t => { t with readySent := false, blacken := true }))
      else (0, s.modTile k (fun t => { t with
        addr := v % 64, valid := true, p := none, r := none, streams := [], sched := none, ready := [],
        readySent := false, blacken := true }))
    else
      (0, (s.modTile k (fun x => { x with
        addr := v % 64, valid := false, readySent := false, blank := true, acc := x.p
        restartSent := x.restartSent && !t.valid })).restart k)
  | 4 => (0, s.modTile k (fun t => { t with telemPeriod := v % 65536 }))
  | 8 => (2, s)
  | 12 => (2, s)
  | 16 => (0, s.modTile k (fun t => { t with maxCorr := 0 }))
  | _ => if 0x8000 ≤ reg ∧ reg ≤ 0xFFFC then (0, s) else (1, s)

/-- Registers of a CFG_WR in ascending order, up to the first one refused (R220). -/
def State.tileWrites (s : State) (k pay : Nat) : Nat → Nat → Nat → Nat × State
  | 0, _, _ => (0, s)
  | n + 1, j, reg =>
    let (st, s) := s.tileRegWr k reg (payField pay (4 * j) 4)
    if st ≠ 0 then (st, s) else State.tileWrites s k pay n (j + 1) (reg + 4)

/-- Registers of a CFG_RD: payload and STATUS (R220). -/
def State.tileReads (s : State) (k : Nat) : Nat → Nat → Nat → Nat → Nat × Nat
  | 0, _, _, acc => (acc, 0)
  | n + 1, j, reg, acc =>
    let (v, st) := s.tileRegRd k reg
    if st ≠ 0 then (acc, st) else State.tileReads s k n (j + 1) (reg + 4) (acc + payPut (4 * j) 4 v)

/-- A CFG_RSP to a request that arrived at `l` (R220). -/
def State.cfgRsp (s : State) (l k : Nat) (c : Cell) (st pay : Nat) : State :=
  s.respond l { typ := 5, dir := 1, mode := if c.mode = 0 then 0 else 2, addr := if c.mode = 0 then (s.tileS k).addr else 0,
                w1 := c.w1, w2 := bitsOf c.w2 0 16 + st * 2 ^ 16, pay := pay }

/-- A tile's public key in the 97-byte uncompressed form (R222, R229). -/
def tileKey (k : Nat) : List Byte := beBytes 97 (4 * 2 ^ 768 + Config.tileKey k % 2 ^ 768)

/-- The DISC_RSP of a tile (R222). -/
def State.discRsp (s : State) (l k : Nat) (c : Cell) : State :=
  let t := s.tileS k
  let fixed := Config.tileIdent k
  let keep := payPut 0 8 (payField fixed 0 8) + payPut 8 48 (beVal (sha384 (tileKey k))) +
    payPut 56 4 (payField fixed 56 4) + payPut 62 2 (tileStreams k) + payPut 64 8 (payField fixed 64 8)
  let cur := payPut 60 1 (t.addr + (if t.valid then 128 else 0))
  let fl := laneSide l + (if s.laneSt (laneOther l) = 3 then 2 else 0) + (if t.tlock then 4 else 0) +
    (if (payField fixed 61 1).testBit 3 then 8 else 0)
  s.respond l { typ := 7, dir := 1, mode := 2, addr := 0, w1 := bitsOf c.w1 0 16, pay := keep + cur + payPut 61 1 fl }

/-- The AUTH_RSP of a tile (R229): the signature over NONCE, UID and the address byte, or a part of a
certificate. -/
def State.authRsp (s : State) (l k : Nat) (c : Cell) : State :=
  let op := bitsOf c.w1 16 4
  let t := s.tileS k
  let mode := if c.mode = 0 then 0 else 2
  let addr := if c.mode = 0 then t.addr else 0
  if op = 1 then
    let m := beBytes 48 (payField c.pay 0 48) ++ beBytes 8 (payField (Config.tileIdent k) 0 8) ++ [BitVec.ofNat 8 t.addr]
    s.respond l { typ := 0xA, dir := 1, mode, addr, w1 := c.w1 % 2 ^ 20, w2 := 0, w3 := 0,
                  pay := payPut 0 97 (beVal (tileKey k)) + payPut 104 96 (Config.tileSign k (sha384 m)) }
  else if op = 2 then
    let cert := Config.tileCert k (bitsOf c.w2 0 8)
    let part := bitsOf c.w2 8 8
    let st := if cert = [] then 1 else 0
    let bs := (cert.drop (512 * part)).take 512
    s.respond l { typ := 0xA, dir := 1, mode, addr, w1 := c.w1 % 2 ^ 20, w2 := bitsOf c.w2 0 16 + st * 2 ^ 16,
                  w3 := cert.length % 65536, pay := beVal bs * 2 ^ (8 * (512 - bs.length)) }
  else s

/-- The tile acts on a cell it consumes or that is broadcast. -/
def State.tileAct (s : State) (l k : Nat) (c : Cell) : State :=
  match c.typ with
  | 1 => s.tilePixel k c
  | 2 => s.tileTick l k c
  | 3 =>
    let (st, s) := s.tileWrites k c.pay (bitsOf c.w1 16 7 + 1) 0 (bitsOf c.w1 0 16)
    if c.w2.testBit 16 ∧ c.mode ≠ 1 then s.cfgRsp l k c st 0 else s
  | 4 =>
    let (pay, st) := s.tileReads k (bitsOf c.w1 16 7 + 1) 0 (bitsOf c.w1 0 16) 0
    s.cfgRsp l k c st pay
  | 6 => s.discRsp l k c
  | 9 => s.authRsp l k c
  | _ => s

/-- A good cell that a tile accepted at `l` (R192). -/
def State.tileCell (s : State) (l : Nat) (c : Cell) : State :=
  let k := laneTile l
  let t := s.tileS k
  if c.mode = 3 ∨ c.typ = 0 ∨ 0xC ≤ c.typ then s.forward l c
  else if c.dir = 1 then
    if c.mode = 2 then s.forward l { c with addr := min 63 (c.addr + 1) } else s.forward l c
  else match c.mode with
    | 0 => if t.valid ∧ c.addr = t.addr then s.tileAct l k c else s.forward l c
    | 1 => (s.forward l c).tileAct l k c
    | _ => if c.addr = 0 then s.tileAct l k c else s.forward l { c with addr := c.addr - 1 }

/-- The time base of a tile is locked to its feed lane, where that is UP (R221, R223). -/
def State.tileLock (s : State) (k : Nat) : State :=
  if s.laneSt (tileLane k (s.tileS k).feed) = 3 then s.modTile k (fun t => { t with tlock := true }) else s

/-- A tile with an address, a locked time base and black buffers sends READY (R223 step 3, R228). One that has kept its
address keeps its picture (R452, R456). -/
def State.tileReady (s : State) (k : Nat) : State :=
  let s := s.tileLock k
  let t := s.tileS k
  if !t.valid || t.readySent || !t.tlock then s
  else (s.modTile k (fun t => { t with
    readySent := true, blacken := false, shown := if t.blacken then [] else t.shown })).note k 1 0 false

/-- A tile sends a TELEM (R238). -/
def State.telemSend (s : State) (k : Nat) : State :=
  let t := s.tileS k
  if !t.valid || t.telemPeriod == 0 then s
  else
    let s := s.reach (t.telemAt + t.telemPeriod * msT)
    let n := (t.telemCount + 1) % 65536
    let m := fun i => Config.tileSense k (8 * n + i)
    let b0 := (s.laneS (tileLane k 0)).bad
    let b1 := (s.laneS (tileLane k 1)).bad
    let up := fun d => if s.laneSt (tileLane k d) = 3 then 1 else 0
    let pay := payPut 0 2 (m 0) + payPut 2 2 (m 1) + payPut 4 2 (m 2) + payPut 6 2 t.bright + payPut 8 2 t.late +
      payPut 10 2 (t.p.getD 0) + payPut 12 4 t.maxCorr + payPut 16 2 (min 65535 b0) + payPut 18 2 (min 65535 b1) +
      payPut 20 2 t.streamDrop + payPut 22 1 (t.feed + 2 * up 0 + 4 * up 1)
    let s := s.modTile k (fun t => { t with telemAt := s.now, telemCount := n, streamDrop := 0 })
    let s := (s.modLane (tileLane k 0) (fun x => { x with bad := 0 })).modLane (tileLane k 1) (fun x => { x with bad := 0 })
    s.originate k { typ := 8, dir := 1, mode := 0, addr := t.addr, w1 := n, pay := pay } false

/-- A scheduled presentation comes due (R206). -/
def State.tilePresent (s : State) (k : Nat) : State :=
  match (s.tileS k).sched with
  | some (t, b, x) => (s.reach t).present k b x
  | none => s

end Sys2Proof.Machine
end

