-- ==== Sys2Proof/Machine/Auth.lean ====
section
/-! DEFINITION. How the Skokor authenticates tiles and acts on the cells that reach it (R226, R228-R235, R428). -/

namespace Sys2Proof.Machine

/-- The state with the security core changed by `f`. -/
def State.modSec (s : State) (f : SecS → SecS) : State := { s with sec := f s.sec }

/-- `n` random bytes of the TRNG: free values (R417, log 8). -/
def State.random (s : State) (n : Nat) : List Byte × State := s.freeBytes n

/-- A request joins the queue, oldest first (R418). The places of tiles are taken in the order of their READYs (R232): a
tile whose READY came earlier takes the place of a later one, which moves to the next tile's. -/
def State.verInsert (s : State) (j : VerJob) : List VerJob → List VerJob
  | [] => [j]
  | x :: xs =>
    let before := match j, x with
      | .tile k _, .tile i _ => decide ((s.chT k).ready < (s.chT i).ready)
      | _, _ => false
    if before then j :: State.verInsert s x xs else x :: State.verInsert s j xs

/-- A request goes to a verify unit that is free, or to the queue (R232, R417, R418). -/
def State.askVerify (s : State) (j : VerJob) : State :=
  s.modSec (fun c => if c.verRun.length < 2 then { c with verRun := c.verRun ++ [(j, s.now + 150000)] }
    else { c with verQ := s.verInsert j c.verQ })

/-- The port through which tile `k` is reached now. -/
def State.portTo (s : State) (k : Nat) : Nat := (s.serving (k / 64) (k % 64)).getD (k / 64)

/-- A CHALLENGE is sent, with a fresh nonce (R229, R231); none while the TRNG has failed (R419). -/
def State.challenge (s : State) (k : Nat) : State :=
  if s.sec.trngBad then s.modCh k (fun t => { t with step := 1, sentAt := s.now })
  else
    let (n, s) := s.random 48
    let p := s.portTo k
    let (tag, s) := s.newTag p
    let s := s.modCh k (fun t => { t with
      step := 1, nonce := beVal n, tries := t.tries + 1, sentAt := s.now, atag := tag })
    s.control p { typ := 9, dir := 0, mode := 0, addr := k % 64, w1 := 2 ^ 16 + tag, pay := payPut 0 48 (beVal n) }

/-- Authentication of a tile begins (R231). -/
def State.authBegin (s : State) (k : Nat) : State :=
  ((s.setTstate k 2).modCh k (fun t => { t with background := false, tries := 0, cert0 := [], cert1 := [], len0 := 0, len1 := 0 })).challenge k

/-- GET_CERT for part `part` of certificate `cert` (R229). -/
def State.getCert (s : State) (k cert part : Nat) : State :=
  let p := s.portTo k
  let (tag, s) := s.newTag p
  let s := s.modCh k (fun t => { t with step := 3, asked := cert, part := part, sentAt := s.now, atag := tag })
  s.control p { typ := 9, dir := 0, mode := 0, addr := k % 64, w1 := 2 * 2 ^ 16 + tag, w2 := cert + 256 * part }

/-- The key ID of a public key (R428). -/
def keyId (key : List Byte) : List Byte := (sha384 key).take 20

/-- The anchor whose key ID is given. -/
def State.anchorOf (s : State) (id : List Byte) : Option (List Byte) :=
  s.sec.anchors.find? (fun a => keyId a == id)

/-- The chain check of the certificates (R231 step 5, R428): the key that must verify the tile certificate, and
the anchor that must verify the intermediate, if one is used; none where the chain fails. -/
def State.chainKeys (s : State) (k : Nat) : Option (List Byte × Option (List Byte)) :=
  let c := s.chT k
  (certOf c.cert0).bind (fun t =>
    if t.key ≠ beBytes 97 c.pubkey then none
    else t.issuer.bind (fun id => match s.anchorOf id with
      | some a => some (a, none)
      | none => (certOf c.cert1).bind (fun m =>
        if keyId m.key ≠ id ∨ m.ca = false then none
        else m.issuer.bind (fun iid => (s.anchorOf iid).map (fun a => (m.key, some a))))))

/-- The certificate `b` is signed by the holder of `key` (R231 step 5). -/
def certSigned (key b : List Byte) : Bool :=
  match certOf b with
  | some c => ecVerify key (sha384 c.tbs) c.sig
  | none => false

/-- A valid chain: ADMITTED or BLACKED by POLICY, and TILE_UNENROLLED is raised (R231 step 6). -/
def State.chainOk (s : State) (k : Nat) : State :=
  let s := if s.on F.PLK_AUTH.POLICY then
      (if (s.chT k).background then s.modCh k (fun t => { t with background := false, step := 0 }) else s.admitTile k false)
    else (s.setTstate k 4).modCh k (fun t => { t with step := 0 })
  s.fault 0x3A k

/-- An AUTH_RSP from tile `k` (R229, R231); one whose TAG is not that of the request at hand is none of its answers. -/
def State.authRspRx (s : State) (k : Nat) (c : Cell) : State :=
  let op := bitsOf c.w1 16 4
  let t := s.chT k
  if bitsOf c.w1 0 16 ≠ t.atag then s
  else if op = 1 ∧ t.step = 1 then
    let key := payField c.pay 0 97
    if beVal (sha384 (beBytes 97 key)) ≠ t.keyhash then s.refuse k
    else (s.modCh k (fun t => { t with step := 2, pubkey := key, sig := payField c.pay 104 96 })).askVerify (.tile k 0)
  else if op = 2 ∧ t.step = 3 ∧ bitsOf c.w2 0 8 = t.asked ∧ bitsOf c.w2 8 8 = t.part then
    let none_ := bitsOf c.w2 16 8 != 0
    let total := if none_ then 0 else min 1536 (bitsOf c.w3 0 16)
    let got := (if t.asked = 0 then t.cert0 else t.cert1) ++ beBytes 512 c.pay
    let s := s.modCh k (fun t => if t.asked = 0 then { t with cert0 := got.take total, len0 := total }
      else { t with cert1 := got.take total, len1 := total })
    if got.length < total then s.getCert k t.asked (t.part + 1)
    else if t.asked = 0 then (if none_ then s.refuse k else s.getCert k 1 0)
    else match s.chainKeys k with
      | none => s.refuse k
      | some _ => (s.modCh k (fun t => { t with step := 4 })).askVerify (.tile k 1)
  else s

/-- A verification for a tile completes (R231, R428). -/
def State.tileVerified (s : State) (k kind : Nat) : State :=
  let t := s.chT k
  let uid := beBytes 4 (s.rd (F.PLK_TILE1.UID_HI k)) ++ beBytes 4 (s.rd (F.PLK_TILE2.UID_LO k))
  match kind with
  | 0 =>
    if t.step ≠ 2 then s
    else
      let m := beBytes 48 t.nonce ++ uid ++ [BitVec.ofNat 8 (k % 64)]
      if !ecVerify (beBytes 97 t.pubkey) (sha384 m) (beBytes 96 t.sig) then s.refuse k
      else if s.sec.enrolled.contains (beBytes 48 t.keyhash) then
        (if t.background then s.modCh k (fun t => { t with background := false, step := 0 }) else s.admitTile k true)
      else s.getCert k 0 0
  | 1 =>
    if t.step ≠ 4 then s
    else match s.chainKeys k with
      | none => s.refuse k
      | some (key, top) =>
        if !certSigned key t.cert0 then s.refuse k
        else if top.isSome then (s.modCh k (fun t => { t with step := 5 })).askVerify (.tile k 2)
        else s.chainOk k
  | _ =>
    if t.step ≠ 5 then s
    else match s.chainKeys k with
      | some (_, some top) =>
        if certSigned top t.cert1 then s.chainOk k else s.refuse k
      | _ => s.refuse k

/-- An unanswered CHALLENGE: three tries at 10 ms intervals (R231). -/
def State.challengeTimeout (s : State) (k : Nat) : State :=
  let t := s.chT k
  if t.step ≠ 1 then s
  else
    let s := s.reach (t.sentAt + 10 * msT)
    if t.tries < 3 then s.challenge k else s.refuse k

/-! ### Cells that reach the Skokor -/

/-- A tile is FOUND: what is under way of an earlier authentication decides nothing more (R226, R230, R231). -/
def State.found (s : State) (k : Nat) : State :=
  ((s.setTstate k 1).modCh k (fun t => { t with step := 0, background := false })).modSec (fun c =>
    { c with verQ := c.verQ.filter (fun j => match j with
      | .tile i _ => i != k
      | _ => true) })

/-- A DISC_RSP takes the cascade of port `p` past a hop (R223): an admitted tile whose UID and address are confirmed
stays (R226); any other is found and gets its address. -/
def State.cascadeRsp (s : State) (p hop pay : Nat) : State :=
  let k := 64 * p + (hop - 1)
  let g := payField pay
  let known := (s.chT k).known && s.rd (F.PLK_TILE1.UID_HI k) == g 0 4 && s.rd (F.PLK_TILE2.UID_LO k) == g 4 4 &&
    g 60 1 == (hop - 1) % 64 + 128
  let s := ((s.learnTile p k pay).wr (F.PLKn_CSTAT.REACH p) hop).wr (F.PLKn_CSTAT.DSTATE p) 1
  let s := s.confirmAddr p (hop - 1)
  let on := (s.chT k).onward
  if known && s.tstate k == 3 then (s.modPort p (fun x => { x with onward := on })).cascadeNext p hop
  else ((s.found k).modPort p (fun x => { x with hop := hop, step := 2, sentAt := s.now, onward := on })).assign p hop

/-- A tile at hop 64 that has come to report an UP onward port (R224): an open ring asks from B. -/
def State.farSeen (s : State) (p : Nat) : State :=
  if s.isA p then (if s.ringLen p = 0 then s.farAsk p else s) else s.overflow p

/-- The rows of R226 for a tile known at its hop, once its DISC_RSP has been taken in. How a LOST tile, or one ABSENT,
comes back no rule says: it is authenticated anew, a choice of the model (log 86). -/
def State.patrolKnown (s : State) (p hop k : Nat) (woken valid right : Bool) : State :=
  if !valid then (s.found k).assign p hop
  else if !right then s.assign p hop
  else if woken then
    ((s.admitTile k (s.on (F.PLK_TILE0.ENROLLED k))).modCh k (fun t => { t with
      background := true, tries := 0, cert0 := [], cert1 := [], len0 := 0, len1 := 0 })).challenge k
  else if s.tstate k = 6 ∨ s.tstate k = 0 then s.authBegin k
  else s

/-- The patrol's check of a DISC_RSP at a hop of port `p` (R226). A tile that answers beyond REACH lets the cascade go
on. -/
def State.patrolRsp (s : State) (p hop pay : Nat) : State :=
  let s := s.modPort p (fun x => { x with patWait := x.patWait.filter (fun w => w.1 != hop) })
  if !s.isB p && hop == s.rd (F.PLKn_CSTAT.REACH p) + 1 && (s.portS p).step == 0 then s.cascadeRsp p hop pay
  else
    let a := s.addrAt p hop
    let tab := s.tableOf p
    let k := 64 * tab + a
    let g := payField pay
    if s.isB p && decide (s.ringLen tab < hop) then s else
    let old := s.chT k
    let same := old.known && s.rd (F.PLK_TILE1.UID_HI k) == g 0 4 && s.rd (F.PLK_TILE2.UID_LO k) == g 4 4 &&
      (!old.woken || old.keyhash == g 8 48)
    let valid := (g 60 1).testBit 7
    let right := g 60 1 % 64 == a
    let s := s.modCh k (fun t => { t with patrolTries := 0, woken := false })
    let s := (s.learnTile p k pay).confirmAddr tab a
    let s := if valid && !right then (s.incRc (F.PLKn_CSTAT.TOPO p)).fault 0x1B k else s
    let s := if hop == 64 && !s.isB p && (s.chT k).onward && !old.onward then s.farSeen p else s
    if same then s.patrolKnown p hop k old.woken valid right else (s.found k).assign p hop

/-- A DISC_RSP reaches port `p` (R223, R224, R226). -/
def State.discRspRx (s : State) (p : Nat) (c : Cell) : State :=
  let hop := c.addr + 1
  let a := s.tableOf p
  if (s.portS a).farTest ∧ s.isB p ∧ hop = 1 then
    let s := s.modPort a (fun x => { x with farTest := false, step := 0 })
    if payField c.pay 60 1 = 63 + 128 then s.ringFound a 64
    else (s.overflow a).cascadeOpen a 64
  else if (s.portS p).step = 1 ∧ (s.portS p).hop = hop ∧ c.w1 % 65536 = (s.portS p).dtag then s.cascadeRsp p hop c.pay
  else s.patrolRsp p hop c.pay

/-- READY from tile `k`, seen at port `p` (R223, R231): at either port of a ring it takes the cascade on (R219). A tile in FOUND goes to AUTH, so that the NOTE resent does nothing
more (R193). A tile that the wake restored is asked for its identity (R456). -/
def State.readyRx (s : State) (p k : Nat) : State :=
  if (s.chT k).woken then
    let q := if s.isB p ∧ s.ringLen (s.partner p) = 0 then s.partner p else p
    s.sendDisc q (s.hopOf q (k % 64))
  else
    let s := if s.tstate k = 1 then
        ((s.modCh k (fun t => { t with ready := s.sec.readyCnt + 1 })).modSec (fun c => { c with readyCnt := c.readyCnt + 1 })).authBegin k
      else s
    let a := k / 64
    if (s.portS a).step = 2 ∧ (s.portS a).hop = k % 64 + 1 then s.cascadeNext a (k % 64 + 1) else s

/-- Discovery at once at a hop: one DISC of the patrol kind (R226). -/
def State.discAt (s : State) (p hop : Nat) : State :=
  if hop = 0 ∨ 64 < hop then s
  else (s.modPort p (fun x => { x with patWait := x.patWait.filter (fun w => w.1 != hop) ++ [(hop, 1, s.now)] })).sendDisc p hop

/-- Discovery at once at an address of the chain or ring of `a`, from the port that reaches it (R226, R233). -/
def State.discAddr (s : State) (a x : Nat) : State :=
  match s.asker a x with
  | some p => if s.isB p && decide (s.ringLen a ≤ x) then s else s.discAt p (s.hopOf p x)
  | none => s

/-- The break position of a tile's link (R233): its side facing A is position `x`, the other `x + 1`. -/
def State.breakPos (s : State) (k side : Nat) : Nat := if side = (s.chT k).rxport then k % 64 else k % 64 + 1

/-- A LINK_UP, or a port's lane reaching UP, closes a break: the tiles on both sides are confirmed by DISC
(R235). A tile that no port served is asked from the side on which the break lies. -/
def State.ringClosing (s : State) (a pos : Nat) : State :=
  if !(s.portS a).breaks.any (fun b => b.1 == pos) then s
  else
    let len := s.ringLen a
    let who := (if 0 < pos then [pos - 1] else []) ++ (if pos < len then [pos] else [])
    let s := s.modPort a (fun p => { p with confirm := (pos, who) :: p.confirm.filter (fun c => c.1 != pos) })
    let low := (s.portS a).breaks.all (fun b => decide (pos ≤ b.1))
    who.foldl (fun s x =>
      let p := (s.serving a x).getD (if low then a else s.partner a)
      s.discAt p (s.hopOf p x)) s

/-- The address of the tile that sent a cell which port `p` received (R191, R228). The far port of a ring without a length
cannot count a tile's hop: the place concerned is that behind the last one found (R225, R226). -/
def State.senderOf (s : State) (p : Nat) (c : Cell) : Nat :=
  if c.mode = 0 then c.addr
  else if s.isB p ∧ s.ringLen (s.partner p) ≤ c.addr then s.rd (F.PLKn_CSTAT.REACH (s.partner p))
  else s.addrAt p (c.addr + 1)

/-- A NOTE reaches port `p` (R228). A LINK_DOWN or LINK_UP concerns the hop behind the link; across an open break the other
port asks (R226, R233). -/
def State.noteRx (s : State) (p : Nat) (c : Cell) : State :=
  let tab := s.tableOf p
  let x := s.senderOf p c
  let k := 64 * tab + x
  let pos := s.breakPos k (c.w2 % 2)
  let ring := s.isA tab && s.ringLen tab != 0
  match bitsOf c.w1 0 8 with
  | 1 => s.readyRx p k
  | 2 => (if ring then s.ringBreak tab pos else s).discAddr tab pos
  | 3 => if ring && (s.portS tab).breaks.any (fun b => b.1 == pos) then s.ringClosing tab pos else s.discAddr tab pos
  | 4 => s.discAddr tab x
  | 5 =>
    let old := s.rd (F.PLK_TILE0.LATE k)
    let s := s.wr (F.PLK_TILE0.LATE k) (c.w2 % 65536)
    if old < c.w2 % 65536 then s.fault 0x1F k else s
  | _ => s

/-- A good cell that the Skokor's port `p` accepted (R192). -/
def State.skokorCell (s : State) (p : Nat) (c : Cell) : State :=
  let k := 64 * s.tableOf p + s.senderOf p c
  if c.dir = 1 then
    match c.typ with
    | 5 => s
    | 7 => s.discRspRx p c
    | 8 => s.telemRx k c.pay
    | 0xA => s.authRspRx k c
    | 0xB => s.noteRx p c
    | _ => s.incRc (F.PLKn_DISCARD.COUNT p)
  else if s.isA p || s.isB p then
    match c.typ with
    | 2 => s.modPort p (fun x => { x with gotTick := true })
    | 6 =>
      let a := s.partner p
      let x := s.portS a
      if !s.isB p then s
      else if x.step = 1 ∧ c.w1 % 65536 = x.dtag then s.ringFound a (x.hop - 1)
      else if x.step = 0 ∧ s.ringLen a = 0 ∧ x.patWait.any (fun w => w.1 == s.rd (F.PLKn_CSTAT.REACH a) + 1) then
        s.ringFound a (s.rd (F.PLKn_CSTAT.REACH a))
      else s
    | _ => s
  else s.incRc (F.PLKn_DISCARD.COUNT p)

/-- A good cell with its sequence number arrives at link end `l` (R198, R192). -/
def State.rxCell (s : State) (l seq : Nat) (c : Cell) : State :=
  let (ok, s) := s.rxSeq l seq
  if !ok then s else if l < 24 then (s.rxEnter l).skokorCell l c else s.tileCell l c

/-! ### Lanes that come up and go down -/

/-- A lane leaves UP for state `st` (R189, R203, R214, R228, R233). -/
def State.departUp (s : State) (l st : Nat) : State :=
  let s := (s.setLaneSt l st).modLane l (fun x => { x with
    inRun := false, runCells := 0, seen := false, nakAt := none, ackDue := none, sinceAck := 0 })
  if l < 24 then
    let s := (s.flag (F.PLKn_LSTAT.DOWN l) (20 + l)).incRc (F.PLKn_RETRAIN.COUNT l)
    let run := s.rd (F.PLKn_CTRL.STATE l) = 2
    let s := if run then s.fault 0x18 l else s
    let s := s.modPort l (fun x => { x with rows := false, build := [] })
    let a := s.tableOf l
    if s.isA a && s.ringLen a != 0 then s.ringBreak a (if l = a then 0 else s.ringLen a) else s
  else
    let k := laneTile l
    let s := if (s.tileS k).feed = laneSide l then s.modTile k (fun t => { t with tlock := false }) else s
    s.note k 2 (laneSide l) true

/-- The tiles that a wake restored to the table of a port: one more than the highest address (R456). -/
def State.restored (s : State) (p : Nat) : Nat :=
  (List.range 64).foldl (fun m a => if (s.chT (64 * s.tableOf p + a)).woken then a + 1 else m) 0

/-- A lane enters UP: sequence numbers restart, held cells are resent first under new numbers (R189). -/
def State.enterUp (s : State) (l : Nat) : State :=
  let s := (s.setLaneSt l 3).modLane l (fun x =>
    let r := (List.range x.retry.length).filterMap (fun i => match x.retry[i]? with
      | some h => some ({ h with seq := i, tSent := s.now } : Held)
      | none => none)
    { x with e := 0, nakAt := none, sinceAck := 0, ackDue := none, retry := r, resend := r.map (fun h => h.seq),
             next := r.length, nakFrom := none, inRow := 0, lcbs := [], stopAt := none, stopSent := none, runCells := 0,
             inRun := false })
  if l < 24 then
    let s := s.wr (F.PLKn_LSTAT.PEER_STOP l) 0
    let a := s.tableOf l
    let s := if s.isA a && s.ringLen a != 0 then s.ringClosing a (if l = a then 0 else s.ringLen a) else s
    if s.boot.sby = 6 ∧ s.restored l ≠ 0 then s.cascadeEnd l (s.restored l) else s.cascadeStart l
  else
    let k := laneTile l
    (s.note k 3 (laneSide l) true).restart k

/-- A lane in UP goes to TRAIN (R189). -/
def State.enterTrain (s : State) (l : Nat) : State := if s.laneSt l = 3 then s.departUp l 2 else s

end Sys2Proof.Machine
end

