-- ==== Sys2Proof/Machine/Object.lean ====
section
/-! DEFINITION. The object pool, its loader and the object unit (04_objects.md). -/

namespace Sys2Proof.Machine

/-- The state with the object pool changed by `f`. -/
def State.modObj (s : State) (f : ObjS → ObjS) : State := { s with obj := f s.obj }

/-- A word of an active descriptor (R107). -/
def State.objWord (s : State) (i w : Nat) : Nat := Tbl.get 0 s.obj.act (8 * i + w)

/-- What a read of OBJ_POOL returns: the shadow of a pending descriptor, else the active copy (R107). -/
def State.objRead (s : State) (i w : Nat) : Nat :=
  if s.obj.pend.contains i then Tbl.get 0 s.obj.shadow (8 * i + w) else s.objWord i w

/-- A word of active descriptor `i`. -/
def ArrWord.isDesc (i : Nat) : ArrWord → Bool
  | .desc j _ => j == i
  | _ => false

/-- The active copy of descriptor `i` is loaded from its shadow, and its pending mark clears. -/
def State.objActivate (s : State) (i : Nat) : State :=
  let s := s.modObj (fun o => { o with
    act := (List.range 8).foldl (fun t w => Tbl.set 0 t (8 * i + w) (Tbl.get 0 o.shadow (8 * i + w))) o.act
    shadow := (List.range 8).foldl (fun t w => t.del (8 * i + w)) o.shadow
    pend := o.pend.filter (· != i) })
  (s.wr F.OBJ_STATUS.PENDING s.obj.pend.length).arrStore (ArrWord.isDesc i)

/-- Descriptor `i` is written in the cycle at hand: a tick of this cycle meets what was pending before (R18, R107). -/
def State.objNote (s : State) (i : Nat) : State :=
  s.modCyc (fun c => { c with obj := if c.obj.any (fun e => e.1 == i) then c.obj else
    (i, if s.obj.pend.contains i then some ((List.range 8).map (fun w => Tbl.get 0 s.obj.shadow (8 * i + w))) else none) :: c.obj })

/-- Words of descriptor `i` are written (R107): the first write after a tick copies the active copy into the
shadow; while RUN = 0 the shadow becomes active at once. A descriptor that a HELD tick left pending keeps its shadow, a
choice of the model where R107 does not name that tick (log 84). `ws` is a list of (word, value). -/
def State.objWrite (s : State) (i : Nat) (ws : List (Nat × Nat)) : State :=
  let s := s.objNote i
  let s := if s.obj.pend.contains i then s else s.modObj (fun o => { o with
    shadow := (List.range 8).foldl (fun t w => Tbl.put t (8 * i + w) (Tbl.get 0 o.act (8 * i + w))) o.shadow
    pend := i :: o.pend })
  let s := s.modObj (fun o => { o with
    shadow := ws.foldl (fun t p => Tbl.put t (8 * i + p.1 % 8) (p.2 % 2 ^ 32)) o.shadow })
  if s.running then s.wr F.OBJ_STATUS.PENDING s.obj.pend.length else s.objActivate i

/-- OBJ_CTRL and OBJ_STATUS change in the cycle at hand: a tick of this cycle reads HOLD and LOAD_BUSY as the cycle found
them (R110). -/
def State.objMark (s : State) : State :=
  (s.rwsNote R.OBJ_CTRL (s.reg R.OBJ_CTRL)).rwsNote R.OBJ_STATUS (s.reg R.OBJ_STATUS)

/-- A write through the OBJ_POOL window: it wins over the loader's write of the same word in its cycle (R109). -/
def State.objPoolWrite (s : State) (i w v : Nat) : State := (s.objWrite i [(w, v)]).arrive 6 (8 * i + w % 8)

/-- OBJ_LOAD_CTRL written with START = 1 (R108): the fields are stored even where the START is refused (R17). SRC, FIRST
and COUNT_M1 are taken at the START (log 71). -/
def State.objLoadStart (s : State) (first countM1 : Nat) : State :=
  let s := (s.wr F.OBJ_LOAD_CTRL.FIRST first).wr F.OBJ_LOAD_CTRL.COUNT_M1 countM1
  if s.on F.OBJ_STATUS.LOAD_BUSY then s.flag F.OBJ_STATUS.REJECT 60
  else
    let src := s.rd F.OBJ_LOAD_SRC_LO.SRC_LO * 32 + s.rd F.OBJ_LOAD_SRC_HI.SRC_HI * 2 ^ 32
    let s := (s.objMark.wr F.OBJ_STATUS.LOAD_BUSY 1).wr F.OBJ_LOAD_POS.DONE 0
    s.modObj (fun o => { o with src, idx := first % 16384, left := countM1 % 16384 + 1, at_ := s.now })

/-- The loader stops on an error: LOAD_ERR, HOLD (R111). -/
def State.objLoadStop (s : State) : State :=
  let s := ((s.objMark.flag F.OBJ_STATUS.LOAD_ERR 60).wr F.OBJ_CTRL.HOLD 1).arrive 7 0
  (s.wr F.OBJ_STATUS.LOAD_BUSY 0).modObj (fun o => { o with left := 0 })

/-- The loader writes one descriptor read from HBM, 2 ECLK or more after the last, and completes its count (R108, R109,
R111, R128). -/
def State.objLoadStep (s : State) : State :=
  if s.obj.left = 0 then s
  else match (s.reach (s.obj.at_ + 2)).readPiece 0x81 s.obj.src 32 with
    | (.ok bs, s) =>
      let mine := (List.range 8).filter (fun w => !s.arrived 6 (8 * s.obj.idx + w))
      let s := s.objWrite s.obj.idx (mine.map (fun w => (w, leAt bs (4 * w) 4)))
      let s := s.objMark.inc F.OBJ_LOAD_POS.DONE
      let s := s.modObj (fun o => { o with src := (o.src + 32) % 2 ^ 40, idx := (o.idx + 1) % 16384, left := o.left - 1, at_ := s.now })
      if s.obj.left = 0 then (s.wr F.OBJ_STATUS.LOAD_BUSY 0).flag F.OBJ_STATUS.LOAD_DONE 60 else s
    | (.wait, _) => s
    | (_, s) => s.objLoadStop

/-- A loader read meets an error (R111, R278); `cause` as for `fetchErr`. -/
def State.objLoadError (s : State) (cause : Nat) : State :=
  if s.obj.left = 0 then s else s.objLoadStop.fetchErr cause s.obj.src 0x81

/-- OBJ_CTRL.DISCARD (R111). A tick of its own cycle still meets what was pending. -/
def State.objDiscard (s : State) : State :=
  if s.on F.OBJ_STATUS.LOAD_BUSY then s.flag F.OBJ_STATUS.REJECT 60
  else ((s.obj.pend.foldl State.objNote s).modObj (fun o => { o with pend := [], shadow := [] })).wr F.OBJ_STATUS.PENDING 0

/-- Descriptor `i` at the tick: what was pending before the tick's cycle becomes active, what the cycle itself wrote
stays pending (R18, R107). -/
def State.objTickOne (s : State) (i : Nat) : State :=
  match s.cycNow.obj.find? (fun e => e.1 == i) with
  | none => s.objActivate i
  | some (_, none) => s
  | some (_, some ws) => (s.modObj (fun o => { o with
    act := (List.range 8).foldl (fun t w => Tbl.set 0 t (8 * i + w) (ws.getD w 0)) o.act })).arrStore (ArrWord.isDesc i)

/-- The descriptors that were pending before the cycle at hand. -/
def State.objPendBefore (s : State) : List Nat :=
  let seen := s.cycNow.obj
  s.obj.pend.filter (fun i => !seen.any (fun e => e.1 == i)) ++ (seen.filter (fun e => e.2.isSome)).map (fun e => e.1)

/-- Pending descriptors at the tick, by HOLD and LOAD_BUSY as the tick cycle found them (R110). -/
def State.objTick (s : State) : State :=
  let pend := s.objPendBefore
  if pend = [] then s
  else if (s.wordBefore R.OBJ_STATUS).testBit 0 || (s.wordBefore R.OBJ_CTRL).testBit 0 then s.flag F.OBJ_STATUS.HELD 60
  else pend.foldl State.objTickOne s

/-! ### The object unit -/

/-- A decoded descriptor (R105). -/
structure Desc where
  x : Int
  y : Int
  dw : Nat
  dh : Nat
  dx : Nat
  dy : Nat
  w : Nat
  h : Nat
  fmt : Nat
  hflip : Bool
  vflip : Bool
  rot : Bool
  zop : Bool
  en : Bool
  pri : Nat
  shed : Nat
  src : Nat
  pitch : Nat
  pal : Nat
  subpal : Nat
  deriving DecidableEq, Repr

/-- Descriptor `i` (R105): DW_M1 and the like are kept as their fields. -/
def State.desc (s : State) (i : Nat) : Desc :=
  let g := fun w => s.objWord i w
  { x := sext 16 (bitsOf (g 0) 0 16), y := sext 16 (bitsOf (g 0) 16 16)
    dw := bitsOf (g 1) 0 10, dh := bitsOf (g 1) 16 10
    dx := bitsOf (g 2) 0 16, dy := bitsOf (g 2) 16 16
    w := bitsOf (g 3) 0 8, h := bitsOf (g 3) 8 8, fmt := bitsOf (g 3) 16 2
    hflip := (g 3).testBit 18, vflip := (g 3).testBit 19, rot := (g 3).testBit 20, zop := (g 3).testBit 21
    en := (g 3).testBit 22, pri := bitsOf (g 3) 24 4, shed := bitsOf (g 3) 28 4
    src := (g 4 + bitsOf (g 5) 0 4 * 2 ^ 32) * 16 % 2 ^ 40
    pitch := bitsOf (g 5) 8 8, pal := bitsOf (g 5) 16 6, subpal := bitsOf (g 5) 22 4 }

/-- The sampled pixels of a descriptor on line `k`: canvas x and source (column, row) (R113); and the span's
width `w`. -/
def Desc.span (d : Desc) (orgX orgY : Int) (h : Nat) (k : Nat) : List (Nat × Nat × Nat) × Nat :=
  let xl := d.x - orgX
  let oy := (k : Int) - (d.y - orgY)
  if !d.en || decide (oy < 0) || decide ((d.dh : Int) < oy) then ([], 0)
  else
    let lo := (max xl 0).toNat
    let hi := min (xl + d.dw) ((h : Int) - 1)
    let w := (max 0 (hi - lo + 1)).toNat
    ((List.range w).filterMap (fun i =>
      let ox := ((lo + i : Nat) : Int) - xl
      let fx := if d.hflip then (d.dw : Int) - ox else ox
      let fy := if d.vflip then (d.dh : Int) - oy else oy
      let a := fx.toNat * d.dx / 4096
      let b := fy.toNat * d.dy / 4096
      let (sx, sy) : Nat × Int := if d.rot then (b, (d.h : Int) - a) else (a, (b : Int))
      if d.w < sx ∨ sy < 0 ∨ (d.h : Int) < sy then none else some (lo + i, sx, sy.toNat)), w)

/-- The credits of a drawn span of width `w` (R73, R122). -/
def spanCost (rot : Bool) (w : Nat) : Nat := 8 + (if rot then (w + 1) / 2 else (w + 3) / 4)

/-- An object-buffer entry (R118): value, format, palette, subpalette, priority. -/
def packObj (v fmt pal subpal pri : Nat) : Nat :=
  v + 2 ^ 32 * (fmt + 4 * pal + 256 * subpal + 4096 * pri)

/-- The 64-byte block that holds an address. -/
def blk64 (a : Nat) : Nat := a % 2 ^ 40 / 64 * 64

/-- The origin in force for the object unit's work on line `k` (R112, R125). -/
def State.objOrigin (s : State) (n k : Nat) : Int × Int :=
  let o := R.ENGn_OBJ_ORG n
  let hit := fun (a : Nat) (c : LlCmd) => match c with
    | .wreg off v => if off = 0x1840 then v else a
    | .wblk off vs => if off ≤ 0x1840 ∧ 0x1840 < off + 4 * vs.length then vs.getD ((0x1840 - off) / 4) a else a
    | _ => a
  let w := (s.engS n).llItems.foldl (fun a i => if i.k < k ∨ (i.k = k ∧ i.x = 0) then hit a i.cmd else a) (s.actReg o)
  (sext 16 (bitsOf w 0 16), sext 16 (bitsOf w 16 16))

/-- The ladder entry of a level (R76): TILE_MASK, PLANE_MASK, OBJ_CLASS; nothing is shed at level 0. -/
def State.ladderAt (s : State) (n l : Nat) : Nat × Nat × Nat :=
  match (s.engS n).active with
  | none => (0, 0, 0)
  | some sc => if l = 0 then (0, 0, 0) else sc.ladder.getD (l - 1) (0, 0, 0)

/-- A reference selects line `k` (R72). -/
def refSelects (k w : Nat) : Bool := decide (bitsOf w 16 4 ≤ k % 16) && decide (k % 16 ≤ bitsOf w 20 4)

/-- The references of the band of line `k` (R72). -/
def Sched.bandRefs (sc : Sched) (k : Nat) : List Nat :=
  match sc.bands[k / 16]? with
  | none => []
  | some b => b.refs

/-- The pixels of a span drawn into a line buffer (R106, R114, R117, R118). `f x a` is the byte at `a` for pixel `x`. -/
def Desc.drawInto (d : Desc) (f : Nat → Nat → Byte) (b : Tbl Nat) (p : Nat × Nat × Nat) : Tbl Nat :=
  let v := texel (f p.1) (d.src + p.2.2 * d.pitch * 16) d.fmt p.2.1
  let clear := if d.fmt < 2 then v == 0 && !d.zop else (directPix d.fmt v 0).isNone
  if clear then b else Tbl.put b p.1 (packObj v d.fmt d.pal d.subpal d.pri)

/-- Walks the references of a band in order and draws those that select the line into the two buffers; stops at a fetch
error (R113-R117, R121, R122, R124, R127). The result: buffers of O0 and O1, time spent, and whether the line is
poisoned. The time up to an error within a span is a free part of the span's cost (log 84). No result while the HBM does not
answer. -/
def State.objDraw (s : State) (n k h : Nat) (org : Int × Int) (shed : Nat × Nat × Nat) :
    List Nat → Tbl Nat → Tbl Nat → Nat → Option ((Tbl Nat × Tbl Nat × Nat × Bool) × State)
  | [], b0, b1, t => some ((b0, b1, t, false), s)
  | w :: ws, b0, b1, t =>
    let (ue, s) := s.arrRead n (ArrWord.isDesc (bitsOf w 0 14))
    let d := s.desc (bitsOf w 0 14)
    let plane := bitsOf w 14 1
    let isShed := (decide (1 ≤ d.shed) && decide (d.shed ≤ shed.2.2)) || shed.2.1.testBit (2 + plane)
    if ue then some ((b0, b1, t + 1, true), s)
    else if isShed || !refSelects k w then s.objDraw n k h org shed ws b0 b1 (t + 1)
    else
      let (pts, wd) := d.span org.1 org.2 h k
      let blks := dedupN (pts.map (fun p => blk64 (d.src + p.2.2 * d.pitch * 16 + texelOff d.fmt p.2.1)))
      match s.fetchUntil n s.freeCnt blks (s.engS n).ocBlk with
      | none => none
      | some ((bad, held), s) =>
        let s := s.modEng n (fun e => { e with ocBlk := held })
        if bad then
          let (v, s) := s.free
          some ((b0, b1, t + 1 + v % (spanCost d.rot wd + 1), true), s)
        else
          let t := t + 1 + spanCost d.rot wd
          let f := fun x a => s.pickByte (s.engS n).ocMark s.freeCnt x a (blkByte held a)
          if plane = 0 then s.objDraw n k h org shed ws (pts.foldl (d.drawInto f) b0) b1 t
          else s.objDraw n k h org shed ws b0 (pts.foldl (d.drawInto f) b1) t

/-- The object cache is invalidated before the next line the object unit begins where INV was written (R126). -/
def State.ocSync (s : State) (n : Nat) : State :=
  if (s.engS n).ocInv then s.modEng n (fun e => { e with ocInv := false, ocMark := s.memc.jseq, ocBlk := [] }) else s

/-- The object unit begins the next line (R121, R124, R125): line k follows its own line k - 1 and the composer's
completion of line k - 2, and the commands of line k have been read. -/
def State.objLineStart (s : State) (n : Nat) : State :=
  let e := s.engS n
  let k := e.objNext
  if e.active = none ∨ !e.live ∨ e.objWork.isSome ∨ s.vActive n ≤ k ∨ e.nextLine + 1 < k ∨ !s.llPast n k then s
  else
    let s := s.ocSync n
    s.modEng n (fun e => { e with
      objWork := some k, objNext := k + 1, objT := s.now, objOrg := s.objOrigin n k
      objShed := s.ladderAt n (s.level n) })

/-- The object unit has done its part of line `k`. -/
def State.objLeave (s : State) (n k : Nat) : State :=
  s.modEng n (fun e => { e with objWork := none, objDone := k :: e.objDone })

/-- The object unit completes its line, at the end of the time it takes (R121, R122, R127). -/
def State.objLineEnd (s : State) (n : Nat) : State :=
  let s := s.bltTo
  let e := s.engS n
  match e.objWork, e.active with
  | some k, some sc =>
    match s.objDraw n k (s.hActive n) e.objOrg e.objShed (sc.bandRefs k) [] [] 0 with
    | none => s
    | some ((b0, b1, t, bad), s) =>
      let s := { s with freeCnt := s.freeCnt + 1 }
      let s := (s.reach ((s.engS n).objT + t)).modEng n (fun e => { e with
        objBuf := Tbl.put (Tbl.put e.objBuf (2 * k) b0) (2 * k + 1) b1 })
      let s := s.arrStore (fun w => match w with
        | .obj m q _ => m == n && q / 2 == k
        | _ => false)
      (if bad then s.poisonLine n k else s).objLeave n k
  | some k, none => s.objLeave n k
  | none, _ => s

end Sys2Proof.Machine
end

