-- ==== Sys2Proof/Machine/Compose.lean ====
section
/-! DEFINITION. Composition of a line: tile planes, bitmap planes, object planes, order, blending and window
effects (03_tile_planes.md R77-R103, 05_composition.md R129-R147), and the line-list writes bound to it (R67). -/

namespace Sys2Proof.Machine

/-- The settings of one tile plane in force for a segment of the line. -/
structure TileCfg where
  t : Nat
  on : Bool
  fmt : Nat
  ts : Nat
  affine : Bool
  edge : Nat
  ltbl : Bool
  col : Bool
  zop : Bool
  mapW : Nat
  mapH : Nat
  subpal : Nat
  palofs : Nat
  wmode : Nat
  sel0 : Bool
  sel1 : Bool
  mapBase : Nat
  tileBase : Nat
  sx : Nat
  sy : Nat
  edgeEntry : Nat
  a : Nat
  c : Nat
  deriving DecidableEq, Repr

/-- Plane `t` of engine `n` as its active registers stand; `shed` is the ladder's TILE_MASK. -/
def State.tileCfg (s : State) (n shed t : Nat) : TileCfg :=
  let w := s.actReg (R.ENGn_Tt_CTRL n t)
  let sc := s.actReg (R.ENGn_Tt_SCROLL n t)
  { t, on := w.testBit 0 && !shed.testBit t, fmt := bitsOf w 1 2, ts := if w.testBit 3 then 16 else 8
    affine := w.testBit 4 && decide (t < 2), edge := bitsOf w 5 2, ltbl := w.testBit 7, col := w.testBit 8
    zop := w.testBit 9, mapW := 16 * 2 ^ (min 8 (bitsOf w 10 4)), mapH := 16 * 2 ^ (min 8 (bitsOf w 14 4))
    subpal := bitsOf w 18 4, palofs := bitsOf w 22 6, wmode := bitsOf w 28 2, sel0 := w.testBit 30, sel1 := w.testBit 31
    mapBase := s.actReg (R.ENGn_Tt_MAP_BASE n t) * 256, tileBase := s.actReg (R.ENGn_Tt_TILE_BASE n t) * 256
    sx := bitsOf sc 0 16, sy := bitsOf sc 16 16, edgeEntry := s.actReg (R.ENGn_Tt_EDGE n t)
    a := if t < 2 then s.actReg (R.ENGn_Tt_AFF_A n t) else 0, c := if t < 2 then s.actReg (R.ENGn_Tt_AFF_C n t) else 0 }

/-- The settings of one bitmap plane in force for a segment. -/
structure BmpCfg where
  on : Bool
  fmt : Nat
  zop : Bool
  pri : Nat
  pal : Nat
  wmode : Nat
  sel0 : Bool
  sel1 : Bool
  deriving DecidableEq, Repr

def State.bmpCfg (s : State) (n shedP b : Nat) : BmpCfg :=
  let w := s.actReg (R.ENGn_Bb_CTRL n b)
  { on := w.testBit 0 && !shedP.testBit b, fmt := bitsOf w 1 2, zop := w.testBit 3, pri := bitsOf w 4 4
    pal := bitsOf w 8 6, wmode := bitsOf w 14 2, sel0 := w.testBit 16, sel1 := w.testBit 17 }

/-- The settings of one object plane in force for a segment. -/
structure ObjCfg where
  on : Bool
  palofs : Nat
  wmode : Nat
  sel0 : Bool
  sel1 : Bool
  deriving DecidableEq, Repr

def State.objCfg (s : State) (n shedP p : Nat) : ObjCfg :=
  let w := s.actReg (R.ENGn_Op_CTRL n p)
  { on := w.testBit 0 && !shedP.testBit (2 + p), palofs := bitsOf w 1 6, wmode := bitsOf w 7 2
    sel0 := w.testBit 9, sel1 := w.testBit 10 }

/-- The geometry of bitmap plane `b` as the registers stand (R140). -/
def State.bmpGeo (s : State) (n b : Nat) : BmpGeo :=
  let z := s.actReg (R.ENGn_Bb_SIZE n b)
  let p := s.actReg (R.ENGn_Bb_POS n b)
  { base := s.actReg (if (s.engS n).front.testBit b then R.ENGn_Bb_BASE1 n b else R.ENGn_Bb_BASE0 n b) * 256
    pitch := bitsOf (s.actReg (R.ENGn_Bb_PITCH n b)) 0 16 * 16
    w := min 16384 (bitsOf z 0 15), h := min 16384 (bitsOf z 16 15)
    x := sext 16 (bitsOf p 0 16), y := sext 16 (bitsOf p 16 16) }

/-- Everything that holds for one segment of a line. -/
structure SegCfg where
  tiles : List TileCfg
  bmps : List BmpCfg
  objs : List ObjCfg
  win0 : Win
  win1 : Win
  /-- slots of the table in use, or none in fixed order (R131, R132) -/
  slots : Option (List Nat)
  backdrop : Rgb
  /-- MODE and PALPHA per plane code (R134) -/
  blend : List (Nat × Nat)
  /-- MODE, LEVEL and colour of the effects of WIN0 and WIN1 (R138) -/
  fx : List (Nat × Nat × Rgb)
  pal : Tbl Nat
  deriving DecidableEq, Repr

/-- The window `w` of engine `n`. -/
def State.win (s : State) (n w : Nat) : Win :=
  let x := s.actReg (R.ENGn_WINw_X n w)
  let y := s.actReg (R.ENGn_WINw_Y n w)
  ⟨bitsOf x 0 14, bitsOf x 16 14, bitsOf y 0 13, bitsOf y 16 13⟩

/-- A backdrop-layout colour: red, green, blue. -/
def colourOf (c0 c1 : Nat) : Rgb := (bitsOf c1 0 12, bitsOf c0 12 12, bitsOf c0 0 12)

/-- The backdrop colour now active (R139). -/
def State.backdrop (s : State) (n : Nat) : Rgb :=
  colourOf (s.actReg (R.ENGn_BACKDROP0 n)) (s.actReg (R.ENGn_BACKDROP1 n))

/-- The slots of order table `j`, duplicates after the rearmost removed (R132). -/
def State.orderSlots (s : State) (n j : Nat) : List Nat :=
  let lo := s.actReg (R.ENGn_ORDERj_LO n j)
  let hi := s.actReg (R.ENGn_ORDERj_HI n j)
  let l := (List.range 12).map (fun i => if i < 8 then bitsOf lo (4 * i) 4 else bitsOf hi (4 * (i - 8)) 4)
  l.foldl (fun a c => if c < 12 ∧ !a.contains c then a ++ [c] else a) []

/-- The segment settings from the active registers; `shed` is the ladder entry of the line's LEVEL (R146). -/
def State.segCfg (s : State) (n : Nat) (shed : Nat × Nat × Nat) : SegCfg :=
  let cc := s.actReg (R.ENGn_COMP_CTRL n)
  { tiles := (List.range 8).map (s.tileCfg n shed.1)
    bmps := (List.range 2).map (s.bmpCfg n shed.2.1)
    objs := (List.range 2).map (s.objCfg n shed.2.1)
    win0 := s.win n 0, win1 := s.win n 1
    slots := if cc.testBit 0 then some (s.orderSlots n (bitsOf cc 1 3)) else none
    backdrop := s.backdrop n
    blend := (List.range 12).map (fun c => let w := s.actReg (R.ENGn_PBLENDc n c); (bitsOf w 0 2, bitsOf w 8 8))
    fx := (List.range 2).map (fun w =>
      let f := s.actReg (R.ENGn_WINw_FX n w)
      (bitsOf f 0 2, bitsOf f 8 8, colourOf (s.actReg (R.ENGn_WINw_FXCOL0 n w)) (s.actReg (R.ENGn_WINw_FXCOL1 n w))))
    pal := (s.engS n).pal }

/-- Plane code `c` is listed (R132). -/
def SegCfg.listed (g : SegCfg) (c : Nat) : Bool :=
  match g.slots with
  | none => true
  | some l => l.contains c

/-- A plane with these mask settings shows at `(x, k)` (R99). -/
def SegCfg.shows (g : SegCfg) (wmode : Nat) (sel0 sel1 : Bool) (x k : Nat) : Bool :=
  maskShows wmode sel0 sel1 (g.win0.has x k) (g.win1.has x k)

/-- Tile plane `c` is visible at a pixel: enabled, unshed, shown, listed. -/
def SegCfg.tileVis (g : SegCfg) (c : TileCfg) (x k : Nat) : Bool :=
  c.on && g.listed c.t && g.shows c.wmode c.sel0 c.sel1 x k

/-! ### Tile planes -/

/-- The tile that a map entry names, and the number of its pixel at column `fx`, row `fy` (R82, R83). -/
def TileCfg.texAt (c : TileCfg) (entry fx fy : Nat) : Nat × Nat :=
  let tx := if entry.testBit 26 then c.ts - 1 - fx else fx
  let ty := if entry.testBit 27 then c.ts - 1 - fy else fy
  let bytes := c.ts * c.ts * (match c.fmt with | 0 => 1 | 1 => 2 | 2 => 4 | _ => 8) / 2
  (c.tileBase + bitsOf entry 0 20 * bytes, ty * c.ts + tx)

/-- The pixel of a map entry (R82-R86). -/
def TileCfg.texPix (c : TileCfg) (f : Nat → Byte) (pal : Tbl Nat) (entry fx fy : Nat) : Option PPix :=
  let t := c.texAt entry fx fy
  valuePix pal c.fmt (texel f t.1 c.fmt t.2) (bitsOf entry 20 6 + c.palofs) c.subpal (bitsOf entry 28 1) c.zop

/-- The address of a map entry (R79). -/
def TileCfg.mapAddr (c : TileCfg) (mc mr : Nat) : Nat := (c.mapBase + (mr * c.mapW + mc) * 4) % 2 ^ 40

/-- A position in a map: where its entry stands (none: the edge entry), and the column and row in its tile. -/
abbrev TilePos := Option Nat × Nat × Nat

/-- The position of map pixel `(px, py)`. -/
def TileCfg.posAt (c : TileCfg) (px py : Nat) : TilePos :=
  (some (c.mapAddr (px / c.ts) (py / c.ts)), px % c.ts, py % c.ts)

/-- What a scrolled plane samples at canvas pixel `(x, k)` (R88): LTBL and COL as they stand at the pixel, the offsets as
the line's tables give them. -/
def TileCfg.posScrolled (c : TileCfg) (t : LineTab) (x k : Nat) : TilePos :=
  let ldx := if c.ltbl then t.ldx else 0
  let ldy := if c.ltbl then t.ldy else 0
  let cdy := if c.col then t.col.getD (x / 16) 0 else 0
  c.posAt ((x + c.sx + ldx) % (c.mapW * c.ts)) ((k + c.sy + ldy + cdy) % (c.mapH * c.ts))

/-- What an affine plane samples at (u, v), both 40 bits SQ24.16 (R95); none: absent. -/
def TileCfg.posAffine (c : TileCfg) (u v : Nat) : Option TilePos :=
  let iu := sext 24 (u / 2 ^ 16)
  let iv := sext 24 (v / 2 ^ 16)
  let wp := c.mapW * c.ts
  let hp := c.mapH * c.ts
  let inside := decide (0 ≤ iu) && decide (iu < wp) && decide (0 ≤ iv) && decide (iv < hp)
  let at_ := c.posAt (iu % (wp : Int)).toNat (iv % (hp : Int)).toNat
  match c.edge with
  | 0 => some at_
  | 2 => if inside then some at_ else some (none, (iu % (c.ts : Int)).toNat, (iv % (c.ts : Int)).toNat)
  | _ => if inside then some at_ else none

/-- What tile plane `c` samples at a pixel, where it is visible there; `uv`: u and v of T0 and T1. -/
def SegCfg.tilePos (g : SegCfg) (tabs : List LineTab) (uv : List (Nat × Nat)) (x k : Nat) (c : TileCfg) : Option TilePos :=
  if !g.tileVis c x k then none
  else if c.affine then let p := uv.getD c.t (0, 0); c.posAffine p.1 p.2
  else some (c.posScrolled (tabs.getD c.t {}) x k)

/-- The map entry of a position. -/
def TileCfg.entryOf (c : TileCfg) (f : Nat → Byte) (p : TilePos) : Nat :=
  match p.1 with
  | some a => fetchLE f a 4
  | none => c.edgeEntry

/-! ### Bitmap planes -/

/-- The row address and the column of the bitmap pixel that plane `b` reads at `(x, k)`, where it reads one (R140). -/
def SegCfg.bmpPos (g : SegCfg) (geo : List BmpGeo) (x k b : Nat) : Option (Nat × Nat) :=
  match g.bmps[b]?, geo[b]? with
  | some c, some q =>
    let bx := (x : Int) - q.x
    let by_ := (k : Int) - q.y
    if !(c.on && g.listed (8 + b) && g.shows c.wmode c.sel0 c.sel1 x k) ∨ q.w = 0 ∨ q.h = 0 ∨ bx < 0 ∨ (q.w : Int) ≤ bx ∨
        by_ < 0 ∨ (q.h : Int) ≤ by_ then none
    else some (q.base + by_.toNat * q.pitch, bx.toNat)
  | _, _ => none

/-- The pixel format of a bitmap plane as a number of R83 (R141). -/
def BmpCfg.texFmt (c : BmpCfg) : Nat := match c.fmt with | 0 => 1 | 1 => 2 | _ => 3

/-! ### One pixel -/

/-- An object-plane pixel from its buffer entry (R118). -/
def objPix (e palofs : Nat) (pal : Tbl Nat) : Option PPix :=
  valuePix pal (bitsOf e 32 2) (bitsOf e 0 32) (bitsOf e 34 6 + palofs) (bitsOf e 40 4) (bitsOf e 44 4) true

/-- Insert by ascending key. -/
def keyInsert (x : Nat × Nat × PPix) : List (Nat × Nat × PPix) → List (Nat × Nat × PPix)
  | [] => [x]
  | y :: t => if x.1 ≤ y.1 then x :: y :: t else y :: keyInsert x t

/-- The key of a plane pixel in fixed order (R131). -/
def planeKey (code pri : Nat) : Nat :=
  if code < 8 then 8 * (2 * (7 - code) + pri) else 8 * pri + (code - 7)

/-- The composed pixel from the present plane pixels, as (plane code, pixel) (R130). -/
def SegCfg.compose (g : SegCfg) (x k : Nat) (ps : List (Nat × PPix)) : Nat :=
  let ord : List (Nat × Nat × PPix) :=
    (ps.map (fun p => (match g.slots with
      | none => planeKey p.1 p.2.pri
      | some l => l.idxOf p.1, p.1, p.2))).foldr keyInsert []
  let d := ord.foldl (fun d p => let b := g.blend.getD p.2.1 (0, 255); blendPix b.1 b.2 p.2.2 d) g.backdrop
  let exempt := match ord.getLast? with
    | none => false
    | some p => p.2.2.flags.testBit 2
  let fx := fun (w : Win) (i : Nat) (d : Rgb) =>
    let e := g.fx.getD i (0, 0, (0, 0, 0))
    if exempt || !w.has x k then d
    else (fxCh e.1 e.2.1 e.2.2.1 d.1, fxCh e.1 e.2.1 e.2.2.2.1 d.2.1, fxCh e.1 e.2.1 e.2.2.2.2 d.2.2)
  packRgb (fx g.win1 1 (fx g.win0 0 d))

/-! ### Line-list writes -/

/-- A register write of a line list at offset `off` of the engine's block (R33, R66, R91, R93). `seg0`: before the
line's first WAITX. -/
def State.llWrite (s : State) (n off v : Nat) (seg0 : Bool) : State :=
  if off % 4 ≠ 0 ∨ off < 0x1000 ∨ 0x7FFC < off then s
  else
    let v := v % 2 ^ 32
    let t := (off - 0x1000) / 0x80
    let r := (off - 0x1000) % 0x80
    let v := if t < 8 ∧ r = 0 ∧ 2 ≤ t then putBits v 4 1 0 else v
    let s := s.writeByList (R.ENGn_CTRL n + off) v
    if t < 2 ∧ r = 0x30 then
      if seg0 then s.modEng n (fun e => { e with refU := Tbl.put e.refU t (v * 256) })
      else s.modEng n (fun e => { e with reloadU := t :: e.reloadU })
    else if t < 2 ∧ r = 0x34 then
      if seg0 then s.modEng n (fun e => { e with refV := Tbl.put e.refV t (v * 256) })
      else s.modEng n (fun e => { e with reloadV := t :: e.reloadV })
    else s

/-- Consecutive line-list writes (R65, WBLK). -/
def State.llWrites (s : State) (n off : Nat) (seg0 : Bool) : List Nat → State
  | [] => s
  | v :: vs => (s.llWrite n off v seg0).llWrites n (off + 4) seg0 vs

/-- The six affine registers of plane `t` (R91). -/
def State.llAffine (s : State) (n t : Nat) (seg0 : Bool) (a b c d x0 y0 : Nat) : State :=
  s.llWrites n (0x1020 + 0x80 * t) seg0 [a, b, c, d, x0, y0]

/-- PAL: entries from HBM into palette RAM (R67, R87, R103); an entry that a register write reached in the same cycle
keeps that value (R87). True: an error stopped it. No answer while the HBM gives none. -/
def State.llPal (s : State) (n p : Nat) : Nat → Nat → Nat → Option (Bool × State)
  | 0, _, _ => some (false, s)
  | cnt + 1, e, a =>
    match s.readPiece n (a % 2 ^ 40) 8 with
    | (.ok bs, s) =>
      let i := 256 * p + e % 256
      let s := if s.arrived 9 (16384 * n + i) then s
        else (s.modEng n (fun g => { g with pal := Tbl.set 0 g.pal i (leVal bs % 2 ^ 48) })).arrStore (· == .pal n i)
      State.llPal s n p cnt (e + 1) (a + 8)
    | (.wait, _) => none
    | (_, s) => some (true, s)

/-- One bound command takes effect in composition (R67). True: the line is poisoned (R87). -/
def State.llApply (s : State) (n : Nat) (seg0 : Bool) : LlCmd → Option (Bool × State)
  | .wreg off v => some (false, s.llWrite n off v seg0)
  | .wblk off vs => some (false, s.llWrites n off seg0 vs)
  | .pal p first cnt addr => s.llPal n p cnt first (addr * 16)
  | .scroll t wx wy x y =>
    let old := s.actReg (R.ENGn_Tt_SCROLL n t)
    let v := putBits (putBits old 0 16 (if wx then x else bitsOf old 0 16)) 16 16 (if wy then y else bitsOf old 16 16)
    some (false, s.llWrite n (0x100C + 0x80 * t) v seg0)
  | .affine t a b c d x0 y0 => some (false, s.llAffine n t seg0 a b c d x0 y0)
  | .order j => some (false, s.wrAct (F.ENGn_COMP_CTRL.TABLE n) j)
  | .snd _ _ _ => some (false, s)
  | .sig _ => some (false, s)

/-- Commands in list order. -/
def State.llApplyAll (s : State) (n : Nat) (seg0 : Bool) : List LlCmd → Option (Bool × State)
  | [] => some (false, s)
  | c :: cs => match s.llApply n seg0 c with
    | none => none
    | some (b1, s) => match s.llApplyAll n seg0 cs with
      | none => none
      | some (b2, s) => some (b1 || b2, s)

/-- The commands bound to line `k` in the segment from `x`. -/
def EngS.itemsAt (e : EngS) (k x : Nat) : List LlCmd :=
  (e.llItems.filter (fun i => i.k == k && i.x == x)).map (fun i => i.cmd)

/-- The segment starts of line `k` (0 first). -/
def EngS.segStarts (e : EngS) (k : Nat) : List Nat :=
  0 :: dedupN (((e.llItems.filter (fun i => i.k == k)).map (fun i => i.x)).filter (· != 0))

/-- The commands of a line are done with, but for SND and SIG, which wait for the line tick (R34). -/
def State.llDone (s : State) (n k : Nat) : State :=
  s.modEng n (fun e => { e with llItems := e.llItems.filter (fun i => i.k != k ||
    (match i.cmd with | .snd _ _ _ => true | .sig _ => true | _ => false)) })

/-- A writing command that the per-line table of an affine plane does not override (R97). -/
def overTable (t : Nat) : LlCmd → Bool
  | .affine p _ _ _ _ _ _ => p == t
  | .wreg off _ => [0x1020, 0x1028, 0x1030, 0x1034].contains (off - 0x80 * t)
  | .wblk _ _ => true
  | _ => false

/-- The part of a command that stands over the table entry: writes of A, C, X0 and Y0 of plane `t` (R97). -/
def State.overApply (s : State) (n t : Nat) : LlCmd → State
  | .wblk off vs => (List.range vs.length).foldl (fun s i =>
      if [0x1020, 0x1028, 0x1030, 0x1034].contains (off + 4 * i - 0x80 * t)
      then s.llWrite n (off + 4 * i) (vs.getD i 0) true else s) s
  | .affine _ a _ c _ x0 y0 =>
    (((s.llWrite n (0x1020 + 0x80 * t) a true).llWrite n (0x1028 + 0x80 * t) c true).llWrite n (0x1030 + 0x80 * t) x0 true).llWrite
      n (0x1034 + 0x80 * t) y0 true
  | .wreg off v => s.llWrite n off v true
  | _ => s

/-- Blocks into the engine's tile and map caches (R100-R102). True: an error. -/
def State.tcFetch (s : State) (n : Nat) (as : List Nat) : Option (Bool × State) :=
  match s.fetchAll n s.freeCnt (dedupN as) (s.engS n).tcBlk with
  | none => none
  | some ((bad, t), s) => some (bad, s.modEng n (fun e => { e with tcBlk := t }))

/-- The byte at `a` that a tile, map or table read of pixel `x` finds in the caches. -/
def State.tcByte (s : State) (n x a : Nat) : Byte :=
  s.pickByte (s.engS n).tcMark s.freeCnt x a (blkByte (s.engS n).tcBlk a)

/-- The affine per-line table entry of plane `t` at pixel 0 of line `k` (R97). True: poisoned. -/
def State.affTable (s : State) (n k t : Nat) (cmds : List LlCmd) : Option (Bool × State) :=
  let a := (s.actReg (R.ENGn_Tt_LTBL_BASE n t) * 256 + 16 * k) % 2 ^ 40
  match s.tcFetch n [blk64 a] with
  | none => none
  | some (bad, s) =>
    let g := fun i => fetchLE (s.tcByte n 0) (a + 4 * i) 4
    let s := s.setAct (R.ENGn_Tt_AFF_A n t) (g 2)
    let s := s.setAct (R.ENGn_Tt_AFF_C n t) (g 3)
    let s := s.llWrite n (0x1030 + 0x80 * t) (g 0) true
    let s := s.llWrite n (0x1034 + 0x80 * t) (g 1) true
    some (bad, (cmds.filter (overTable t)).foldl (fun s c => s.overApply n t c) s)

/-! ### A whole line -/

/-- The tables of a scrolled plane on line `k`: entry `k` of the per-line table where `l`, the whole per-column table where
`c` (R88-R90). True: poisoned. -/
def State.lineTab (s : State) (n k h t : Nat) (l c : Bool) : Option ((Bool × LineTab) × State) :=
  let la := (s.actReg (R.ENGn_Tt_LTBL_BASE n t) * 256 + 4 * k) % 2 ^ 40
  let ca := s.actReg (R.ENGn_Tt_COL_BASE n t) * 256
  let cnt := if c then (h + 15) / 16 else 0
  match s.tcFetch n ((if l then [blk64 la] else []) ++ (List.range cnt).map (fun i => blk64 (ca + 2 * i))) with
  | none => none
  | some (bad, s) =>
    let f := s.tcByte n 0
    some ((bad, { ldx := if l then fetchLE f la 2 else 0, ldy := if l then fetchLE f (la + 2) 2 else 0
                  col := (List.range cnt).map (fun i => fetchLE f (ca + 2 * i) 2) }), s)

/-- Segment settings of the whole line, ahead of composition, to see where planes are visible (R90). -/
def State.segsAhead (s : State) (n k : Nat) (shed : Nat × Nat × Nat) : List Nat → List (Nat × SegCfg)
  | [] => []
  | x :: xs =>
    let cmds := ((s.engS n).itemsAt k x).filter (fun c => match c with | .pal _ _ _ _ => false | _ => true)
    let s := if x = 0 then s else match s.llApplyAll n false cmds with
      | some (_, s) => s
      | none => s
    (x, s.segCfg n shed) :: s.segsAhead n k shed xs

/-- Tile plane `t` is visible at some pixel of the line. -/
def lineVis (segs : List (Nat × SegCfg)) (t k h : Nat) : Bool :=
  (List.range segs.length).any (fun i =>
    match segs[i]? with
    | none => false
    | some (x, g) =>
      let hi := match segs[i + 1]? with | some q => min h q.1 | none => h
      match g.tiles[t]? with
      | none => false
      | some c => (List.range (hi - x)).any (fun d => g.tileVis c (x + d) k))

/-- Some segment has plane `t` scrolled with the bit that `p` reads. -/
def lineUses (segs : List (Nat × SegCfg)) (t : Nat) (p : TileCfg → Bool) : Bool :=
  segs.any (fun g => match g.2.tiles[t]? with
    | some c => !c.affine && p c
    | none => false)

/-- The tile and map caches are invalidated at the start of the next composed line where INV was written (R100). -/
def State.tcSync (s : State) (n : Nat) : State :=
  if (s.engS n).tcInv then s.modEng n (fun e => { e with tcInv := false, tcMark := s.memc.jseq, tcBlk := [] }) else s

/-- The affine tables of T0 and T1 at pixel 0 (R97). -/
def State.affTables (s : State) (n k h : Nat) (shed : Nat × Nat × Nat) (ahead : List (Nat × SegCfg)) (cmds : List LlCmd) :
    List Nat → Option (Bool × State)
  | [] => some (false, s)
  | t :: ts =>
    let c := s.tileCfg n shed.1 t
    if c.affine && c.ltbl && lineVis ahead t k h then
      match s.affTable n k t cmds with
      | none => none
      | some (b1, s) => match s.affTables n k h shed ahead cmds ts with
        | none => none
        | some (b2, s) => some (b1 || b2, s)
    else s.affTables n k h shed ahead cmds ts

/-- The tables of scrolled planes (R90). -/
def State.lineTabs (s : State) (n k h : Nat) (ahead : List (Nat × SegCfg)) : List Nat → Option ((Bool × List LineTab) × State)
  | [] => some ((false, []), s)
  | t :: ts =>
    let vis := lineVis ahead t k h
    match s.lineTab n k h t (vis && lineUses ahead t (fun c => c.ltbl)) (vis && lineUses ahead t (fun c => c.col)) with
    | none => none
    | some ((b1, tab), s) => match s.lineTabs n k h ahead ts with
      | none => none
      | some ((b2, tabs), s) => some ((b1 || b2, tab :: tabs), s)

/-- What pixel 0 of line `k` does before any table of a scrolled plane is read (R67, R97): the line's commands before its
first WAITX take effect, the affine tables over them. True: an error; and the segments of the line. -/
def State.linePre (s : State) (n k : Nat) (shed : Nat × Nat × Nat) : Option ((Bool × List (Nat × SegCfg)) × State) :=
  let h := s.hActive n
  let cmds := (s.engS n).itemsAt k 0
  match s.llApplyAll n true cmds with
  | none => none
  | some (bad0, s) =>
    let ahead := s.segsAhead n k shed (((s.engS n).segStarts k).filter (fun x => decide (x < h)))
    match s.affTables n k h shed ahead cmds [0, 1] with
    | none => none
    | some (bad1, s) => some ((bad0 || bad1, ahead), s)

/-- An affine step of 2.0 or more is in force on an enabled, unshed affine plane (R96). -/
def SegCfg.bigStep (g : SegCfg) : Bool :=
  g.tiles.any (fun c => c.on && c.affine && (decide (0x20000 ≤ (sext 32 c.a).natAbs) || decide (0x20000 ≤ (sext 32 c.c).natAbs)))

/-- Pixel 0 of line `k` (R67, R90, R96, R97, R140, R146): commands and tables, the geometry and the LEVEL of the line, and
whether it is composed at 1 pixel per ECLK. No answer while the HBM gives none. -/
def State.lineOpen (s : State) (n k : Nat) : Option State :=
  let s := s.bltTo
  let lvl := s.level n
  let s := s.modEng n (fun e => { e with lineLevel := lvl })
  let shed := s.ladderAt n lvl
  match s.linePre n k shed with
  | none => none
  | some ((bad0, ahead), s) => match s.lineTabs n k (s.hActive n) ahead (List.range 8) with
    | none => none
    | some ((bad1, tabs), s) =>
      let e := s.engS n
      let c : CompS := { t0 := s.now, segs := (ahead.map (fun p => p.1)).drop 1, shed, tabs
                         geo := (List.range 2).map (s.bmpGeo n)
                         uv := (List.range 2).map (fun t => (Tbl.get 0 e.refU t, Tbl.get 0 e.refV t))
                         bad := bad0 || bad1, mark := s.memc.jseq
                         slow := (s.segsAhead n k shed (((s.engS n).segStarts k).filter (fun x => decide (x < s.hActive n)))).any
                           (fun g => g.2.bigStep) }
      some ({ s with freeCnt := s.freeCnt + 1 }.modEng n (fun e => { e with cmp := some c }))

/-- The pixels `x .. x + cnt - 1` with u and v of T0 and T1 at each, and u and v after them (R92). -/
def SegCfg.points (g : SegCfg) : Nat → Nat → List (Nat × Nat) → List (Nat × List (Nat × Nat)) × List (Nat × Nat)
  | 0, _, uv => ([], uv)
  | cnt + 1, x, uv =>
    let uv' := (List.range 2).map (fun t =>
      let p := uv.getD t (0, 0)
      match g.tiles[t]? with
      | some c => ((p.1 + wrapNat 40 (sext 32 c.a)) % 2 ^ 40, (p.2 + wrapNat 40 (sext 32 c.c)) % 2 ^ 40)
      | none => p)
    let r := g.points cnt (x + 1) uv'
    ((x, uv) :: r.1, r.2)

/-- The map blocks that pixels read (R99). -/
def SegCfg.mapBlks (g : SegCfg) (tabs : List LineTab) (k : Nat) (pts : List (Nat × List (Nat × Nat))) : List Nat :=
  pts.flatMap (fun p => g.tiles.filterMap (fun c => match g.tilePos tabs p.2 p.1 k c with
    | some (some a, _) => some (blk64 a)
    | _ => none))

/-- The tile blocks that pixels read, their map entries having been fetched; `f x a` is the byte at `a` for pixel `x`. -/
def SegCfg.texBlks (g : SegCfg) (f : Nat → Nat → Byte) (tabs : List LineTab) (k : Nat) (pts : List (Nat × List (Nat × Nat))) :
    List Nat :=
  pts.flatMap (fun p => g.tiles.filterMap (fun c => match g.tilePos tabs p.2 p.1 k c with
    | some q =>
      let t := c.texAt (c.entryOf (f p.1) q) q.2.1 q.2.2
      some (blk64 (t.1 + texelOff c.fmt t.2))
    | none => none))

/-- The 32-byte blocks that the bitmap planes stream for pixels, as 2 * block + plane (R142). -/
def SegCfg.bmpBlks (g : SegCfg) (geo : List BmpGeo) (k : Nat) (pts : List (Nat × List (Nat × Nat))) : List Nat :=
  pts.flatMap (fun p => (List.range 2).filterMap (fun b => match g.bmpPos geo p.1 k b, g.bmps[b]? with
    | some (row, bx), some c => some (2 * ((row + texelOff c.texFmt bx) % 2 ^ 40 / 32) + b)
    | _, _ => none))

/-- Bitmap blocks not yet fetched on the line (R142). True: an error. -/
def State.bmpFetch (s : State) (n : Nat) : List Nat → Tbl (List Byte) → Option ((Bool × Tbl (List Byte)) × State)
  | [], t => some ((false, t), s)
  | q :: qs, t =>
    if (Tbl.find t q).isSome then s.bmpFetch n qs t
    else match s.fetchBlk n (32 * (q / 2)) with
      | none => none
      | some (r, s) => match s.bmpFetch n qs (Tbl.put t q (r.getD [])) with
        | none => none
        | some ((b, t), s) => some ((b || r.isNone, t), s)

/-- The plane pixels of one position, as (plane code, pixel): tile, bitmap and object planes. `f x a` and `fb b x a` are the
bytes at `a` for pixel `x` in the tile cache and in the stream of bitmap plane `b`; `b0`, `b1` the object line buffers. -/
def SegCfg.planesAt (g : SegCfg) (f : Nat → Nat → Byte) (fb : Nat → Nat → Nat → Byte) (geo : List BmpGeo)
    (tabs : List LineTab) (b0 b1 : Tbl Nat) (k : Nat) (p : Nat × List (Nat × Nat)) : List (Nat × PPix) :=
  let x := p.1
  let tiles := g.tiles.map (fun c => match g.tilePos tabs p.2 x k c with
    | some q => c.texPix (f x) g.pal (c.entryOf (f x) q) q.2.1 q.2.2
    | none => none)
  let bmps := (List.range 2).map (fun b => match g.bmpPos geo x k b, g.bmps[b]? with
    | some (row, bx), some c => valuePix g.pal c.texFmt (texel (fb b x) row c.texFmt bx) c.pal 0 c.pri c.zop
    | _, _ => none)
  let objs := (List.range 2).map (fun o => match g.objs[o]? with
    | some c =>
      if c.on && g.listed (10 + o) && g.shows c.wmode c.sel0 c.sel1 x k then
        match Tbl.find (if o = 0 then b0 else b1) x with
        | some e => objPix e c.palofs g.pal
        | none => none
      else none
    | none => none)
  let all := tiles ++ bmps ++ objs
  (List.range all.length).filterMap (fun i => match all.getD i none with | some p => some (i, p) | none => none)

/-- The object buffers' and palettes' words that the pixels `pts` of line `k` read are decoded (R268, R278): a palette entry is
read where another value of it would show in a plane pixel. True: one was uncorrectable. -/
def State.segArr (s : State) (n k : Nat) (planes : Tbl Nat → Nat × List (Nat × Nat) → List (Nat × PPix))
    (pts : List (Nat × List (Nat × Nat))) : Bool × State :=
  let pal := (s.engS n).pal
  s.arrRead n (fun w => match w with
    | .pal m e => m == n && pts.any (fun p =>
        planes (Tbl.set 0 pal e (2 ^ 48 - 1 - Tbl.get 0 pal e)) p != planes pal p)
    | .obj m q x => m == n && q / 2 == k && pts.any (fun p => p.1 == x)
    | _ => false)

/-- The composer goes on to pixel `hi` within the segment it is in: it fetches the blocks that the pixels need, then
composes them (R99, R129-R142). Where what the line list holds leaves the frame undefined, each pixel is free (R520,
log 70). -/
def State.segRun (s : State) (n k hi : Nat) (c : CompS) : Option State :=
  let g := s.segCfg n c.shed
  let (pts, uv) := g.points (hi - c.x) c.x c.uv
  match s.tcFetch n (g.mapBlks c.tabs k pts) with
  | none => none
  | some (e1, s) => match s.tcFetch n (g.texBlks (s.tcByte n) c.tabs k pts) with
    | none => none
    | some (e2, s) => match s.bmpFetch n (g.bmpBlks c.geo k pts) c.bm with
      | none => none
      | some ((e3, bm), s) =>
        let fb := fun b x a => s.pickByte c.mark s.freeCnt x a ((Tbl.get [] bm (2 * (a / 32) + b)).getD (a % 32) 0#8)
        let planes := fun (e : EngS) (pal : Tbl Nat) (p : Nat × List (Nat × Nat)) =>
          { g with pal := pal }.planesAt (s.tcByte n) fb c.geo c.tabs (Tbl.get [] e.objBuf (2 * k))
            (Tbl.get [] e.objBuf (2 * k + 1)) k p
        let (e4, s) := s.segArr n k (planes (s.engS n)) pts
        let e := s.engS n
        let px := fun (p : Nat × List (Nat × Nat)) =>
          if e.llWild then Config.pick s.freeCnt p.1 0 % 2 ^ 36
          else g.compose p.1 k (planes e e.pal p)
        some ({ s with freeCnt := s.freeCnt + 1 }.modEng n (fun e => { e with cmp := some { c with
          x := hi, uv, bm, acc := pts.foldl (fun a p => px p :: a) c.acc
          bad := c.bad || e1 || e2 || e3 || e4, slow := c.slow || g.bigStep } }))

/-- The commands of the segment from pixel `x` take effect (R67). -/
def State.segEnter (s : State) (n k x : Nat) (c : CompS) : Option State :=
  match s.llApplyAll n false ((s.engS n).itemsAt k x) with
  | none => none
  | some (b, s) => some (s.modEng n (fun e => { e with cmp := some { c with segs := c.segs.drop 1, bad := c.bad || b } }))

/-- The composer goes on to pixel `hi`, segment by segment, as far as the HBM answers. -/
def State.lineTo (s : State) (n k hi : Nat) : Nat → State
  | 0 => s
  | fuel + 1 => match (s.engS n).cmp with
    | none => s
    | some c =>
      let go := fun (to_ : Nat) => if to_ ≤ c.x then s else match s.segRun n k to_ c with
        | none => s
        | some s => s.lineTo n k hi fuel
      match c.segs with
      | [] => go hi
      | x :: _ =>
        if x ≤ c.x then match s.segEnter n k x c with
          | none => s
          | some s => s.lineTo n k hi fuel
        else go (min hi x)

/-- The composer of engine `n` has passed pixel 0 and goes on to pixel `hi` of line `k`: each segment is entered once and
run once at most. -/
def State.lineGo (s : State) (n k hi : Nat) : State :=
  let s := s.bltTo
  match (s.engS n).cmp with
  | none => s
  | some c => s.lineTo n k hi (2 * c.segs.length + 2)

/-- What a write that the composer observes meets: of the line in composition, pixels up to one that the time passed allows
have been composed before it, 2 per ECLK at most, or 1 on a line of R96; which, depends on its fetches and is free (R68, R87,
R96; log 10). -/
def State.compTouch (s : State) (n : Nat) : State :=
  match (s.engS n).comp, (s.engS n).cmp with
  | some r, some c =>
    let (v, s) := s.free
    let most := min (s.hActive n) ((if c.slow then 1 else 2) * (s.now - c.t0))
    s.lineGo n r.k (c.x + v % (most - c.x + 1))
  | _, _ => s

/-- The affine accumulators at the end of line `k` (R92-R94). -/
def State.affStep (s : State) (n : Nat) : State :=
  (List.range 2).foldl (fun s t =>
    s.modEng n (fun e => { e with
      refU := Tbl.put e.refU t (if e.reloadU.contains t then s.actReg (R.ENGn_Tt_AFF_X0 n t) * 256
        else (Tbl.get 0 e.refU t + wrapNat 40 (sext 32 (s.actReg (R.ENGn_Tt_AFF_B n t)))) % 2 ^ 40)
      refV := Tbl.put e.refV t (if e.reloadV.contains t then s.actReg (R.ENGn_Tt_AFF_Y0 n t) * 256
        else (Tbl.get 0 e.refV t + wrapNat 40 (sext 32 (s.actReg (R.ENGn_Tt_AFF_D n t)))) % 2 ^ 40)
      reloadU := e.reloadU.filter (· != t), reloadV := e.reloadV.filter (· != t) })) s

/-- The affine accumulators at the tick (R93). -/
def State.affReload (s : State) (n : Nat) : State :=
  s.modEng n (fun e => { e with
    refU := (List.range 2).map (fun t => (t, s.actReg (R.ENGn_Tt_AFF_X0 n t) * 256 % 2 ^ 40))
    refV := (List.range 2).map (fun t => (t, s.actReg (R.ENGn_Tt_AFF_Y0 n t) * 256 % 2 ^ 40))
    reloadU := [], reloadV := [] })

end Sys2Proof.Machine
end

