-- ==== Sys2Proof/Machine/Polder.lean ====
section
/-! DEFINITION. The output stage, polders, the frame store and signatures (05 R148-R150; 06 R151-R170; 07 R195, R196,
R202). -/

namespace Sys2Proof.Machine

/-! ### The output LUT (R148) -/

/-- The entry LUT_ADDR names. -/
def State.lutKey (s : State) (p : Nat) : Nat := 4096 * s.rd (F.PLKn_LUT_ADDR.BANK p) + s.rd (F.PLKn_LUT_ADDR.ENTRY p)

/-- ENTRY advances under AINC. -/
def State.lutNext (s : State) (p : Nat) : State :=
  if s.on (F.PLKn_LUT_ADDR.AINC p) then s.incWrap (F.PLKn_LUT_ADDR.ENTRY p) else s

/-- A write of LUT_DATA0: the write hold. -/
def State.lutData0Write (s : State) (p v : Nat) : State := s.modPort p (fun x => { x with lutHold := v % 2 ^ 32 })

/-- A read of LUT_DATA0: B and G of the entry; RD is latched. -/
def State.lutData0Read (s : State) (p : Nat) : Nat × State :=
  let s := (s.arrRead 0x85 (· == .lut p (s.lutKey p))).2
  let e := Tbl.get 0 (s.portS p).lut (s.lutKey p)
  (bitsOf e 0 32, s.modPort p (fun x => { x with lutLatch := bitsOf e 32 16 }))

/-- Entry `k` is written in cycle `now`; what it held before the cycle is kept beside it (R148). -/
def PortS.lutPut (x : PortS) (now k v : Nat) : PortS :=
  let old := if x.lutAt = now then x.lutOld else []
  { x with lut := Tbl.set 0 x.lut k v, lutAt := now
           lutOld := if (Tbl.find old k).isSome then old else old.put k (Tbl.get 0 x.lut k) }

/-- Entry `k` as a pixel converted in cycle `now` finds it: before a write of that cycle (R148). -/
def PortS.lutAs (x : PortS) (now k : Nat) : Nat :=
  if x.lutAt = now then (Tbl.find x.lutOld k).getD (Tbl.get 0 x.lut k) else Tbl.get 0 x.lut k

/-- A write of LUT_DATA1: the entry RD, G, B. -/
def State.lutData1Write (s : State) (p v : Nat) : State :=
  ((s.modPort p (fun x => x.lutPut s.now (s.lutKey p) ((v % 65536) * 2 ^ 32 + x.lutHold))).arrStore
    (· == .lut p (s.lutKey p))).lutNext p

/-- A read of LUT_DATA1: the latched RD. -/
def State.lutData1Read (s : State) (p : Nat) : Nat × State := ((s.portS p).lutLatch, s.lutNext p)

/-- The link bits of a composed pixel at tile pixel (tx, ty) of port `p` (R148-R150): red, green, blue. -/
def State.outPixel (s : State) (p v tx ty : Nat) : Nat :=
  let (r, g, b) := unpackRgb v
  let base := if s.actOn (F.PLKn_OUT_CTRL.LUT_BANK p) then 4096 else 0
  let lut := fun k => (s.portS p).lutAs s.now k
  let en := s.actOn (F.PLKn_OUT_CTRL.LUT_EN p)
  let r16 := if en then bitsOf (lut (base + r)) 32 16 else r * 16
  let g16 := if en then bitsOf (lut (base + g)) 16 16 else g * 16
  let b16 := if en then bitsOf (lut (base + b)) 0 16 else b * 16
  let nb := if s.actOn (F.PLKn_OUT_CTRL.FMT p) then 12 else 10
  let d := s.actOn (F.PLKn_OUT_CTRL.DITHER p)
  (quantise nb r16 tx ty d * 2 ^ nb + quantise nb g16 tx ty d) * 2 ^ nb + quantise nb b16 tx ty d

/-! ### The polder table (R151-R161) -/

/-- An entry of a bank (R153). -/
structure Polder where
  en : Bool
  x : Nat
  y : Nat
  w : Nat
  h : Nat
  engine : Nat
  port : Nat
  tile : Nat
  clone : Bool
  cport : Nat
  ctile : Nat
  dx : Nat
  dy : Nat
  motion : Bool
  staticOk : Bool
  idleBlack : Bool
  freezeN : Nat
  refreshN : Nat
  deriving DecidableEq, Repr

/-- Word `w` of entry `i` of bank `b`. -/
def State.pldWord (s : State) (b i w : Nat) : Nat := s.reg (R.PLD_TBLb (32768 * b + 8 * i + w))

/-- Entry `i` of bank `b`. -/
def State.polder (s : State) (b i : Nat) : Polder :=
  let g := s.pldWord b i
  { en := (g 0).testBit 31, x := bitsOf (g 0) 0 13, y := bitsOf (g 0) 16 13, w := bitsOf (g 1) 0 13, h := bitsOf (g 1) 16 13
    engine := bitsOf (g 2) 0 5, port := bitsOf (g 2) 8 5, tile := bitsOf (g 2) 16 6, clone := (g 2).testBit 24
    cport := bitsOf (g 3) 0 5, ctile := bitsOf (g 3) 8 6, dx := bitsOf (g 4) 0 13, dy := bitsOf (g 4) 16 13
    motion := (g 5).testBit 0, staticOk := (g 5).testBit 1, idleBlack := (g 5).testBit 2
    freezeN := bitsOf (g 5) 8 8, refreshN := bitsOf (g 5) 16 8 }

/-- The indices of the enabled entries of a bank, ascending: word 0 of an enabled entry is listed. -/
def State.enabled (s : State) (b : Nat) : List Nat :=
  let lo := R.PLD_TBLb (32768 * b)
  (s.regs.filter (fun e => decide (lo ≤ e.1) && decide (e.1 < lo + 0x20000) && (e.1 - lo) % 32 == 0 && e.2.getLsbD 31)).map
    (fun e => (e.1 - lo) / 32)

/-- A write of word `w` of entry `i` of bank `b` (R152, R158). -/
def State.pldTblWrite (s : State) (b i w v : Nat) : State :=
  if b = s.pld.bank then s.flag F.PLD_STATUS.WR_ACTIVE 44
  else (s.setReg (R.PLD_TBLb (32768 * b + 8 * i + w)) v).wr F.PLD_STATUS.CHK_STATE 0

/-- CHECK = 1 (R158). -/
def State.pldCheck (s : State) : State := s.wr F.PLD_STATUS.CHK_STATE 1

/-- A reserved bit of words 0-5 is 1 (R153, R159). -/
def State.pldReserved (s : State) (b i : Nat) : Bool :=
  let ok := [0x9FFF1FFF, 0x1FFF1FFF, 0x013F1F1F, 0x00003F1F, 0x1FFF1FFF, 0x00FFFF07]
  (List.range 6).any (fun w => s.pldWord b i w &&& (0xFFFFFFFF ^^^ ok.getD w 0) != 0)

/-- RANGE of R159. -/
def Polder.rangeBad (e : Polder) : Bool :=
  decide (15 < e.engine) || decide (23 < e.port) || (e.clone && (decide (23 < e.cport) || e.cport == e.port))

/-- The rectangles of tile pixels that an entry covers: port, tile, left, right, top, bottom. -/
def Polder.rects (e : Polder) : List (Nat × Nat × Nat × Nat × Nat × Nat) :=
  (e.port, e.tile, e.dx, e.dx + e.w, e.dy, e.dy + e.h) ::
    (if e.clone then [(e.cport, e.ctile, e.dx, e.dx + e.w, e.dy, e.dy + e.h)] else [])

/-- Two rectangles share a tile pixel. -/
def rectsMeet (a b : Nat × Nat × Nat × Nat × Nat × Nat) : Bool :=
  a.1 == b.1 && a.2.1 == b.2.1 && decide (a.2.2.1 ≤ b.2.2.2.1) && decide (b.2.2.1 ≤ a.2.2.2.1) &&
    decide (a.2.2.2.2.1 ≤ b.2.2.2.2.2) && decide (b.2.2.2.2.1 ≤ a.2.2.2.2.2)

/-- The first entry, in ascending order, that overlaps an earlier one: the higher index of a pair (R159). Which of several
overlapping pairs is the first failure R159 does not say: the one whose higher index is lowest, a choice of the model
(log 85). -/
def overlapOf (prev : List (Nat × Polder)) : List (Nat × Polder) → Option Nat
  | [] => none
  | (i, e) :: t =>
    if prev.any (fun p => p.2.rects.any (fun r => e.rects.any (rectsMeet r))) then some i
    else overlapOf (prev ++ [(i, e)]) t

/-- The bits port `p` sends per frame in full (R159): L_p x b_p. -/
def State.portLoad (s : State) (es : List (Nat × Polder)) (p : Nat) : Nat :=
  let l := es.foldl (fun a e =>
    let n := (e.2.w + 1) * (e.2.h + 1)
    a + (if e.2.port = p then n else 0) + (if e.2.clone ∧ e.2.cport = p then n else 0)) 0
  l * (if s.on (F.PLKn_OUT_CTRL.FMT p) then 36 else 30)

/-- The result of the check of bank `b`: code and entry of the first failure (R159). -/
def State.pldVerdict (s : State) (b : Nat) : Option (Nat × Nat) :=
  let es := (s.enabled b).map (fun i => (i, s.polder b i))
  let one := es.findSome? (fun e =>
    if s.pldReserved b e.1 then some (1, e.1)
    else if e.2.rangeBad then some (2, e.1)
    else if s.rd (F.ENGn_HTIME0.H_ACTIVE e.2.engine) ≤ e.2.x + e.2.w ∨
        s.rd (F.ENGn_VTIME0.V_ACTIVE e.2.engine) ≤ e.2.y + e.2.h then some (3, e.1)
    else none)
  match one with
  | some r => some r
  | none => match overlapOf [] es with
    | some i => some (4, i)
    | none =>
      let fmin := if s.on F.ENG_TICK_CTRL.SRC && s.rd F.ENG_TICK_STATUS.GLK_STATE == 2
        then s.rd F.ENG_GLK_PERIOD.PERIOD - s.rd F.ENG_GLK_WIN.SLEW else s.rd F.ENG_TICK_PERIOD.PERIOD
      match (List.range 24).find? (fun p => decide (40 * fmin < s.portLoad es p)) with
      | some p => some (5, p)
      | none => none

/-- The check ends (R158, R159). -/
def State.pldCheckDone (s : State) : State :=
  if s.rd F.PLD_STATUS.CHK_STATE ≠ 1 then s
  else match s.pldVerdict (1 - s.pld.bank) with
    | none => s.wr F.PLD_STATUS.CHK_STATE 2
    | some (c, i) => ((s.wr F.PLD_STATUS.CHK_STATE 3).wr F.PLD_STATUS.CHK_ERR c).wr F.PLD_STATUS.CHK_ENTRY i

/-- The state of polder `i`. -/
def State.pldS (s : State) (i : Nat) : PldState := Tbl.get {} s.pld.st i
def State.modPld (s : State) (i : Nat) (f : PldState → PldState) : State :=
  { s with pld := { s.pld with st := Tbl.put s.pld.st i (f (s.pldS i)) } }

/-- FROZEN changes and PLD_FREEZE.COUNT follows. -/
def State.setFrozen (s : State) (i : Nat) (b : Bool) : State :=
  if s.on (F.PLD_STAT.FROZEN i) = b then s
  else (s.wrB (F.PLD_STAT.FROZEN i) b).wr F.PLD_FREEZE.COUNT
    (if b then s.rd F.PLD_FREEZE.COUNT + 1 else s.rd F.PLD_FREEZE.COUNT - 1)

/-- SAME_RUN becomes 0: FROZEN clears, STATIC ends, the frame that the tick begins is sent in full (R168-R170). -/
def State.sameZero (s : State) (i : Nat) : State :=
  let s := ((s.wr (F.PLD_STAT.SAME_RUN i) 0).setFrozen i false).wr (F.PLD_STAT.STATIC i) 0
  s.modPld i (fun p => { p with sending := true, unsent := 0 })

/-- The engine that feeds a polder is idle in this frame (R157). -/
def State.served (s : State) (n : Nat) : Bool := s.rd F.ENG_WARD_STATUS.WSTATE == 3 && s.rd F.ENG_WARD_STATUS.TARGET == n
def State.idle (s : State) (n : Nat) : Bool := !(s.engS n).live && !s.served n

/-- The signature of one polder at the tick (R167): latched and compared, or PARTIAL. -/
def State.sigLatch (s : State) (b i : Nat) : State :=
  let e := s.polder b i
  let st := s.pldS i
  let s := if st.rows ≠ e.h + 1 then s.wr (F.PLD_STAT.PARTIAL i) 1
    else
      let c := crcOut st.crc
      let s1 := (s.wr (F.PLD_SIG.CRC i) c).wr (F.PLD_STAT.PARTIAL i) 0
      if c = s.rd (F.PLD_SIG.CRC i) then s1.wr (F.PLD_STAT.SAME_RUN i) (min 255 (s.rd (F.PLD_STAT.SAME_RUN i) + 1))
      else s1.sameZero i
  let s := s.modPld i (fun p => { p with crc := 0xFFFFFFFF, rows := 0 })
  if s.on (F.PLD_STAT.STATIC i) then
    s.modPld i (fun p => { p with sending := false, unsent := p.unsent + 1 })
  else s.modPld i (fun p => { p with sending := true })

/-- FREEZE (R168), not during a freeze of the device (R467). -/
def State.polderFreeze (s : State) (i : Nat) : State :=
  let e := s.polder s.pld.bank i
  if e.en && e.motion && e.freezeN != 0 && decide (e.freezeN ≤ s.rd (F.PLD_STAT.SAME_RUN i)) &&
      !s.on (F.PLD_STAT.FROZEN i) && s.rd F.FLT_STATUS.STATE != 2 then
    (((s.setFrozen i true).wr F.PLD_FREEZE.LAST i).irq 44).fault 0x0F i
  else s

/-- STATIC is entered (R169). -/
def State.staticEnter (s : State) (i : Nat) : State :=
  let e := s.polder s.pld.bank i
  if e.en && e.staticOk && decide (max 1 (s.rd F.PLD_STATIC.ENTER_N) ≤ s.rd (F.PLD_STAT.SAME_RUN i)) &&
      !s.on (F.PLD_STAT.STATIC i) then
    (s.wr (F.PLD_STAT.STATIC i) 1).modPld i (fun p => { p with sending := false, unsent := 1 })
  else s

/-- The full refresh in STATIC: the frame after REFRESH_N - 1 unsent ones (R169). -/
def State.staticRefresh (s : State) (i : Nat) : State :=
  let e := s.polder s.pld.bank i
  let n := if e.refreshN = 0 then 255 else e.refreshN
  if s.on (F.PLD_STAT.STATIC i) && !(s.pldS i).sending && decide (n ≤ (s.pldS i).unsent) then
    s.modPld i (fun p => { p with sending := true, unsent := 0 })
  else s

/-- The bank change at the tick, by the active value of BANK (R18, R160, R170); the flag of a refused change is set at
every tick that refuses it. R160 does not say what CHK_STATE shows after an accepted change: it becomes IDLE, a choice of
the model (log 85). -/
def State.bankTick (s : State) : State :=
  let want := s.act F.PLD_CTRL.BANK
  if want = s.pld.bank then s
  else if s.rd F.PLD_STATUS.CHK_STATE = 2 then
    let s := { s with pld := { s.pld with bank := want, refresh := false, st := [] } }
    let s := (s.wr F.PLD_STATUS.ACT_BANK want).wr F.PLD_STATUS.CHK_STATE 0
    let olds := (List.range 4096).filter (fun i => s.reg (R.PLD_STAT i) != 0)
    olds.foldl State.sameZero s
  else s.flag F.PLD_STATUS.BANK_REJECT 44

/-- Every enabled polder, or every one that names a tile in a set, is sent in full (R170). -/
def State.refreshOf (s : State) (all : Bool) (tiles : Nat → Bool) : State :=
  ((s.enabled s.pld.bank).filter (fun i =>
    let e := s.polder s.pld.bank i
    all || tiles (64 * e.port + e.tile) || (e.clone && tiles (64 * e.cport + e.ctile)))).foldl State.sameZero s

/-- REFRESH_ALL, and polders that name a tile newly joined (R170, R227). -/
def State.refreshTick (s : State) : State :=
  let s := s.refreshOf s.pld.refresh (fun k => (s.chT k).joined)
  let s := { s with pld := { s.pld with refresh := false } }
  { s with chain := s.chain.map (fun e => (e.1, { e.2 with joined := false })) }

/-! ### Gangs (R161) -/

/-- Two members' rectangles in the ganged canvas meet. -/
def State.gangMeet (s : State) (i j : Nat) : Bool :=
  let x := fun n => s.act (F.ENGn_GANG_POS.GX n)
  let y := fun n => s.act (F.ENGn_GANG_POS.GY n)
  decide (x i < x j + s.hActive j) && decide (x j < x i + s.hActive i) && decide (y i < y j + s.vActive j) &&
    decide (y j < y i + s.vActive i)

/-- The check of gang `g` at the tick. -/
def State.gangTick (s : State) (g : Nat) : State :=
  let m := (List.range 16).filter (fun n => s.act (F.ENGn_GANG.ID n) == g)
  match m with
  | [] => s
  | a :: _ =>
    let same := m.all (fun n => s.rd (F.ENGn_CTRL.VPLL n) == s.rd (F.ENGn_CTRL.VPLL a) && s.hTotal n == s.hTotal a &&
      s.vTotal n == s.vTotal a && s.rasterOf n 0 == s.rasterOf a 0)
    let apart := m.all (fun i => m.all (fun j => i == j || !s.gangMeet i j))
    let fits := m.all (fun n => decide (s.act (F.ENGn_GANG_POS.GX n) + s.hActive n ≤ 16384) &&
      decide (s.act (F.ENGn_GANG_POS.GY n) + s.vActive n ≤ 8192))
    if same && apart && fits then s
    else (m.foldl (fun s n => s.hwSet (F.ENGn_GANG.MISMATCH n)) s).fault 0x0E g

/-! ### The frame store (R162-R165) -/

/-- The engine whose frame store engine `n` uses: EW in SERVE uses TARGET's (R165). -/
def State.fsOf (s : State) (n : Nat) : Nat := if n = 16 then s.rd F.ENG_WARD_STATUS.TARGET else n

/-- The row pitch in bytes of a frame store (R162). -/
def State.fsPitch (s : State) (n : Nat) : Nat := (s.hActive n * 4 + 255) / 256 * 256

/-- The byte address of line `k` in buffer `b` of engine `n`'s frame store. -/
def State.fsAddr (s : State) (n b k : Nat) : Nat :=
  (s.rd (if b = 0 then F.ENGn_FS_BASE0.BASE n else F.ENGn_FS_BASE1.BASE n) * 256 + k * s.fsPitch n) % 2 ^ 40

/-- EW uses a frame store only in SERVE, and a served TARGET none (R165, R172, R174). -/
def State.fsOwn (s : State) (n : Nat) : Bool := if n = 16 then s.rd F.ENG_WARD_STATUS.WSTATE == 3 else !s.served n

/-- The device is FROZEN in the cycle at hand: it was before, or a fault raised so far in the cycle is taken at CRITICAL
(R466). -/
def State.frozenNow (s : State) : Bool := s.settle.rd F.FLT_STATUS.STATE == 2

/-- Engine `n` may write a frame store now: no freeze, from the cycle of its fault on, nor before the tick after one (R164,
R466, R469). -/
def State.fsMay (s : State) (n : Nat) : Bool := !s.frozenNow && !s.recoverWaits && s.fsOwn n

/-- A complete or substituted line goes into the write buffer (R163); `again`: the line had been stored before. -/
def State.fsWrite (s : State) (n k : Nat) (pix : List Nat) (again : Bool) : State :=
  if !s.fsMay n then s
  else
    let f := s.fsOf n
    let s := s.postWrite 0x84 (s.fsAddr f (s.rd (F.ENGn_FS_STATUS.WBUF f)) k) (pix.flatMap (fun v => leBytes 4 (fsWord v)))
    if again then s else s.modEng n (fun e => { e with linesStored := e.linesStored + 1 })

/-- The line `k` of the last good frame; none where there is no such frame or it cannot be read (R47, R50). -/
def State.goodLine (s : State) (n k : Nat) : Option (List Nat) × State :=
  let f := s.fsOf n
  let h := s.hActive n
  if !s.on (F.ENGn_STATUS.FS_VALID f) then (none, s)
  else match s.busRead 0x84 (s.fsAddr f (1 - s.rd (F.ENGn_FS_STATUS.WBUF f)) k) (4 * h) with
    | (.ok bs, s) => (some ((List.range h).map (fun i => fsExpand (leAt bs (4 * i) 4))), s)
    | (_, s) => (none, s)

/-- The backdrop line (R50, R139). -/
def State.backLine (s : State) (n : Nat) : List Nat := List.replicate (s.hActive n) (packRgb (s.backdrop n))

/-- What a preview shows where its source delivers no line and the last good frame has none: black (R178, R181, R278). -/
def State.blackLine (s : State) (n : Nat) : List Nat := List.replicate (s.hActive n) 0

/-- The tick ends a frame in which engine `n` stored every active line (R163, R164). -/
def State.fsEnds (s : State) (n : Nat) (early : Bool) : Bool :=
  let e := s.engS n
  e.live && !early && s.fsMay n && e.linesStored == s.vActive n

/-- The frame store that a swap of engine `n` concerns, and whether its owner is STARTING before the tick. -/
def State.fsMark (s : State) (n : Nat) : Nat × Bool := (s.fsOf n, s.rd (F.ENGn_CTRL.STATE (s.fsOf n)) == 1)

/-- One frame store swaps (R163); an engine that enters STARTING at the tick has no good frame (R54). -/
def State.fsSwap (s : State) (e : Nat × Bool) : State :=
  let s := s.wr (F.ENGn_FS_STATUS.WBUF e.1) (1 - s.rd (F.ENGn_FS_STATUS.WBUF e.1))
  if s.rd (F.ENGn_CTRL.STATE e.1) = 1 ∧ e.2 = false then s else s.wr (F.ENGn_STATUS.FS_VALID e.1) 1

/-- The frame stores swap at the tick, unless the device is FROZEN by a fault of the tick's own cycle (R163, R466). -/
def State.fsTick (s : State) (swaps : List (Nat × Bool)) : State :=
  if s.frozenNow then s else swaps.foldl State.fsSwap s

/-- A recovery from FROZEN takes effect (R469): every polder's SAME_RUN is 0 and is sent in full, unless the device is
FROZEN again. -/
def State.freezeEnd (s : State) : State :=
  let s := { s with flt := { s.flt with recovered := false } }
  if s.rd F.FLT_STATUS.STATE = 2 then s else (s.enabled s.pld.bank).foldl State.sameZero s

/-- Outputs take the last good buffers while the device is FROZEN, engine output otherwise (R466, R469). -/
def State.freezeTick (s : State) : State :=
  let s := { s with flt := { s.flt with outFrozen := s.rd F.FLT_STATUS.STATE == 2 } }
  if s.flt.recovered then s.freezeEnd else s

/-- With RUN = 0 a recovery whose cycle is over has taken effect (R469). -/
def State.recoverDue (s : State) : State := if s.flt.recovered && !s.recoverWaits then s.freezeTick else s

/-- ENGn_FS_STATUS as it reads: the pitch in units of 256 bytes (R162), and FROZEN while a freeze keeps the buffers from
swapping (R164, R469). -/
def State.fsStatus (s : State) (n : Nat) : Nat :=
  putBits (putBits (s.reg (R.ENGn_FS_STATUS n)) 16 16 (s.fsPitch n / 256)) 1 1
    (b2n (s.rd F.FLT_STATUS.STATE == 2 || s.recoverWaits))

/-- A write of FS_BASE0 or FS_BASE1 (R165). -/
def State.fsBaseWrite (s : State) (n b v : Nat) : State :=
  if n = 16 ∨ s.engState n = 0 then s.writeByCode (if b = 0 then R.ENGn_FS_BASE0 n else R.ENGn_FS_BASE1 n) v
  else s.flag (F.ENGn_STATUS.CFG_REJECT n) (n + 1)

/-! ### Rows into ports (R155, R195, R196, R202) -/

/-- Whole cells are cut off the gathered bits, most significant first; `fin` also sends the last, padded one. -/
def cutCells (mk : Nat → Nat → QCell) (fin : Bool) : Nat → Build → List QCell → Build × List QCell
  | 0, b, out => (b, out)
  | n + 1, b, out =>
    if 4096 ≤ b.len then
      let rest := b.len - 4096
      cutCells mk fin n { b with acc := b.acc % 2 ^ rest, len := rest, cell := b.cell + 1 }
        (out ++ [mk b.cell (b.acc / 2 ^ rest)])
    else if fin && decide (0 < b.len) then
      ({ b with acc := 0, len := 0, cell := b.cell + 1 }, out ++ [mk b.cell (b.acc * 2 ^ (4096 - b.len))])
    else (b, out)

/-- Port `p` discards a row of polder `i`, every later row of it in the frame, and its partly built cell (R202). -/
def State.rowDrop (s : State) (p i : Nat) : State := (s.pixDrop p i).flag (F.PLKn_LSTAT.OVERRUN p) (20 + p)

/-- The LUT entries that a row's pixels look up are read: one that is uncorrectable discards the row (R278, DEDUCED for the
row of the port pixel FIFO, log 82). -/
def State.lutScan (s : State) (p : Nat) (pix : List Nat) : Bool × State :=
  if !s.actOn (F.PLKn_OUT_CTRL.LUT_EN p) then (false, s)
  else
    let base := if s.actOn (F.PLKn_OUT_CTRL.LUT_BANK p) then 4096 else 0
    s.arrRead 0x85 (fun w => match w with
      | .lut q k => q == p && pix.any (fun v =>
          let (r, g, b) := unpackRgb v
          k == base + r || k == base + g || k == base + b)
      | _ => false)

/-- Port `p` takes row `r` of polder `i` for tile `a` (R155, R196, R202). `pix` is the row's composed pixels; a black row
has all channels 0 after the output stage (R157). Whether a partly built cell takes a place of the FIFO R202 does not say:
only whole cells count, a choice of the model (log 86). -/
def State.rowTake (s : State) (p i a r : Nat) (e : Polder) (pix : List Nat) (black : Bool) : State :=
  let x := s.portS p
  if !x.rows || s.laneSt p != 3 || x.overrun.contains i || !((s.pldS i).sending || x.full) then s
  else
    let b : Build := if r = 0 then {} else Tbl.get { row := 8192 } x.build i
    let (ue, s) := if b.row ≠ r || black then (false, s) else s.lutScan p pix
    if b.row ≠ r then s
    else if ue then s.rowDrop p i
    else
      let bpp := if s.actOn (F.PLKn_OUT_CTRL.FMT p) then 36 else 30
      let acc := (List.range pix.length).foldl (fun v j =>
        v * 2 ^ bpp + (if black then 0 else s.outPixel p (pix.getD j 0) (e.dx + j) (e.dy + r))) b.acc
      let b : Build := { b with acc := acc, len := b.len + bpp * pix.length, row := r + 1 }
      let fmt := if bpp = 36 then 1 else 0
      let mk := fun cell pay => ({ cell := { typ := 1, dir := 0, mode := 0, addr := a
                                             w1 := s.tick.frameCnt % 65536 * 65536 + fmt * 32768 + e.dx
                                             w2 := e.dy * 65536 + e.w, w3 := e.h * 2 ^ 19 + cell, pay := pay }
                                   t0 := s.now, tq := s.now, pol := i } : QCell)
      let (b, out) := cutCells mk (decide (r = e.h)) (b.len / 4096 + 2) b []
      if s.pixelsQueued p + out.length ≤ 766 ∧ s.fifoCells p + out.length ≤ 768 then
        let s := out.foldl (fun s q => s.pushCell p q) s
        s.modPort p (fun x => { x with build := Tbl.put x.build i b, hwm := max x.hwm (s.fifoCells p) })
      else
        let s := s.rowDrop p i
        if x.overrunRaised then s
        else (s.modPort p (fun x => { x with overrunRaised := true })).fault 0x19 p

/-- A later row of a polder that has overrun is discarded as well (R202). R202 counts one OVERRUN and the register's row
says rows discarded: OVERRUN_CNT counts the first row and each later one, a choice of the model (log 86). -/
def State.rowLost (s : State) (p i : Nat) : State :=
  if (s.portS p).overrun.contains i then s.incRc (F.PLKn_OVERRUN_CNT.COUNT p) else s

/-- The row goes to the tile `a` of the chain or ring of port `p`, if that tile is ADMITTED (R217, R230). -/
def State.rowTo (s : State) (i p a r : Nat) (e : Polder) (pix : List Nat) (black : Bool) : State :=
  if s.isB p then s.flag (F.PLKn_RSTAT.FAR_NAMED p) (20 + p)
  else if s.tstate (64 * p + a) ≠ 3 then s
  else match s.serving p a with
    | none => s
    | some q => (s.rowLost q i).rowTake q i a r e pix black

/-- Active line `k` of canvas `n` reaches polder `i`: its signature and its ports (R155, R166). -/
def State.polderRow (s : State) (n k : Nat) (pix : List Nat) (black : Bool) (i : Nat) : State :=
  let e := s.polder s.pld.bank i
  if e.engine ≠ n ∨ k < e.y ∨ e.y + e.h < k then s
  else if black && !e.idleBlack then s
  else
    let row := (pix.drop e.x).take (e.w + 1)
    let s := if black then s
      else s.modPld i (fun p => { p with crc := sigPixels p.crc row, rows := p.rows + 1 })
    let s := s.rowTo i e.port e.tile (k - e.y) e row black
    if e.clone then s.rowTo i e.cport e.ctile (k - e.y) e row black else s

/-- Active line `k` of canvas `n` reaches every polder. -/
def State.polderRows (s : State) (n k : Nat) (pix : List Nat) (black : Bool) : State :=
  (s.enabled s.pld.bank).foldl (fun s i => s.polderRow n k pix black i) s

end Sys2Proof.Machine
end

