-- ==== Sys2Proof/Machine/Warden.lean ====
section
/-! DEFINITION. The warden engine (06 R171-R175). -/

namespace Sys2Proof.Machine

/-- The state with the warden changed by `f`. -/
def State.modWard (s : State) (f : WardS → WardS) : State := { s with ward := f s.ward }

/-- WSTATE (R171): 0 IDLE, 1 PREP, 2 WATCH, 3 SERVE; and TARGET. -/
def State.wstate (s : State) : Nat := s.rd F.ENG_WARD_STATUS.WSTATE
def State.target (s : State) : Nat := s.rd F.ENG_WARD_STATUS.TARGET

/-- EW shadows engine `n`: from the first cycle of PREP until it leaves WATCH or SERVE (R172). -/
def State.shadows (s : State) (n : Nat) : Bool := decide (n < 16) && s.wstate != 0 && s.target == n

/-- A write of engine `n` that TARGET accepts is applied to EW as well (R172). -/
def State.mirror (s : State) (n : Nat) (f : Nat → State → State) : State :=
  let s1 := f n s
  if s.shadows n then f 16 s1 else s1

/-- A write of engine `n` that it takes only where `ok` holds: EW takes it where TARGET does (R172). -/
def State.mirrorIf (s : State) (n : Nat) (ok : Bool) (f : Nat → State → State) : State :=
  if ok then s.mirror n f else f n s

/-- The engine may be watched (R171). -/
def State.eligible (s : State) (n : Nat) : Bool :=
  (s.rd F.ENG_WARD_MASK.MASK).testBit n && !s.fenced n && s.engState n == 2

/-- The lowest-numbered eligible engine above the last target, wrapping (R171). -/
def State.nextTarget (s : State) : Option Nat :=
  ((List.range 16).map (fun i => (s.ward.last + 1 + i) % 16)).find? s.eligible

/-- Offsets in the ENGn block that PREP does not copy: status, counter, frame-store and gang registers (R172). -/
def prepKeeps (o : Nat) : Bool :=
  [0x14, 0x18, 0x20, 0x24, 0x28, 0x4C, 0x50, 0x54, 0x58, 0x94, 0x98, 0x9C, 0xA0, 0xA4, 0xA8, 0xAC, 0xD0, 0xD4, 0x100, 0x104, 0x108, 0x110,
   0x114].contains o || decide (0x8000 ≤ o)

/-- The entries of a register table at TARGET's copied offsets, moved to EW's block, over EW's own. -/
def prepCopy (t : Tbl Word) (n : Nat) : Tbl Word :=
  let src := R.ENGn_CTRL n
  let dst := R.ENGn_CTRL 16
  let mine := fun (base a : Nat) => decide (base ≤ a) && decide (a < base + 0x10000) && !prepKeeps (a - base)
  let kept := t.filter (fun e => !mine dst e.1)
  (t.filter (fun e => mine src e.1)).foldl (fun r e => Tbl.put r (e.1 - src + dst) e.2) kept

/-- EW copies TARGET's registers, palettes and schedules (R172). -/
def State.prep (s : State) (n : Nat) : State :=
  let st := s.engState 16
  let s := { s with regs := prepCopy s.regs n, ovr := prepCopy s.ovr n }
  let s := s.wr (F.ENGn_CTRL.STATE 16) st
  let e := s.engS n
  let s := (s.wr (F.ENGn_Bb_FLIP_STATUS.FRONT 16 0) (s.rd (F.ENGn_Bb_FLIP_STATUS.FRONT n 0))).wr
    (F.ENGn_Bb_FLIP_STATUS.FRONT 16 1) (s.rd (F.ENGn_Bb_FLIP_STATUS.FRONT n 1))
  let s := (s.wr (F.ENGn_Bb_FLIP_STATUS.PENDING 16 0) (s.rd (F.ENGn_Bb_FLIP_STATUS.PENDING n 0))).wr
    (F.ENGn_Bb_FLIP_STATUS.PENDING 16 1) (s.rd (F.ENGn_Bb_FLIP_STATUS.PENDING n 1))
  let s := (s.wrB (F.ENGn_SCHED_STATUS.ACTIVE 16) e.active.isSome).wr (F.ENGn_SCHED_STATUS.LD_STATE 16)
    (if e.ready.isSome then 2 else 0)
  let s := s.wr (F.ENGn_SCHED_ID.ID 16) (match e.active with | some x => x.id | none => 0)
  s.modEng 16 (fun w => { w with pal := e.pal, palHold := e.palHold, active := e.active, ready := e.ready,
                                 commit := e.commit, drop := e.drop, refU := e.refU, refV := e.refV, front := e.front })

/-- EW goes to PREP for an engine, or to IDLE (R171). -/
def State.wardNext (s : State) : State :=
  let s := s.modEng 16 (fun e => { e with live := false })
  match s.nextTarget with
  | some n =>
    let s := ((s.wr F.ENG_WARD_STATUS.WSTATE 1).wr F.ENG_WARD_STATUS.TARGET n).wr F.ENG_WARD_STATUS.FRAMES 0
    (s.modWard (fun w => { w with last := n, run := 0, frameMis := false, confirmed := false, takeover := false })).prep n
  | none => s.wr F.ENG_WARD_STATUS.WSTATE 0

/-- The takeover tick (R174, R175). -/
def State.takeOver (s : State) : State :=
  let n := s.target
  let s := (s.wr F.ENG_WARD_STATUS.WSTATE 3).flag F.ENG_WARD_STATUS.TAKEN 45
  let s := s.hwSetBit F.ENG_WARD_FENCE.FENCE n
  let s := ((s.wr (F.ENGn_CTRL.ENABLE n) 0).wr (F.ENGn_CTRL.STATE n) 0).modEng n (fun e => { e with live := false })
  (s.modWard (fun w => { w with takeover := false, targetFrames := 0, release := false })).fault 0x12 n

/-- The warden at a frame tick (R171-R175). -/
def State.wardTick (s : State) : State :=
  let en := s.on F.ENG_WARD_CTRL.EN
  match s.wstate with
  | 0 => if en then s.wardNext else s
  | 1 =>
    if en then
      let s := (s.wr F.ENG_WARD_STATUS.WSTATE 2).wr F.ENG_WARD_STATUS.FRAMES 0
      s.modEng 16 (fun e => { e with live := true })
    else s.wr F.ENG_WARD_STATUS.WSTATE 0
  | 2 =>
    let s := s.wr F.ENG_WARD_STATUS.FRAMES (min 65535 (s.rd F.ENG_WARD_STATUS.FRAMES + 1))
    if s.ward.takeover then s.takeOver
    else
      let s := s.modWard (fun w => { w with run := if w.frameMis then w.run else 0, frameMis := false
                                            confirmed := w.confirmed && w.frameMis })
      if en then s else (s.modEng 16 (fun e => { e with live := false })).wr F.ENG_WARD_STATUS.WSTATE 0
  | _ =>
    if s.ward.release then (s.modWard (fun w => { w with release := false })).wardNext
    else s.modWard (fun w => { w with targetFrames := if s.engState s.target = 2 then w.targetFrames + 1 else 0 })

/-- WATCH ends after WATCH_N frames, or when TARGET is not RUNNING (R171). -/
def State.watchEnd (s : State) : State :=
  if s.wstate = 2 ∧ (max 1 (s.rd F.ENG_WARD_CTRL.WATCH_N) ≤ s.rd F.ENG_WARD_STATUS.FRAMES ∨ s.engState s.target ≠ 2)
  then s.wardNext else s

/-- The line signatures of EW and TARGET for line `k` are compared once both are taken (R173). -/
def State.wardCompare (s : State) (k : Nat) : State :=
  match Tbl.find (s.engS 16).sigs k, Tbl.find (s.engS s.target).sigs k with
  | some (some a), some (some b) =>
    if a = b then s
    else
      let s := (s.incRc F.ENG_WARD_MISCNT.LINES).flag F.ENG_WARD_STATUS.MISMATCH 45
      if s.ward.frameMis then s
      else (s.modWard (fun w => { w with frameMis := true, run := w.run + 1 })).fault 0x10 s.target
  | some _, some _ => s.incRc F.ENG_WARD_MISCNT.SKIP
  | _, _ => s

/-- The line signature of line `k` of engine `n` is taken in WATCH: none where the line was abandoned, poisoned or
substituted (R173). -/
def State.wardLine (s : State) (n k : Nat) (pix : Option (List Nat)) : State :=
  if s.wstate = 2 ∧ (n = 16 ∨ n = s.target) then
    (s.modEng n (fun e => { e with sigs := Tbl.put e.sigs k (pix.map (fun p => crcOut (sigPixels 0xFFFFFFFF p))) })).wardCompare k
  else s

/-- A mismatch is confirmed (R174). -/
def State.wardConfirm (s : State) : State :=
  if s.wstate = 2 && s.ward.frameMis && !s.ward.confirmed && decide (max 1 (s.rd F.ENG_WARD_CTRL.CONFIRM_N) ≤ s.ward.run) then
    let s := s.modWard (fun w => { w with confirmed := true })
    if s.on F.ENG_WARD_CTRL.TAKEOVER then s.modWard (fun w => { w with takeover := true }) else s.fault 0x11 s.target
  else s

/-- RELEASE (R175). -/
def State.wardRelease (s : State) : State :=
  if s.wstate = 3 ∧ 2 ≤ s.ward.targetFrames then s.modWard (fun w => { w with release := true })
  else s.flag F.ENG_WARD_STATUS.REJECT 45

/-- FENCE bits are cleared (R175). -/
def State.wardFenceClear (s : State) (m : Nat) : State :=
  s.w1cBits F.ENG_WARD_FENCE.FENCE m

end Sys2Proof.Machine
end

