-- ==== Sys2Proof/Machine/Preview.lean ====
section
/-! DEFINITION. The preview outputs DPA and DPB (06 R176-R182). -/

namespace Sys2Proof.Machine

/-- The internal state of preview `n`. -/
def State.pvwS (s : State) (n : Nat) : PvwS := Tbl.get {} s.pvw n
def State.modPvw (s : State) (n : Nat) (f : PvwS → PvwS) : State := { s with pvw := Tbl.put s.pvw n (f (s.pvwS n)) }

/-- A W1C flag of PVWn_STATUS is set (R352). -/
def State.pvwFlag (s : State) (n : Nat) (f : Fld) : State := s.flag f (46 + n)

/-- The DPCD reads that begin training (R182). -/
def State.pvwTrain (s : State) (n : Nat) : State :=
  if s.on (F.PVWn_STATUS.HPD n) then s.emit (.aux n 9 0 16 []) else s

/-- ENABLE is compared with STATE (R53, R182); a preview that starts with HPD high trains at once. -/
def State.pvwFollow (s : State) (n : Nat) : State :=
  let en := s.on (F.PVWn_CTRL.ENABLE n)
  match s.rd (F.PVWn_CTRL.STATE n) with
  | 0 => if en then (s.wr (F.PVWn_CTRL.STATE n) 1).pvwTrain n else s
  | 2 => if en then s else s.wr (F.PVWn_CTRL.STATE n) 3
  | _ => s

/-- A write of ENABLE (R182). -/
def State.pvwEnable (s : State) (n : Nat) (en : Bool) : State := (s.wrB (F.PVWn_CTRL.ENABLE n) en).pvwFollow n

/-- A write of PVWn_CTRL, CROP_SIZE or HTIME with a value outside the limits of R179 is ignored. -/
def State.pvwLimit (s : State) (n o v : Nat) : State :=
  let s1 := s.writeByCode o v
  let ok := decide (s1.rd (F.PVWn_CTRL.SRC n) ≤ 16) &&
    decide (16 ≤ s1.rd (F.PVWn_CROP_SIZE.W n)) && decide (s1.rd (F.PVWn_CROP_SIZE.W n) ≤ 3840) &&
    s1.rd (F.PVWn_CROP_SIZE.W n) % 2 == 0 &&
    decide (16 ≤ s1.rd (F.PVWn_CROP_SIZE.H n)) && decide (s1.rd (F.PVWn_CROP_SIZE.H n) ≤ 2160) &&
    decide (s1.rd (F.PVWn_CROP_SIZE.W n) + s1.rd (F.PVWn_HTIME0.HSYNC n) + s1.rd (F.PVWn_HTIME1.HBP n) + 16 ≤
      s1.rd (F.PVWn_HTIME0.HTOTAL n))
  if ok then s1 else s.pvwFlag n (F.PVWn_STATUS.CFG_REJECT n)

/-- A write of PVWn_CTRL. -/
def State.pvwCtrlWrite (s : State) (n v : Nat) : State := (s.pvwLimit n (R.PVWn_CTRL n) v).pvwFollow n

/-- HPD rises (R182): a preview in STARTING trains at once, one in RUNNING goes on with its retries. -/
def State.hpdPlug (s : State) (n : Nat) : State :=
  let s := (s.wr (F.PVWn_STATUS.HPD n) 1).modPvw n (fun p => { p with hpdLow := none })
  if s.rd (F.PVWn_CTRL.STATE n) = 1 then (s.modPvw n (fun p => { p with retryAt := none })).pvwTrain n else s

/-- HPD falls (R182). -/
def State.hpdLow (s : State) (n : Nat) : State :=
  if s.on (F.PVWn_STATUS.HPD n) then
    (s.wr (F.PVWn_STATUS.HPD n) 0).modPvw n (fun p => { p with hpdLow := some s.now })
  else s

/-- HPD low for more than 2 ms in RUNNING returns the preview to STARTING (R182). -/
def State.hpdLowTimeout (s : State) (n : Nat) : State :=
  match (s.pvwS n).hpdLow with
  | none => s
  | some t =>
    let s := (s.reach (t + 2 * msT + 1)).modPvw n (fun p => { p with hpdLow := none })
    if s.rd (F.PVWn_CTRL.STATE n) = 2 then (s.wr (F.PVWn_CTRL.STATE n) 1).wr (F.PVWn_STATUS.LINKUP n) 0 else s

/-- IRQ_HPD: the link status is read, and the link retrains where it has lost lock; video continues from the next tick
(R182). -/
def State.irqHpd (s : State) (n : Nat) (lockLost : Bool) : State :=
  let s := (s.pvwFlag n (F.PVWn_STATUS.IRQ_HPD n)).emit (.aux n 9 0x202 6 [])
  if lockLost && s.on (F.PVWn_STATUS.LINKUP n)
  then ((s.wr (F.PVWn_STATUS.LINKUP n) 0).pvwTrain n).modPvw n (fun p => { p with idle := true }) else s

/-- Training ends (R182). -/
def State.dpTrainDone (s : State) (n : Nat) (ok : Bool) (rate lanes : Nat) : State :=
  let st := s.rd (F.PVWn_CTRL.STATE n)
  if !s.on (F.PVWn_STATUS.HPD n) || s.on (F.PVWn_STATUS.LINKUP n) || (st != 1 && st != 2) then s
  else if ok then
    let s := ((s.wr (F.PVWn_STATUS.LINKUP n) 1).wr (F.PVWn_STATUS.RATE n) (min rate (s.rd (F.PVWn_CTRL.MAXRATE n)))).wr
      (F.PVWn_STATUS.LANES n) (min lanes (min 2 (s.rd (F.PVWn_CTRL.MAXLANES n))))
    s.modPvw n (fun p => { p with retryAt := none })
  else (s.pvwFlag n (F.PVWn_STATUS.TRAIN_FAIL n)).modPvw n (fun p => { p with retryAt := some (s.now + 100 * msT) })

/-- Training is retried every 100 ms while HPD is high (R182); while it is low the next retry waits another 100 ms. -/
def State.dpTrainRetry (s : State) (n : Nat) : State :=
  match (s.pvwS n).retryAt with
  | none => s
  | some t =>
    let again := if s.on (F.PVWn_STATUS.HPD n) then none else some (t + 100 * msT)
    ((s.reach t).modPvw n (fun p => { p with retryAt := again })).pvwTrain n

/-- A write of PVWn_AUX_CMD; GO starts a transaction unless one is under way (R176). -/
def State.auxGo (s : State) (n v : Nat) : State :=
  let s := s.writeByCode (R.PVWn_AUX_CMD n) v
  if !v.testBit 31 || s.on (F.PVWn_AUX_STATUS.BUSY n) then s
  else
    let len := s.rd (F.PVWn_AUX_CMD.LEN_M1 n) + 1
    let data := (List.range len).map (fun i => bitsOf (s.reg (R.PVWn_AUX_DATAj n (i / 4))) (8 * (i % 4)) 8)
    let req := s.rd (F.PVWn_AUX_CMD.REQ n)
    let s := s.emit (.aux n req (s.rd (F.PVWn_AUX_CMD.ADDR n)) len (if req % 2 = 1 then [] else data))
    (s.wr (F.PVWn_AUX_STATUS.BUSY n) 1).modPvw n (fun p => { p with auxAt := s.now, auxReq := req })

/-- An AUX transaction ends (R176); the bytes of a read reply go into the mailbox. -/
def State.auxDone (s : State) (n result : Nat) (bytes : List Nat) : State :=
  if !s.on (F.PVWn_AUX_STATUS.BUSY n) then s
  else
    let s := if result = 3 then s.reach ((s.pvwS n).auxAt + 400 * usT) else s
    let s := (s.wr (F.PVWn_AUX_STATUS.BUSY n) 0).wr (F.PVWn_AUX_STATUS.RESULT n) result
    let bs := bytes.take 16
    let rd := (s.pvwS n).auxReq % 2 = 1
    let s := s.wr (F.PVWn_AUX_STATUS.COUNT n) bs.length
    if rd then (List.range bs.length).foldl (fun s i =>
      s.wr ⟨R.PVWn_AUX_DATAj n (i / 4), 8 * (i % 4), 8⟩ (bs.getD i 0)) s
    else s

/-! ### The stream -/

/-- The engine whose lines a preview shows: EW while it serves SRC's canvas (R177). -/
def State.pvwEngine (s : State) (n : Nat) : Nat :=
  let src := s.act (F.PVWn_CTRL.SRC n)
  if src = 16 then 16 else if s.served src then 16 else src

/-- The link rate of a trained rate code in Mbit/s (RBR, HBR, HBR2, HBR3 of DisplayPort 1.4a). -/
def dpRate (code : Nat) : Nat := [1620, 2700, 5400, 8100].getD code 1620

/-- The stream's pixel clock and data rate keep the limits of R179. -/
def State.pvwRateOk (s : State) (n : Nat) : Bool :=
  let e := s.pvwEngine n
  let k := s.vpllOf e
  let num := s.act (F.PVWn_HTIME0.HTOTAL n) * s.vclkNow k
  let den := s.hTotal e * (if s.actOn (F.PVWn_CTRL.DECIM n) then 2 else 1)
  let bpc := if s.actOn (F.PVWn_CTRL.BPC n) then 10 else 8
  let lanes := 2 ^ s.rd (F.PVWn_STATUS.LANES n)
  decide (num ≤ 600000000 * den) && decide (num * 3 * bpc * 10 ≤ lanes * dpRate (s.rd (F.PVWn_STATUS.RATE n)) * 8 * 1000000 * den)

/-- The stream pixel clock in Hz (R177), truncated (log 11). -/
def State.pvwClock (s : State) (n : Nat) : Nat :=
  let e := s.pvwEngine n
  let k := s.vpllOf e
  s.act (F.PVWn_HTIME0.HTOTAL n) * s.vclkNow k / (s.hTotal e * (if s.actOn (F.PVWn_CTRL.DECIM n) then 2 else 1))

/-- One of every how many lines and pixels preview `n` keeps (R177). -/
def State.pvwStep (s : State) (n : Nat) : Nat := if s.actOn (F.PVWn_CTRL.DECIM n) then 2 else 1

/-- Sync and back-porch lines of the stream of preview `n` (R177). -/
def State.pvwVert (s : State) (n : Nat) : Nat × Nat :=
  let e := s.pvwEngine n
  (s.act (F.ENGn_VTIME1.V_SYNC e) / s.pvwStep n, (s.act (F.ENGn_VTIME1.V_BP e) + s.act (F.PVWn_CROP_POS.Y n)) / s.pvwStep n)

/-- The stream of preview `n` carries video in this frame. -/
def State.pvwShows (s : State) (n : Nat) : Bool :=
  let st := s.rd (F.PVWn_CTRL.STATE n)
  (st == 2 || st == 3) && !(s.pvwS n).idle

/-- The frame of the stream ends: its front porch has taken what its raster's real length left (R36, R177). -/
def State.pvwPorch (s : State) (n : Nat) : State :=
  if s.pvwShows n then
    let v := s.pvwVert n
    s.emit (.porch n ((s.engS (s.pvwEngine n)).rline / s.pvwStep n - (v.1 + v.2 + s.act (F.PVWn_CROP_SIZE.H n))))
  else s

/-- The stream's attributes and timing for the frame that begins (R177). -/
def State.pvwBegin (s : State) (n : Nat) : State :=
  let v := s.pvwVert n
  (s.emit (.msa n (s.pvwClock n))).emit
    (.timing n (s.act (F.PVWn_HTIME0.HTOTAL n)) (s.act (F.PVWn_HTIME0.HSYNC n)) (s.act (F.PVWn_HTIME1.HBP n))
      (s.act (F.PVWn_CROP_SIZE.W n)) v.1 v.2 (s.act (F.PVWn_CROP_SIZE.H n)))

/-- A preview at a frame tick (R177-R179, R182). -/
def State.pvwTick (s : State) (n : Nat) : State :=
  let s := match s.rd (F.PVWn_CTRL.STATE n) with
    | 1 => if s.on (F.PVWn_STATUS.LINKUP n) then (s.wr (F.PVWn_CTRL.STATE n) 2).pvwFollow n else s
    | 3 => (((s.emit (.dpcd n 0x600 2)).wr (F.PVWn_CTRL.STATE n) 0).wr (F.PVWn_STATUS.LINKUP n) 0).modPvw n
        (fun p => { p with retryAt := none }) |>.pvwFollow n
    | _ => s
  if s.rd (F.PVWn_CTRL.STATE n) ≠ 2 ∧ s.rd (F.PVWn_CTRL.STATE n) ≠ 3 then s
  else if s.act (F.PVWn_CTRL.SRC n) = 16 ∧ s.wstate < 2 then
    (s.emit (.idlePattern n)).modPvw n (fun p => { p with idle := true })
  else if s.pvwRateOk n then
    let s := if s.on (F.PVWn_STATUS.LINKUP n) then s.pvwBegin n else s
    s.modPvw n (fun p => { p with idle := !s.on (F.PVWn_STATUS.LINKUP n) })
  else ((s.pvwFlag n (F.PVWn_STATUS.RATE_ERR n)).emit (.idlePattern n)).modPvw n (fun p => { p with idle := true })

/-- A channel as a preview sends it (R180). -/
def pvwCh (ten : Bool) (c : Nat) : Nat := if ten then min ((c + 2) / 4) 1023 else min ((c + 8) / 16) 255

/-- Preview `n` sends the crop row of source line `k`, if it holds one (R177, R180, R181). -/
def State.pvwRow (s : State) (n k : Nat) (pix : List Nat) (filled : Bool) : State :=
  let y := s.act (F.PVWn_CROP_POS.Y n)
  let d := if s.actOn (F.PVWn_CTRL.DECIM n) then 2 else 1
  let st := s.rd (F.PVWn_CTRL.STATE n)
  if (st ≠ 2 ∧ st ≠ 3) ∨ (s.pvwS n).idle ∨ k < y ∨ (k - y) % d ≠ 0 ∨ s.act (F.PVWn_CROP_SIZE.H n) ≤ (k - y) / d then s
  else
    let ten := s.actOn (F.PVWn_CTRL.BPC n)
    let x := s.act (F.PVWn_CROP_POS.X n)
    let row := (List.range (s.act (F.PVWn_CROP_SIZE.W n))).map (fun i =>
      let (r, g, b) := unpackRgb (pix.getD (x + i * d) 0)
      pvwCh ten r * 2 ^ 20 + pvwCh ten g * 2 ^ 10 + pvwCh ten b)
    let s := s.emit (.video n ((k - y) / d) row)
    if filled then (s.incRc (F.PVWn_FILL_CNT.COUNT n)).pvwFlag n (F.PVWn_STATUS.UNDERFLOW n) else s

/-- Line `k` of engine `e` leaves the previews that show it; `own` is what fills a preview of EW itself (R178). -/
def State.pvwLine (s : State) (e k : Nat) (pix : List Nat) (filled : Bool) (own : Option (List Nat)) : State :=
  (List.range 2).foldl (fun s n =>
    if s.pvwEngine n ≠ e then s
    else match own with
      | some p => if s.act (F.PVWn_CTRL.SRC n) = 16 then s.pvwRow n k p true else s.pvwRow n k pix filled
      | none => s.pvwRow n k pix filled) s

/-- WATCH_END: EW leaves WATCH, and a preview of EW itself sends the idle pattern from then on (R171, R178). -/
def State.watchLeave (s : State) : State :=
  let s1 := s.watchEnd
  if s1.wstate = s.wstate then s1
  else (List.range 2).foldl (fun s n =>
    let st := s.rd (F.PVWn_CTRL.STATE n)
    if s.act (F.PVWn_CTRL.SRC n) = 16 ∧ (st = 2 ∨ st = 3) ∧ (s.pvwS n).idle = false
    then (s.emit (.idlePattern n)).modPvw n (fun p => { p with idle := true }) else s) s1

end Sys2Proof.Machine
end

