-- ==== Sys2Proof/Machine/Tick.lean ====
section
/-! DEFINITION. The tick generator and the genlock loop (01_frame_tick_and_line_budget.md R20-R31, R518). What the
consumers do at a tick stands in FrameTick.lean. -/

namespace Sys2Proof.Machine

/-- The state with the tick generator changed by `f`. -/
def State.modTick (s : State) (f : TickS → TickS) : State := { s with tick := f s.tick }

/-- GLK_STATE: 0 FREE, 1 ACQUIRE, 2 LOCKED, 3 HOLDOVER (R26). -/
def State.glk (s : State) : Nat := s.rd F.ENG_TICK_STATUS.GLK_STATE

/-- GLK_STATE changes, which is an event of source 19 (R352). -/
def State.setGlk (s : State) (g : Nat) : State :=
  if s.glk = g then s else (s.wr F.ENG_TICK_STATUS.GLK_STATE g).irq 19

/-- The loop enters ACQUIRE: the interval history is cleared (R26, R27). -/
def State.acquire (s : State) (oneStep : Bool) : State :=
  let s := s.modTick (fun t => { t with hist := [], lastEdge := none, takenFor := none, edgeSince := false,
                                        framesNoEdge := 0, oneStep := oneStep, phase := 0 })
  let s := if s.running then s else s.modTick (fun t => { t with at_ := none })
  s.setGlk 1

/-- acc as the tick of this cycle finds it: a write of FRAC in the cycle itself clears it after the tick (R18, R22). -/
def State.accTick (s : State) : Nat :=
  match s.tick.accOld with
  | some (t, a) => if t = s.now then a else s.tick.acc
  | none => s.tick.acc

/-- The frame length the tick begins, by the internal generator (R22). -/
def State.genLen (s : State) : Nat × State :=
  let p := s.act F.ENG_TICK_PERIOD.PERIOD
  let num := s.act F.ENG_TICK_FRAC.NUM
  let den := s.act F.ENG_TICK_FRAC.DEN
  let a := s.accTick + num
  let keep := fun (b : Nat) (t : TickS) => { t with acc := if t.accOld.any (fun e => e.1 == s.now) then 0 else b }
  if den ≠ 0 ∧ den ≤ a then (p + 1, s.modTick (keep (a - den))) else (p, s.modTick (keep (a % 2 ^ 16)))

/-- The length of the frame that a tick begins (R22, R26, R27), within the bounds of R30. -/
def State.frameLen (s : State) : Nat × State :=
  match s.glk with
  | 2 =>
    let slew : Int := s.rd F.ENG_GLK_WIN.SLEW
    let l := ((s.rd F.ENG_GLK_PERIOD.PERIOD : Nat) : Int) + clampI (-slew) slew s.tick.phase
    (max 2500000 l.toNat, s)
  | 3 => (max 2500000 (s.rd F.ENG_GLK_PERIOD.PERIOD), s)
  | _ => s.genLen

/-- The sequence of ticks moves on by the tick at `t0`: the next one is placed, edges are accounted for (R27). -/
def State.tickAdvance (s : State) (t0 : Nat) : State :=
  let (len, s) := s.frameLen
  let noEdge := s.glk == 2 && !s.tick.edgeSince
  s.modTick (fun t => { t with
    at_ := some (t0 + len), last := some t0, seq := t.seq + 1, phase := 0, edgeSince := false,
    framesNoEdge := if noEdge then t.framesNoEdge + 1 else 0 })

/-- Truncated mean of a list of intervals. -/
def mean (l : List Nat) : Nat := if l = [] then 0 else l.foldl (· + ·) 0 / l.length

/-- Four intervals qualify for LOCKED: each within WIN of their mean and within the range of R23 (R26). -/
def qualifies (win : Nat) (l : List Nat) : Bool :=
  l.length == 4 && l.all (fun i => decide (2500000 ≤ i) && decide (i ≤ 25025000) &&
    decide (4 * i ≤ l.foldl (· + ·) 0 + 4 * win) && decide (l.foldl (· + ·) 0 ≤ 4 * i + 4 * win))

/-- The first tick of a sequence at `t`, `t + p`, ... that is not before `lo`. -/
def firstAt (t p lo : Nat) : Nat := if lo ≤ t ∨ p = 0 then t else t + (lo - t + p - 1) / p * p

/-- ACQUIRE becomes LOCKED on the edge stamped `te` (R26-R28, R518). Where the aligned tick is the edge's own target the
edge is taken for it; where it is a later target the edges to come are. The frame in which LOCKED is entered has not
passed in LOCKED and does not count toward HOLD_N. -/
def State.lock (s : State) (te : Nat) (four : List Nat) : State :=
  let p := mean four
  let s := (s.wr F.ENG_GLK_PERIOD.PERIOD p).setGlk 2
  let target := te + s.rd F.ENG_GLK_DELAY.DELAY
  if !s.running then
    s.modTick (fun t => { t with hist := four, at_ := some target, last := none, lastEdge := some (te, some (t.seq + 1)),
                                 takenFor := some (t.seq + 1), oneStep := false, framesNoEdge := 0, edgeSince := true })
  else if s.tick.oneStep then
    let lo := max (s.tick.at_.getD 0) (s.tick.last.getD 0 + 2500000)
    let t1 := firstAt target p lo
    let n := if t1 = target then some (s.tick.seq + 1) else none
    s.modTick (fun t => { t with hist := four, at_ := some t1, oneStep := false, lastEdge := some (te, n),
                                 takenFor := n, framesNoEdge := 0, edgeSince := true })
  else s.modTick (fun t => { t with hist := four, lastEdge := some (te, none), takenFor := none, framesNoEdge := 0
                                    edgeSince := true })

/-- The tick expected for a target time (R27): its number and its time; a tie takes the next tick. -/
def State.expected (s : State) (target : Nat) : Option (Nat × Nat) :=
  match s.tick.last, s.tick.at_ with
  | some l, some a =>
    let dl := if l ≤ target then target - l else l - target
    let da := if a ≤ target then target - a else a - target
    if dl < da then some (s.tick.seq, l) else some (s.tick.seq + 1, a)
  | none, some a => some (s.tick.seq + 1, a)
  | _, none => none

/-- An edge of the selected polarity, stamped `te`, reaches the loop (R26-R28). During a wake the loop stays in ACQUIRE
(R518). -/
def State.edge (s : State) (te : Nat) : State :=
  match s.glk with
  | 1 =>
    match s.tick.lastEdge with
    | none => s.modTick (fun t => { t with lastEdge := some (te, none) })
    | some (p, _) =>
      let h := ((te - p) :: s.tick.hist).take 4
      let s := s.modTick (fun t => { t with hist := h, lastEdge := some (te, none) })
      if qualifies (s.rd F.ENG_GLK_WIN.WIN) h && s.boot.sby != 6 then s.lock te h else s
  | 2 =>
    let target := te + s.rd F.ENG_GLK_DELAY.DELAY
    let win := s.rd F.ENG_GLK_WIN.WIN
    let miss := ((s.flag F.ENG_TICK_STATUS.MISS 19).incRc F.ENG_TICK_STATUS.MISS_CNT)
    match s.expected target with
    | none => miss
    | some (num, at_) =>
      if s.tick.takenFor = some num ∨ target + win < at_ ∨ at_ + win < target then miss
      else
        let e : Int := (target : Int) - (at_ : Int)
        let iv := match s.tick.lastEdge with
          | some (p, some m) => if m + 1 = num then some (te - p) else none
          | _ => none
        let h := match iv with
          | some i => (i :: s.tick.hist).take 8
          | none => s.tick.hist
        let s := s.wr F.ENG_GLK_PHASE.ERR (wrapNat 32 e)
        let s := if iv.isSome then s.wr F.ENG_GLK_PERIOD.PERIOD (mean h) else s
        s.modTick (fun t => { t with hist := h, lastEdge := some (te, some num), takenFor := some num, phase := e,
                                     edgeSince := true, framesNoEdge := 0 })
  | 3 => (s.acquire false).modTick (fun t => { t with lastEdge := some (te, none) })
  | _ => s

/-- The level of FSYNC_IN at the pin. -/
def TickS.pinLevel (t : TickS) : Bool := (t.fsPipe.getLast?.map (fun e => e.2)).getD t.fsLevel

/-- FSYNC_IN changes at the pin: the synchroniser's output shows it 3 cycles later, or 3 or 4 where the change falls
within the sampling aperture (R25). -/
def State.fsyncChange (s : State) (level aperture : Bool) : State :=
  if s.tick.pinLevel = level then s
  else
    let (v, s) := if aperture then s.free else (0, s)
    s.modTick (fun t => { t with fsPipe := t.fsPipe ++ [(s.now + 3 + v % 2, level)] })

/-- The level that the glitch filter accepts next, with the cycle in which the synchroniser first showed it, and the
changes still inside: `l` has shown since `since`, `acc` is the accepted level. A level that holds for fewer than `filt`
cycles is ignored (R25). -/
def fsAccept (filt : Nat) (acc : Bool) : List (Nat × Bool) → Bool → Nat → Option (Nat × Bool) × List (Nat × Bool)
  | [], l, since => (if l == acc then none else some (since, l), [])
  | (t, l') :: rest, l, since =>
    if l != acc && decide (max 1 filt ≤ t - since) then (some (since, l), (t, l') :: rest)
    else if l' == l then fsAccept filt acc rest l since
    else fsAccept filt acc rest l' t

/-- The level and the changes that the filter still judges in cycle `now`: a level other than the accepted one that has
gone back within fewer than `filt` cycles has been ignored for good (R25). -/
def fsIgnore (filt now : Nat) (acc : Bool) : List (Nat × Bool) → Bool → Nat → (Bool × Nat) × List (Nat × Bool)
  | [], l, since => ((l, since), [])
  | (t, l') :: rest, l, since =>
    if now < t || (l != acc && decide (max 1 filt ≤ t - since)) then ((l, since), (t, l') :: rest)
    else if l' == l then fsIgnore filt now acc rest l since
    else fsIgnore filt now acc rest l' t

/-- Before FILT changes, the glitches of the cycles so far are ignored by its old value (R25). -/
def State.fsJudge (s : State) : State :=
  let ((l, since), rest) := fsIgnore (s.rd F.ENG_TICK_CTRL.FILT) s.now s.tick.fsAccepted s.tick.fsPipe s.tick.fsLevel
    s.tick.fsChange
  s.modTick (fun t => { t with fsLevel := l, fsChange := since, fsPipe := rest })

/-- The filter accepts a level that has held for FILT cycles; an edge of the selected polarity is stamped at the cycle in
which the synchroniser first showed it (R25). -/
def State.genlockEdge (s : State) : State :=
  let filt := s.rd F.ENG_TICK_CTRL.FILT
  match fsAccept filt s.tick.fsAccepted s.tick.fsPipe s.tick.fsLevel s.tick.fsChange with
  | (none, _) => s
  | (some (te, l), rest) =>
    let s := s.reach (te + filt)
    let s := s.modTick (fun t => { t with fsLevel := l, fsChange := te, fsAccepted := l, fsPipe := rest })
    if l != s.on F.ENG_TICK_CTRL.EDGE && s.on F.ENG_TICK_CTRL.SRC then s.edge te else s

/-- HOLD_N frames without an accepted edge (R26). -/
def State.holdover (s : State) : State :=
  if s.glk = 2 ∧ max 1 (s.rd F.ENG_TICK_CTRL.HOLD_N) ≤ s.tick.framesNoEdge then (s.setGlk 3).fault 0x01 0 else s

/-- The ticks of the unseen sequence that are due up to `t` pass, each with its phase correction (R27, R518); `n` bounds
them. -/
def State.unseenTicks (t : Nat) : Nat → State → State
  | 0, s => s
  | n + 1, s => match s.tick.at_ with
    | some a => if a ≤ t then State.unseenTicks t n (s.tickAdvance a) else s
    | none => s

/-- RUN changes (R24, R518). During a wake a write of RUN = 1 is held (R457). The first tick is the next one of the unseen
sequence that lies at least 1 ECLK after the write. -/
def State.setRun (s : State) (r : Bool) : State :=
  if s.boot.sby = 6 then { s with boot := { s.boot with runHeld := r } }
  else if s.running = r then s
  else
    let s := s.wrB F.ENG_TICK_CTRL.RUN r
    let s := { s with aud := { s.aud with live := false } }
    let held := s.glk == 2 || s.glk == 3
    if r then
      if held && s.tick.at_.isSome then
        s.unseenTicks s.now ((s.now - s.tick.at_.getD s.now) / 2500000 + 1)
      else s.modTick (fun t => { t with at_ := some (s.now + s.act F.ENG_TICK_PERIOD.PERIOD) })
    else if held then s else s.modTick (fun t => { t with at_ := none })

/-- SRC changes (R21, R28). -/
def State.setSrc (s : State) (v : Bool) : State :=
  if s.on F.ENG_TICK_CTRL.SRC = v then s
  else
    let s := s.wrB F.ENG_TICK_CTRL.SRC v
    if v then s.acquire true
    else
      let s := s.setGlk 0
      if s.running then s else s.modTick (fun t => { t with at_ := none })

/-- RESYNC written 1: no effect while SRC = 0 (R28). -/
def State.resync (s : State) : State := if s.on F.ENG_TICK_CTRL.SRC then s.acquire true else s

/-- A write of ENG_TICK_CTRL. -/
def State.tickCtrlWrite (s : State) (v : Nat) : State :=
  let s := s.fsJudge
  let s := s.wrB F.ENG_TICK_CTRL.EDGE (v.testBit 2)
  let s := s.wr F.ENG_TICK_CTRL.FILT (bitsOf v 8 8)
  let s := s.wr F.ENG_TICK_CTRL.HOLD_N (bitsOf v 16 4)
  let was := s.on F.ENG_TICK_CTRL.SRC
  let s := s.setSrc (v.testBit 1)
  let s := if v.testBit 3 && was && v.testBit 1 then s.resync else s
  s.setRun (v.testBit 0)

/-- A refused write of PERIOD or FRAC (R23). -/
def State.tickReject (s : State) : State := s.flag F.ENG_TICK_STATUS.CFG_REJECT 19

/-- A write of ENG_TICK_PERIOD (R23). -/
def State.periodWrite (s : State) (v : Nat) : State :=
  let p := bitsOf v 0 25
  if p < 2500000 ∨ 25025000 < p then s.tickReject else s.writeByCode R.ENG_TICK_PERIOD v

/-- A write of ENG_TICK_FRAC (R22, R23): a change clears acc. -/
def State.fracWrite (s : State) (v : Nat) : State :=
  let den := bitsOf v 0 16
  let num := bitsOf v 16 16
  if den ≠ 0 ∧ den ≤ num then s.tickReject
  else if s.reg R.ENG_TICK_FRAC = v % 2 ^ 32 then s
  else
    let old := if s.tick.accOld.any (fun e => e.1 == s.now) then s.tick.accOld else some (s.now, s.tick.acc)
    (s.writeByCode R.ENG_TICK_FRAC v).modTick (fun t => { t with acc := 0, accOld := old })

/-- A read of ENG_FRAME_CNT_LO latches bits [47:32] into HI; in the tick cycle it returns the count before the increment
(R31). -/
def State.frameCntRead (s : State) : Nat × State :=
  let c := if s.tick.cntAt = some s.now then (s.tick.frameCnt + 2 ^ 48 - 1) % 2 ^ 48 else s.tick.frameCnt
  (c % 2 ^ 32, s.wr F.ENG_FRAME_CNT_HI.COUNT_HI (c / 2 ^ 32))

end Sys2Proof.Machine
end

