-- ==== Sys2Proof/Machine/EngineCmd.lean ====
section
/-! DEFINITION. The commands of the tick generator, the video PLLs, the engines, schedules and line lists, palettes,
objects, flips, the output LUT, polders, the warden and the previews (chapters 01-06), but for FRAME_TICK,
LINE_TICK, COMPOSE_START and LINE_COMPLETE. -/

namespace Sys2Proof.Machine

/-! ### Tick generator and genlock -/

/-- FSYNC_IN_CHANGE (R25). -/
def execFsyncInChange (change : FsyncChange) (s : State) : Host.Outcome State Fault Refusal :=
  done (s.fsyncChange change.level change.aperture)

/-- GENLOCK_EDGE (R25-R28, R518). -/
def execGenlockEdge (s : State) : Host.Outcome State Fault Refusal := done s.genlockEdge

/-- GENLOCK_HOLDOVER (R26). -/
def execGenlockHoldover (s : State) : Host.Outcome State Fault Refusal := done s.holdover


/-- TICK_SRC (R21, R28). -/
def execTickSrc (src : Bool) (s : State) : Host.Outcome State Fault Refusal := done (s.setSrc src)

/-- RESYNC (R28). -/
def execResync (s : State) : Host.Outcome State Fault Refusal := done s.resync

/-- TICK_PERIOD_WRITE (R22, R23): a write of PERIOD, or of FRAC. -/
def execTickPeriodWrite (frac : Bool) (v : Nat) (s : State) : Host.Outcome State Fault Refusal :=
  done (if frac then s.fracWrite v else s.periodWrite v)

/-! ### Video PLLs and engines -/

/-- VPLL_LOCK (R38). -/
def execVpllLock (k : Nat) (s : State) : Host.Outcome State Fault Refusal := done (s.vpllLock k)

/-- VPLL_UNLOCK (R40). -/
def execVpllUnlock (k : Nat) (s : State) : Host.Outcome State Fault Refusal := done (s.vpllUnlock k)

/-- VPLL_MULT_WRITE (R38, R39). -/
def execVpllMultWrite (k v : Nat) (s : State) : Host.Outcome State Fault Refusal := done (s.vpllMultWrite k v)

/-- VPLL_CTRL_WRITE (R38, R39, R519). -/
def execVpllCtrlWrite (k v : Nat) (s : State) : Host.Outcome State Fault Refusal := done (s.vpllCtrlWrite k v)

/-- A write of ENGn_CTRL; EW takes the fields that TARGET has accepted (R172). -/
def State.engWrite (s : State) (n v : Nat) : State :=
  let s1 := s.engCtrlWrite n v
  if s.shadows n then
    (s1.writeByCode (R.ENGn_CTRL 16)
      (putBits (putBits v 12 2 (s1.rd (F.ENGn_CTRL.VPLL n))) 0 1 (s1.rd (F.ENGn_CTRL.ENABLE n)))).trackEval 16
  else s1

/-- A raster write, and what EW takes of it (R37, R172). -/
def State.rasterPut (s : State) (n r v : Nat) : State :=
  s.mirrorIf n (s.rasterTakes n r v) (fun i s => if i = n then s.rasterWrite n r v else s.writeByCode (rasterAt i r) v)

/-- ENGINE_ENABLE (R39, R53, R54, R175): a write of ENGn_CTRL. -/
def execEngineEnable (n v : Nat) (s : State) : Host.Outcome State Fault Refusal := done (s.engWrite n v)

/-- RASTER_WRITE (R37): word 0 HTIME0, 1 HTIME1, 2 VTIME0, 3 VTIME1. -/
def execRasterWrite (n r v : Nat) (s : State) : Host.Outcome State Fault Refusal :=
  done (s.rasterPut n r v)

/-- SPILL_RELAX (R52). -/
def execSpillRelax (n : Nat) (s : State) : Host.Outcome State Fault Refusal := done (s.spillRelax n)

/-! ### Schedules -/

/-- EW holds the schedules that TARGET holds (R172). -/
def State.schedMirror (s : State) (n : Nat) : State :=
  if n < 16 && s.wstate != 0 && s.target == n then
    let e := s.engS n
    let same := (s.engS 16).active == e.active
    let s := s.modEng 16 (fun w => { w with ready := e.ready, commit := e.commit, drop := e.drop })
    let s := s.wr (F.ENGn_SCHED_STATUS.LD_STATE 16) (if e.ready.isSome then 2 else 0)
    if same then s else s.setActive 16 e.active
  else s

/-- A write of ENGn_SCHED_CTRL and what EW takes of it. -/
def State.schedWrite (s : State) (n v : Nat) : State := (s.schedCtrlWrite n v).schedMirror n

/-- SCHED_LOAD (R57, R58). -/
def execSchedLoad (n : Nat) (s : State) : Host.Outcome State Fault Refusal := done ((s.schedLoad n).schedMirror n)

/-- SCHED_COMMIT (R57, R58). -/
def execSchedCommit (n : Nat) (s : State) : Host.Outcome State Fault Refusal := done ((s.schedCommit n).schedMirror n)

/-- SCHED_DROP (R57, R58). -/
def execSchedDrop (n : Nat) (s : State) : Host.Outcome State Fault Refusal := done ((s.schedDrop n).schedMirror n)

/-- SCHED_CHECK_DONE (R58-R61). -/
def execSchedCheckDone (n : Nat) (s : State) : Host.Outcome State Fault Refusal :=
  done ((s.schedCheckDone n).schedMirror n)

/-! ### Line lists (R64-R70, R520) -/

/-- LL_END. -/
def execLlEnd (n : Nat) (s : State) : Host.Outcome State Fault Refusal := done (s.llStop n)

/-- LL_LINE. -/
def execLlLine (n k : Nat) (s : State) : Host.Outcome State Fault Refusal :=
  done (s.llStep n (fun w _ => opIs 1 w && bitsOf w 32 13 == k) (fun _ s => s.llLine n k))

/-- LL_WREG. -/
def execLlWreg (n off v : Nat) (s : State) : Host.Outcome State Fault Refusal := done (s.llBind n (.wreg off v))

/-- LL_WBLK. -/
def execLlWblk (n off : Nat) (vals : List Nat) (s : State) : Host.Outcome State Fault Refusal :=
  done (s.llBind n (.wblk off vals))

/-- LL_PAL. -/
def execLlPal (n p first cnt addr : Nat) (s : State) : Host.Outcome State Fault Refusal :=
  done (s.llBind n (.pal p first cnt addr))

/-- LL_SCROLL. -/
def execLlScroll (n t : Nat) (wx wy : Bool) (x y : Nat) (s : State) : Host.Outcome State Fault Refusal :=
  done (s.llBind n (.scroll t wx wy x y))

/-- LL_AFFINE. -/
def execLlAffine (n t a b c d x0 y0 : Nat) (s : State) : Host.Outcome State Fault Refusal :=
  done (s.llBind n (.affine t a b c d x0 y0))

/-- LL_ORDER. -/
def execLlOrder (n j : Nat) (s : State) : Host.Outcome State Fault Refusal := done (s.llBind n (.order j))

/-- The word is an SND of action `a` to `voice` (R65). -/
def sndIs (a voice w : Nat) : Bool := opIs 8 w && bitsOf w 41 3 == a && bitsOf w 32 9 == voice

/-- An SND word is read and bound to its line. -/
def State.llSnd (s : State) (n a voice : Nat) : State :=
  s.llStep n (fun w _ => sndIs a voice w) (fun w s => s.llPut n (.snd voice a (bitsOf w 0 16)))

/-- A start is bound to its line, and its preset is to be read ahead (R307). Voices 384-511 have no effect (R520). -/
def State.llSndOn (s : State) (n voice preset : Nat) : State :=
  s.llStep n (fun w _ => sndIs 0 voice w && bitsOf w 0 16 == preset) (fun _ s =>
    match (s.engS n).llLine with
    | none => s
    | some k =>
      let s := s.llPut n (.snd voice 0 preset)
      if voice < 384 then s.sndAhead n k voice preset else s)

/-- LL_SND_START: it fires at the line tick of its line (R34). -/
def execLlSndStart (n voice preset : Nat) (s : State) : Host.Outcome State Fault Refusal :=
  done (s.llSndOn n voice preset)

/-- LL_SND_RELEASE. -/
def execLlSndRelease (n voice : Nat) (s : State) : Host.Outcome State Fault Refusal := done (s.llSnd n 1 voice)

/-- LL_SND_STOP. -/
def execLlSndStop (n voice : Nat) (s : State) : Host.Outcome State Fault Refusal := done (s.llSnd n 2 voice)

/-- LL_SIG: it fires at the line tick of its line (R34). -/
def execLlSig (n j : Nat) (s : State) : Host.Outcome State Fault Refusal := done (s.llBind n (.sig j))

/-- LL_WAITX. -/
def execLlWaitx (n x : Nat) (s : State) : Host.Outcome State Fault Refusal :=
  done (s.llStep n (fun w _ => opIs 10 w && bitsOf w 32 14 == x) (fun _ s => s.llWaitx n x))

/-- The word has no effect beyond its cost: NOP, a reserved opcode, an SND of a reserved action (R520). -/
def nopIs (w : Nat) : Bool := Nat.ble 11 (bitsOf w 60 4) || (opIs 8 w && Nat.ble 3 (bitsOf w 41 3))

/-- LL_NOP. -/
def execLlNop (n : Nat) (s : State) : Host.Outcome State Fault Refusal :=
  done (s.llStep n (fun w _ => nopIs w) (fun _ s => s))

/-- LL_READ_ERROR (R70, R278). -/
def execLlReadError (n cause : Nat) (s : State) : Host.Outcome State Fault Refusal := done (s.llReadError n cause)

/-- A fetch at `a` for line `k`, not yet output, fails (R49, R102, R142). -/
def State.fetchPoison (s : State) (n k cause a : Nat) : State :=
  let e := s.engS n
  if e.live ∧ e.linesOut ≤ k ∧ k < s.vActive n then (s.fetchErr cause a n).poisonLine n k else s

/-- FETCH_POISON (R49, R102, R142). -/
def execFetchPoison (n k : Nat) (e : BadFetch) (s : State) : Host.Outcome State Fault Refusal :=
  done (s.fetchPoison n k e.cause e.addr)

/-! ### Palettes and caches -/

/-- The palette entry PAL_ADDR names (R85). -/
def State.palKey (s : State) (n : Nat) : Nat := 256 * s.rd (F.ENGn_PAL_ADDR.PAL n) + s.rd (F.ENGn_PAL_ADDR.ENTRY n)

/-- ENTRY advances under AINC. -/
def State.palNext (s : State) (n : Nat) : State :=
  if s.on (F.ENGn_PAL_ADDR.AINC n) then s.incWrap (F.ENGn_PAL_ADDR.ENTRY n) else s

/-- A write of PAL_DATA0: the write hold. -/
def State.palData0Write (s : State) (n v : Nat) : State := s.modEng n (fun e => { e with palHold := v % 2 ^ 32 })

/-- A read of PAL_DATA0: the low bits; the high bits are latched. -/
def State.palData0Read (s : State) (n : Nat) : Nat × State :=
  let s := (s.arrRead n (· == .pal n (s.palKey n))).2
  let v := Tbl.get 0 (s.engS n).pal (s.palKey n)
  (bitsOf v 0 32, s.modEng n (fun e => { e with palLatch := bitsOf v 32 16 }))

/-- A write of PAL_DATA1: the entry is stored. Pixels composed after it use it, and a PAL command of the same cycle does
not replace it (R87). -/
def State.palData1Write (s : State) (n v : Nat) : State :=
  let s := ((s.compTouch n).arrive 9 (16384 * n + s.palKey n)).arrStore (· == .pal n (s.palKey n))
  (s.modEng n (fun e => { e with pal := Tbl.set 0 e.pal (s.palKey n) ((v % 65536) * 2 ^ 32 + e.palHold) })).palNext n

/-- A read of PAL_DATA1: the read latch. ENTRY advances in EW as in TARGET (log 54). -/
def State.palData1Read (s : State) (n : Nat) : Nat × State :=
  ((s.engS n).palLatch, s.mirror n (fun i s => s.palNext i))

/-- PAL_DATA0_WRITE (R85). -/
def execPalData0Write (n v : Nat) (s : State) : Host.Outcome State Fault Refusal :=
  done (s.mirror n (fun i s => s.palData0Write i v))

/-- PAL_DATA0_READ (R85). -/
def execPalData0Read (n : Nat) (s : State) : Host.Outcome State Fault Refusal := done (State.answer (s.palData0Read n))

/-- PAL_DATA1_WRITE (R85, R87). -/
def execPalData1Write (n v : Nat) (s : State) : Host.Outcome State Fault Refusal :=
  done (s.mirror n (fun i s => s.palData1Write i v))

/-- PAL_DATA1_READ (R85). -/
def execPalData1Read (n : Nat) (s : State) : Host.Outcome State Fault Refusal := done (State.answer (s.palData1Read n))

/-- TC_CTRL.INV, OC_CTRL.INV (R100, R126). -/
def State.tcInvalidate (s : State) (n : Nat) : State := s.modEng n (fun e => { e with tcInv := true })
def State.ocInvalidate (s : State) (n : Nat) : State := s.modEng n (fun e => { e with ocInv := true })

/-- TC_INVALIDATE (R100). -/
def execTcInvalidate (n : Nat) (s : State) : Host.Outcome State Fault Refusal :=
  done (s.mirror n (fun i s => s.tcInvalidate i))

/-- OC_INVALIDATE (R126). -/
def execOcInvalidate (n : Nat) (s : State) : Host.Outcome State Fault Refusal :=
  done (s.mirror n (fun i s => s.ocInvalidate i))

/-! ### Objects -/

/-- OBJ_POOL_WRITE (R107). -/
def execObjPoolWrite (i w v : Nat) (s : State) : Host.Outcome State Fault Refusal := done (s.objPoolWrite i w v)

/-- OBJ_LOAD_START (R108). -/
def execObjLoadStart (first countM1 : Nat) (s : State) : Host.Outcome State Fault Refusal :=
  done (s.objLoadStart first countM1)

/-- OBJ_LOAD_WRITE (R108). -/
def execObjLoadWrite (s : State) : Host.Outcome State Fault Refusal := done s.objLoadStep

/-- OBJ_LOAD_ERROR (R111, R278). -/
def execObjLoadError (cause : Nat) (s : State) : Host.Outcome State Fault Refusal := done (s.objLoadError cause)

/-- OBJ_DISCARD (R111). -/
def execObjDiscard (s : State) : Host.Outcome State Fault Refusal := done s.objDiscard

/-- OBJ_LINE_START (R121). -/
def execObjLineStart (n : Nat) (s : State) : Host.Outcome State Fault Refusal := done (s.objLineStart n)

/-! ### Flips (R143-R145) -/

/-- The line that composition has opened in this cycle, of which it has no pixel yet, takes the bitmap geometry anew. -/
def State.geoAgain (s : State) (n : Nat) : State :=
  s.modEng n (fun e => { e with cmp := e.cmp.map (fun c =>
    if c.x = 0 ∧ c.t0 = s.now then { c with geo := (List.range 2).map (s.bmpGeo n) } else c) })

/-- A CANCEL in the tick's own cycle acts before the test (R144): a flip that this tick made is taken back, and so is what
the line opened in the cycle had of it. -/
def State.flipUndo (s : State) (n b : Nat) : State :=
  let j := 2 * n + b
  if !s.arrived 8 j && !s.arrived 10 j then s
  else
    let back := 1 - s.rd (F.ENGn_Bb_FLIP_STATUS.FRONT n b)
    let was := s.arrived 10 j
    let s := s.wr (F.ENGn_Bb_FLIP_STATUS.FRONT n b) back
    let s := (s.modEng n (fun e => { e with front := setBitN e.front b (back == 1) })).geoAgain n
    ((s.flagBack (F.ENGn_Bb_FLIP_STATUS.FLIPPED n b) (n + 1) was).depart 8 j).depart 10 j

/-- A CANCEL in the tick's own cycle takes back the FLIP_STALL of the deferral that this tick made (R144, R145). -/
def State.stallUndo (s : State) (n b : Nat) : State :=
  let j := 2 * n + b
  let s := if s.tick.cntAt = some s.now then s.modEng n (fun e => { e with stallDue := setBitN e.stallDue b false }) else s
  if !s.arrived 16 j && !s.arrived 17 j then s
  else
    let was := s.arrived 17 j
    let s := (s.flagBack (F.ENGn_Bb_FLIP_STATUS.STALL n b) (n + 1) was).faultBack (0x0D, j)
    (s.depart 16 j).depart 17 j

/-- A write of ENGn_Bb_FLIP: REQ wins over CANCEL (R143, R144). A REQ while one is pending stands for the next tick, whatever
a tick of its own cycle does with the old request. CANCEL clears DEFER with PENDING, a choice of the model (log 84). -/
def State.flipWrite (s : State) (n b v : Nat) : State :=
  let o := R.ENGn_Bb_FLIP n b
  let s := (s.rwsNote o (s.reg o)).wr (F.ENGn_Bb_FLIP.FENCE n b) v
  if v.testBit 6 then
    if s.on (F.ENGn_Bb_FLIP_STATUS.PENDING n b) then s.arrive 15 (2 * n + b)
    else ((s.wr (F.ENGn_Bb_FLIP_STATUS.PENDING n b) 1).modEng n (fun e => { e with stallRaised := setBitN e.stallRaised b false })).arrive
      2 (2 * n + b)
  else if v.testBit 7 then
    let s := ((s.flipUndo n b).stallUndo n b).depart 15 (2 * n + b)
    (s.wr (F.ENGn_Bb_FLIP_STATUS.PENDING n b) 0).wr (F.ENGn_Bb_FLIP_STATUS.DEFER n b) 0
  else s

/-- A write of ENGn_Bb_FLIP_VAL: the tick of its own cycle meets the value before (R143). -/
def State.flipValWrite (s : State) (n b v : Nat) : State :=
  let o := R.ENGn_Bb_FLIP_VAL n b
  (s.rwsNote o (s.reg o)).writeByCode o v

/-- The flip of one plane in the tick cycle (R143). A REQ of the cycle begins a new request (R144). -/
def State.flipNow (s : State) (n b : Nat) : State :=
  let s := s.arrive (if s.on (F.ENGn_Bb_FLIP_STATUS.FLIPPED n b) then 10 else 8) (2 * n + b)
  let s := s.wr (F.ENGn_Bb_FLIP_STATUS.FRONT n b) (1 - s.rd (F.ENGn_Bb_FLIP_STATUS.FRONT n b))
  let again := s.arrived 15 (2 * n + b)
  let s := if again then s.modEng n (fun e => { e with stallRaised := setBitN e.stallRaised b false }) else s
  let s := (s.wrB (F.ENGn_Bb_FLIP_STATUS.PENDING n b) again).wr (F.ENGn_Bb_FLIP_STATUS.DEFER n b) 0
  s.flag (F.ENGn_Bb_FLIP_STATUS.FLIPPED n b) (n + 1)

/-- A deferral; STALL_N is read as it stands there (R145). -/
def State.flipDefer (s : State) (n b : Nat) : State :=
  let s := s.inc (F.ENGn_Bb_FLIP_STATUS.DEFER n b)
  let sn := s.rd (F.ENGn_FLIP_STALL.STALL_N n)
  let due := sn != 0 && decide (sn ≤ s.rd (F.ENGn_Bb_FLIP_STATUS.DEFER n b)) && !(s.engS n).stallRaised.testBit b
  s.modEng n (fun e => { e with stallDue := setBitN e.stallDue b due })

/-- The test of one plane at the tick, on the request and the fence counter as they stood in the cycle before; a request
of the tick's own cycle waits for the next tick (R143, R144). -/
def State.flipTick (s : State) (n b : Nat) : State :=
  if !s.on (F.ENGn_Bb_FLIP_STATUS.PENDING n b) || s.arrived 2 (2 * n + b) then s
  else
    let f := bitsOf (s.wordBefore (R.ENGn_Bb_FLIP n b)) 0 6
    let fence := s.wordBefore (R.BLT_FENCEf f)
    let ready := decide (0 ≤ sext 32 (fence + 2 ^ 32 - s.wordBefore (R.ENGn_Bb_FLIP_VAL n b)))
    if ready then s.flipNow n b else s.flipDefer n b

/-- FLIP_REQ (R143, R144): a write of ENGn_Bb_FLIP with REQ = 1. -/
def execFlipReq (n b v : Nat) (s : State) : Host.Outcome State Fault Refusal :=
  done (s.mirror n (fun i s => s.flipWrite i b (putBits v 6 1 1)))

/-- FLIP_CANCEL (R144). -/
def execFlipCancel (n b : Nat) (s : State) : Host.Outcome State Fault Refusal :=
  done (s.mirror n (fun i s => s.flipWrite i b (putBits (s.rd (F.ENGn_Bb_FLIP.FENCE i b)) 7 1 1)))

/-- FLIP_STALL is raised for a deferral that calls for it, once per request (R145). -/
def State.flipStall (s : State) (n b : Nat) : State :=
  if (s.engS n).stallDue.testBit b then
    let s := s.modEng n (fun e => { e with stallRaised := setBitN e.stallRaised b true, stallDue := setBitN e.stallDue b false })
    let s := s.arrive (if s.on (F.ENGn_Bb_FLIP_STATUS.STALL n b) then 17 else 16) (2 * n + b)
    (s.flag (F.ENGn_Bb_FLIP_STATUS.STALL n b) (n + 1)).fault 0x0D (2 * n + b)
  else s

/-- FLIP_STALL (R145). -/
def execFlipStall (n b : Nat) (s : State) : Host.Outcome State Fault Refusal := done (s.flipStall n b)

/-! ### Output LUT, polders, warden, previews -/

/-- LUT_DATA0_WRITE (R148). -/
def execLutData0Write (p v : Nat) (s : State) : Host.Outcome State Fault Refusal := done (s.lutData0Write p v)

/-- LUT_DATA0_READ (R148). -/
def execLutData0Read (p : Nat) (s : State) : Host.Outcome State Fault Refusal := done (State.answer (s.lutData0Read p))

/-- LUT_DATA1_WRITE (R148). -/
def execLutData1Write (p v : Nat) (s : State) : Host.Outcome State Fault Refusal := done (s.lutData1Write p v)

/-- LUT_DATA1_READ (R148). -/
def execLutData1Read (p : Nat) (s : State) : Host.Outcome State Fault Refusal := done (State.answer (s.lutData1Read p))

/-- PLD_TBL_WRITE (R152, R158). -/
def execPldTblWrite (b i w v : Nat) (s : State) : Host.Outcome State Fault Refusal := done (s.pldTblWrite b i w v)

/-- PLD_CHECK (R158). -/
def execPldCheck (s : State) : Host.Outcome State Fault Refusal := done s.pldCheck

/-- PLD_CHECK_DONE (R158, R159). -/
def execPldCheckDone (s : State) : Host.Outcome State Fault Refusal := done s.pldCheckDone

/-- PLD_REFRESH_ALL (R170). -/
def execPldRefreshAll (s : State) : Host.Outcome State Fault Refusal :=
  done { s with pld := { s.pld with refresh := true } }

/-- POLDER_FREEZE (R168). -/
def execPolderFreeze (i : Nat) (s : State) : Host.Outcome State Fault Refusal := done (s.polderFreeze i)

/-- STATIC_ENTER (R169). -/
def execStaticEnter (i : Nat) (s : State) : Host.Outcome State Fault Refusal := done (s.staticEnter i)

/-- STATIC_REFRESH (R169). -/
def execStaticRefresh (i : Nat) (s : State) : Host.Outcome State Fault Refusal := done (s.staticRefresh i)

/-- WARD_ENABLE (R171). -/
def execWardEnable (en : Bool) (s : State) : Host.Outcome State Fault Refusal := done (s.wrB F.ENG_WARD_CTRL.EN en)

/-- WATCH_END (R171). -/
def execWatchEnd (s : State) : Host.Outcome State Fault Refusal := done s.watchLeave

/-- WARDEN_CONFIRM (R174). -/
def execWardenConfirm (s : State) : Host.Outcome State Fault Refusal := done s.wardConfirm

/-- WARD_RELEASE (R175). -/
def execWardRelease (s : State) : Host.Outcome State Fault Refusal := done s.wardRelease

/-- WARD_FENCE_CLEAR (R175). -/
def execWardFenceClear (mask : Nat) (s : State) : Host.Outcome State Fault Refusal := done (s.wardFenceClear mask)

/-- PVW_ENABLE (R182). -/
def execPvwEnable (n : Nat) (en : Bool) (s : State) : Host.Outcome State Fault Refusal := done (s.pvwEnable n en)

/-- HPD_PLUG (R182). -/
def execHpdPlug (n : Nat) (s : State) : Host.Outcome State Fault Refusal := done (s.hpdPlug n)

/-- HPD_LOW (R182). -/
def execHpdLow (n : Nat) (s : State) : Host.Outcome State Fault Refusal := done (s.hpdLow n)

/-- HPD_LOW_TIMEOUT (R182). -/
def execHpdLowTimeout (n : Nat) (s : State) : Host.Outcome State Fault Refusal := done (s.hpdLowTimeout n)

/-- IRQ_HPD (R182). -/
def execIrqHpd (n : Nat) (lockLost : Bool) (s : State) : Host.Outcome State Fault Refusal := done (s.irqHpd n lockLost)

/-- DP_TRAIN_DONE (R182). -/
def execDpTrainDone (n : Nat) (ok : Bool) (rate lanes : Nat) (s : State) : Host.Outcome State Fault Refusal :=
  done (s.dpTrainDone n ok rate lanes)

/-- DP_TRAIN_RETRY (R182). -/
def execDpTrainRetry (n : Nat) (s : State) : Host.Outcome State Fault Refusal := done (s.dpTrainRetry n)

/-- AUX_GO (R176): a write of PVWn_AUX_CMD. -/
def execAuxGo (n v : Nat) (s : State) : Host.Outcome State Fault Refusal := done (s.auxGo n v)

/-- AUX_DONE (R176). -/
def execAuxDone (n result : Nat) (bytes : List Nat) (s : State) : Host.Outcome State Fault Refusal :=
  done (s.auxDone n result bytes)

end Sys2Proof.Machine
end

