-- ==== Sys2Proof/Machine/LineFlow.lean ====
section
/-! DEFINITION. The flow of lines through an engine: composition starts and ends, deadlines, the dike, the output of
lines, and the idle engine (01 R35-R52, 04 R121-R123, 06 R155-R181). -/

namespace Sys2Proof.Machine

/-- BERM: 0 acts as 1, values above 16 as 16 (R44). -/
def State.berm (s : State) (n : Nat) : Nat := clampN 1 16 (s.act (F.ENGn_CTRL.BERM n))

/-- The composer of engine `n` waits at pixel 0 of its line, for the object unit (R121) or for the line's commands (R69). -/
def State.compWaits (s : State) (n : Nat) : Bool :=
  let e := s.engS n
  match e.comp with
  | some r => e.cmp.isNone && ((e.active.isSome && !e.objDone.contains r.k) || !s.llPast n r.k)
  | none => false

/-- The composer passes pixel 0 of its line, once nothing holds it there (R121, R129). -/
def State.compRun (s : State) (n : Nat) : State :=
  match (s.engS n).comp with
  | none => s
  | some r =>
    if (s.engS n).cmp.isSome ∨ s.compWaits n then s
    else (s.lineOpen n r.k).getD s

/-- Composition of the next line starts, the caches invalidated where INV was written (R44, R100). -/
def State.composeStart (s : State) (n : Nat) : State :=
  let e := s.engS n
  let k := e.nextLine
  if !e.live || e.comp.isSome || decide (s.vActive n ≤ k) || decide (e.rline ≤ s.rasterOf n k - s.berm n) then s
  else ((s.bltTo.tcSync n).modEng n (fun e => { e with comp := some { k := k }, compT := s.now })).compRun n

/-- The composer, where it waited for the object unit's line, goes on (R121). -/
def State.objRelease (s : State) (n : Nat) (waits : Bool) : State :=
  if waits && (match (s.engS n).comp with | some r => (s.engS n).objDone.contains r.k | none => false) then
    (s.modEng n (fun e => { e with objWait := e.objWait + (s.now - e.compT) })).compRun n
  else s

/-- The composer waits at pixel 0 for the object unit. -/
def State.objHolds (s : State) (n : Nat) : Bool :=
  let e := s.engS n
  match e.comp with
  | some r => e.cmp.isNone && e.active.isSome && !e.objDone.contains r.k
  | none => false

/-- The object unit completes its line; the composer that waited for it goes on (R121). -/
def State.objLineDone (s : State) (n : Nat) : State := (s.objLineEnd n).objRelease n (s.objHolds n)

/-- OBJ_SOURCE_POISON: a source or descriptor fetch at `a` for the line in work fails; the line is poisoned and the object
unit is done with it (R127). -/
def State.objPoison (s : State) (n cause a : Nat) : State :=
  match (s.engS n).objWork with
  | none => s
  | some k => (((s.fetchErr cause a n).poisonLine n k).objLeave n k).objRelease n (s.objHolds n)

/-- The excess of a line's composition time over its LINE_COST is tracked (R74). -/
def State.costTrack (s : State) (n k : Nat) : State :=
  let e := s.engS n
  match e.active with
  | none => s
  | some sc =>
    let cost := match sc.bands[k / 16]? with
      | some b => b.cost.getD (k % 16) 0
      | none => 0
    let excess := min 65535 ((s.now - e.compT) - cost)
    if e.costOver < excess then s.modEng n (fun e => { e with costOver := excess, costLine := k }) else s

/-- The composer is done with line `k`: the affine accumulators step, the next line may start (R44, R94). -/
def State.lineLeave (s : State) (n k : Nat) : State :=
  ((s.llDone n k).affStep n).modEng n (fun e => { e with comp := none, cmp := none, nextLine := k + 1 })

/-- The earliest end of a line's composition: the handover and its pixels, 2 per ECLK, or 1 where an affine step is 2.0 or
more, after pixel 0 (R43, R96, R121). -/
def State.lineFloor (s : State) (n : Nat) (c : CompS) : Nat :=
  c.t0 + 16 + (if c.slow then s.hActive n else (s.hActive n + 1) / 2)

/-- A composed line: poisoned or not, it joins the line FIFO; the frame store takes it unless it is poisoned (R44, R46, R49,
R52, R163). -/
def State.lineEnd (s : State) (n k : Nat) (c : CompS) : State :=
  let s := s.reach (s.lineFloor n c)
  let due := (s.engS n).tStart + s.lineTime n (s.rasterOf n k)
  let slack := min 65535 (due - s.now)
  let s := if c.bad then s.poisonLine n k else s
  let bad := (s.engS n).poison.contains k
  let pix := c.acc.reverse
  let s := (s.wr (F.ENGn_SLACK.LAST n) slack).costTrack n k
  let s := s.modEng n (fun e => { e with
    slackMin := some (min (e.slackMin.getD slack) slack)
    fifo := e.fifo ++ [{ k, pix, poisoned := bad, tDone := s.now }] })
  let s := s.arrStore (fun w => match w with
    | .line m j _ => m == n && j == k
    | _ => false)
  let s := if bad then s else s.fsWrite n k pix false
  (s.lineLeave n k).spillLine n slack false

/-- LINE_COMPLETE: composition of the line ends, once it has come to its last pixel. -/
def State.lineComplete (s : State) (n : Nat) : State :=
  match (s.engS n).comp with
  | none => s
  | some r =>
    let s := (s.compRun n).lineGo n r.k (s.hActive n)
    match (s.engS n).cmp with
    | none => s
    | some c => if c.x < s.hActive n then s else s.lineEnd n r.k c

/-- Commands in list order, each as far as the HBM answers. True: an error. -/
def State.llApplyAny (s : State) (n : Nat) (seg0 : Bool) (cs : List LlCmd) : Bool × State :=
  cs.foldl (fun r c =>
    let (b, s) := (r.2.llApply n seg0 c).getD (false, r.2)
    (r.1 || b, s)) (false, s)

/-- The commands bound to line `k` have taken effect although its composition is abandoned, its affine tables as well (R51,
R97). An error that the line has met poisons it (R49, R87). -/
def State.itemsApply (s : State) (n k : Nat) : State :=
  let c0 := (s.engS n).cmp
  let (b0, s) := match c0 with
    | some _ => (false, s)
    | none => match s.linePre n k (s.ladderAt n (s.level n)) with
      | some (p, s) => (p.1, s)
      | none => s.llApplyAny n true ((s.engS n).itemsAt k 0)
  let segs := match (s.engS n).cmp with
    | some c => c.segs
    | none => (s.engS n).segStarts k |>.drop 1
  let (b1, s) := segs.foldl (fun (r : Bool × State) x =>
    let (b, s) := r.2.llApplyAny n false ((r.2.engS n).itemsAt k x)
    (r.1 || b, s)) (false, s)
  let bad := match (s.engS n).cmp with
    | some c => c.bad
    | none => false
  if b0 || b1 || bad then s.poisonLine n k else s

/-- Line `k` is not complete at its deadline: it is abandoned, by the object unit as well (R47, R51, R123). Its commands that
are read only later are dropped (log 83). -/
def State.abandon (s : State) (n k : Nat) : State :=
  let e := s.engS n
  let begun := match e.comp with
    | some r => r.k == k
    | none => false
  let s := if begun && s.objHolds n then s.modEng n (fun e => { e with objWait := e.objWait + (s.now - e.compT) }) else s
  let s := if begun then s else s.modEng n (fun e => { e with cmp := none })
  let s := s.itemsApply n k
  let s := if begun then s.costTrack n k else s
  let s := s.modEng n (fun e => { e with
    objWork := if e.objWork = some k then none else e.objWork, objNext := max e.objNext (k + 1) })
  (s.lineLeave n k).spillLine n 0 true

/-- A substituted line is counted; the first one that was not poisoned raises DIKE (R47-R49). -/
def State.dikeCount (s : State) (n k : Nat) (poisoned : Bool) : State :=
  let e := s.engS n
  let first := e.substCnt == 0
  let s := (s.incRc (F.ENGn_DIKE_SUBST.COUNT n)).modEng n (fun e =>
    { e with substCnt := e.substCnt + 1, substFirst := if e.substCnt = 0 then k else e.substFirst })
  let s := if first then s.flag (F.ENGn_STATUS.DIKE n) (n + 1) else s
  if poisoned || e.dikeRaised then s
  else (s.modEng n (fun e => { e with dikeRaised := true })).fault 0x08 n

/-- The line output last leaves the previews, one raster line later (R177). -/
def State.pvwFlush (s : State) (n : Nat) : State :=
  match (s.engS n).outPrev with
  | none => s
  | some (k, pix, filled, own) => (s.modEng n (fun e => { e with outPrev := none })).pvwLine n k pix filled own

/-- SND and SIG bound to line `k` fire at its line tick (R34, R51, R69, R172, R174). Where what the line list holds leaves
the frame undefined, each may fire or not (R520, log 70). -/
def State.lineEvents (s : State) (n k : Nat) : State :=
  let e := s.engS n
  let items := e.llItems.filter (fun i => i.k == k)
  let quiet := e.mute.contains k || (n == 16 && s.wstate != 3) || s.served n
  let s := s.modEng n (fun e => { e with llItems := e.llItems.filter (fun i => i.k != k) })
  if quiet then s
  else items.foldl (fun s i =>
    let (v, s) := if e.llWild then s.free else (0, s)
    if v % 2 ≠ 0 then s
    else match i.cmd with
      | .snd v a p => if v < 384 ∧ a < 3 then s.sndFire n k v a p else s
      | .sig j => if n < 16 then s.pulse (0x010 + 4 * n + j) else s.pulse (0x010 + 4 * s.target + j)
      | _ => s) s

/-- The line is output: it waits for the raster line in which the previews send it (R177). -/
def State.outNext (s : State) (n k : Nat) (pix : List Nat) (filled : Bool) (own : Option (List Nat)) : State :=
  s.modEng n (fun e => { e with linesOut := e.linesOut + 1, outPrev := some (k, pix, filled, own) })

/-- A line of canvas `c` is output: to the ports, and one line later to the previews (R155, R177); in a freeze it comes
from the last good buffer (R164, R466). -/
def State.lineOut (s : State) (n c k : Nat) (pix : List Nat) (own : Option (List Nat)) : State :=
  if s.flt.outFrozen then
    let (good, s) := s.goodLine n k
    (s.polderRows c k (good.getD (s.backLine n)) false).outNext n k (good.getD (s.blackLine n)) true none
  else (s.polderRows c k pix false).outNext n k pix false own

/-- A preview of EW is filled with the line as TARGET's last good frame has it (R178, R181). -/
def State.watchFill (s : State) (k : Nat) : State :=
  let (good, s) := s.goodLine 16 k
  s.outNext 16 k (good.getD (s.blackLine 16)) true none

/-- EW's own line in WATCH reaches only a preview of EW: as composed, else filled (R178, R181, R466). -/
def State.watchOut (s : State) (k : Nat) (pix : Option (List Nat)) : State :=
  match pix with
  | some p => if s.flt.outFrozen then s.watchFill k else s.outNext 16 k p false none
  | none => s.watchFill k

/-- The memory faults of a poisoned line are raised at its deadline, in place of DIKE (R49, R278). -/
def State.poisonRaise (s : State) (n k : Nat) : State :=
  let mine := (s.engS n).flts.filter (fun p => p.1 == k)
  mine.foldl (fun s p => s.memRaise p.2 n n) (s.modEng n (fun e => { e with flts := e.flts.filter (fun p => p.1 != k) }))

/-- Line `k` is substituted (R47-R50, R178). -/
def State.substitute (s : State) (n k : Nat) (poisoned stored : Bool) : State :=
  let s := s.dikeCount n k poisoned
  let (good, s) := s.goodLine n k
  let pix := good.getD (s.backLine n)
  let s := s.fsWrite n k pix stored
  if s.served n then s.modEng n (fun e => { e with linesOut := e.linesOut + 1 })
  else if n = 16 then s.lineOut n s.target k pix (some (good.getD (s.blackLine n)))
  else s.lineOut n n k pix none

/-- A word of line `k` in the line FIFO of engine `n`. -/
def ArrWord.isLine (n k : Nat) : ArrWord → Bool
  | .line m j _ => m == n && j == k
  | _ => false

/-- Line `k` leaves the line FIFO: an uncorrectable word of it poisons it (R278). -/
def State.fifoOut (s : State) (n k : Nat) : State :=
  if (s.engS n).fifo.any (fun r => r.k == k) then
    let (ue, s) := s.arrRead n (ArrWord.isLine n k)
    (if ue then s.poisonLine n k else s).arrStore (ArrWord.isLine n k)
  else s

/-- The deadline of active line `k` (R45-R50, R173, R178). -/
def State.deadline (s : State) (n k : Nat) : State :=
  let s := s.fifoOut n k
  let hit := (s.engS n).fifo.find? (fun r => r.k == k)
  let s := s.modEng n (fun e => { e with fifo := e.fifo.filter (fun r => r.k != k) })
  let s := if hit.isNone then s.abandon n k else s
  let poisoned := (s.engS n).poison.contains k
  let watch := decide (n = 16 ∧ s.wstate = 2)
  match hit, poisoned with
  | some r, false =>
    let s := s.wardLine n k (some r.pix)
    if watch then s.watchOut k (some r.pix)
    else if s.served n then s.modEng n (fun e => { e with linesOut := e.linesOut + 1 })
    else s.lineOut n (if n = 16 then s.target else n) k r.pix none
  | _, _ =>
    let s := (s.wardLine n k none).poisonRaise n k
    if watch then s.watchOut k none
    else s.substitute n k poisoned (match hit with
      | some r => !r.poisoned
      | none => false)

/-- A raster line of an idle engine: black rows for the polders that ask for them, and filled preview rows (R157,
R181). -/
def State.idleLine (s : State) (n k : Nat) : State :=
  let s := s.polderRows n k (s.blackLine n) true
  let (good, s) := s.goodLine n k
  s.modEng n (fun e => { e with outPrev := some (k, good.getD (s.blackLine n), true, none) })

/-- LINE_TICK: the engine reaches pixel 0 of its next raster line. -/
def State.lineTick (s : State) (n : Nat) : State :=
  let e := s.engS n
  let r := e.rline
  if s.vTotal n < r then s
  else
    let s := (s.reach (e.tStart + s.lineTime n r)).recoverDue
    let s := s.pvwFlush n
    let s := s.modEng n (fun e => { e with rline := r + 1 })
    let r0 := s.rasterOf n 0
    if r < r0 then s
    else if s.vActive n ≤ r - r0 then
      (if e.live || (decide (n < 16) && s.idle n) then
        s.modEng n (fun e => { e with outPrev := some (r - r0, [], false, none) }) else s)
    else if e.live then
      let s := s.deadline n (r - r0)
      s.lineEvents n (r - r0)
    else if n < 16 && s.idle n then s.idleLine n (r - r0)
    else s

/-- The active lines of the frame have not all been fully output when the tick comes (R36). -/
def State.tickEarly (s : State) (n : Nat) : Bool :=
  let e := s.engS n
  if !e.live then false
  else
    let v := s.vActive n
    let r := s.rasterOf n 0 + v - 1
    let t0 := s.lineTime n r
    let t1 := s.lineTime n (r + 1)
    let tail := (t1 - t0) * (s.hTotal n - s.act (F.ENGn_HTIME0.H_FP n)) / s.hTotal n
    decide (e.linesOut < v) || decide (s.now < e.tStart + t0 + tail)

/-! ### Meanings -/

/-- COMPOSE_START (R44, R121). -/
def execComposeStart (n : Nat) (s : State) : Host.Outcome State Fault Refusal := done (s.composeStart n)

/-- OBJ_LINE_DONE (R121, R122). -/
def execObjLineDone (n : Nat) (s : State) : Host.Outcome State Fault Refusal := done (s.objLineDone n)

/-- OBJ_SOURCE_POISON (R127). -/
def execObjSourcePoison (n : Nat) (e : BadFetch) (s : State) : Host.Outcome State Fault Refusal :=
  done (s.objPoison n e.cause e.addr)

/-- LINE_COMPLETE (R46). -/
def execLineComplete (n : Nat) (s : State) : Host.Outcome State Fault Refusal := done (s.lineComplete n)

/-- LINE_TICK (R35). -/
def execLineTick (n : Nat) (s : State) : Host.Outcome State Fault Refusal := done (s.lineTick n)

end Sys2Proof.Machine
end

