-- ==== Sys2Proof/Machine/LinkCmd.lean ====
section
/-! DEFINITION. The commands of the Pelell link and of discovery (07 R183-R214, 08 R215-R239). -/

namespace Sys2Proof.Machine

/-- Any LCB but SOR ends a cell run at the receiver (R186). -/
def State.lcbSeen (s : State) (l : Nat) : State := s.modLane l (fun x => { x with inRun := false })

/-! ### Lanes -/

/-- BLOCK_LOCK (R189): LOCK to TRAIN. -/
def execBlockLock (l : Nat) (s : State) : Host.Outcome State Fault Refusal :=
  done (if s.laneSt l ≠ 1 then s
    else
      let s := (s.setLaneSt l 2).modLane l (fun x => { x with seen := false, trainAt := s.now })
      if l < 24 then s.wr (F.PLKn_LSTAT.LOCK l) 1 else s)

/-- BLOCK_LOCK_LOSS (R189, R214): TRAIN or UP to LOCK. -/
def execBlockLockLoss (l : Nat) (s : State) : Host.Outcome State Fault Refusal :=
  let s1 := if l < 24 then s.wr (F.PLKn_LSTAT.LOCK l) 0 else s
  done (match s.laneSt l with
    | 2 => s1.setLaneSt l 1
    | 3 => s1.departUp l 1
    | _ => s)

/-- TRAIN_SEND (R189): a TRAIN every 1 us in TRAIN. -/
def execTrainSend (l : Nat) (s : State) : Host.Outcome State Fault Refusal :=
  done (if s.laneSt l ≠ 2 then s
    else
      let s := s.reach (s.laneS l).trainAt
      let arg := 1 + (if (s.laneS l).seen then 2 else 0) + (if l < 24 then 0 else 4) + 0x100
      (s.emit (.lcb l 0xA7 arg (lcbChk 0xA7 arg))).modLane l (fun x => { x with trainAt := s.now + usT }))

/-- TRAIN (R189): a received TRAIN moves UP to TRAIN, and TRAIN to UP when both sides have seen each other. -/
def execTrain (l : Nat) (locked seen : Bool) (version : Nat) (s : State) : Host.Outcome State Fault Refusal :=
  let s := s.lcbSeen l
  done (match s.laneSt l with
    | 3 => (s.departUp l 2).modLane l (fun x => { x with seen := locked })
    | 2 =>
      let s := if locked then s.modLane l (fun x => { x with seen := true }) else s
      if locked && seen && version == 1 then s.enterUp l else s
    | _ => s)

/-- IDLE (R185): carries nothing. -/
def execIdle (l : Nat) (s : State) : Host.Outcome State Fault Refusal := done (s.lcbSeen l)

/-- SOR (R186): a cell run starts. -/
def execSor (l : Nat) (s : State) : Host.Outcome State Fault Refusal :=
  done (s.modLane l (fun x => { x with inRun := true }))

/-- ACK (R197). -/
def execAck (l next : Nat) (s : State) : Host.Outcome State Fault Refusal := done ((s.lcbSeen l).ackRx l next)

/-- NAK (R197): earlier cells are released, every held cell from NEXT is resent; TRAIN in place of a resend beyond
RETRY_MAX. -/
def execNak (l next : Nat) (s : State) : Host.Outcome State Fault Refusal :=
  let s := s.lcbSeen l
  let x := s.laneS l
  let early := match x.nakFrom with
    | some (n, t) => n == next && decide (s.now < t + s.retryTo l)
    | none => false
  done (if s.laneSt l ≠ 3 || !x.retry.any (fun h => h.seq == next) || early then s
    else
      let s := (s.modLane l (fun x => x.release next)).laneCnt l F.PLKn_NAK_RX.COUNT
      if s.retrySpent l then s.enterTrain l else s.modLane l (fun x => x.resendAll s.now))

/-- FLOW (R201). -/
def execFlow (l : Nat) (stop : Bool) (s : State) : Host.Outcome State Fault Refusal :=
  let s := s.lcbSeen l
  done (if s.laneSt l = 3 then s.flowRx l stop else s)

/-- ECHO_REQ (R210): answered with ECHO_RSP. -/
def execEchoReq (l tag : Nat) (s : State) : Host.Outcome State Fault Refusal :=
  let s := s.lcbSeen l
  done (if s.laneSt l = 3 then s.pushLcb l 0xA6 tag else s)

/-- ECHO_RSP (R210). -/
def execEchoRsp (l tag turn : Nat) (s : State) : Host.Outcome State Fault Refusal :=
  let s := s.lcbSeen l
  done (if s.laneSt l = 3 then s.echoRx l tag turn else s)

/-- LCB_ERR (R184): an LCB is ignored and reported. -/
def execLcbErr (l : Nat) (s : State) : Host.Outcome State Fault Refusal :=
  done (if l < 24 then s.flag (F.PLKn_LSTAT.LCB_ERR l) (20 + l) else s)

/-- BAD_CELL (R187, R198): a cell with a bad CRC, or cut off, in which case the run has ended. -/
def execBadCell (l : Nat) (cut : Bool) (s : State) : Host.Outcome State Fault Refusal :=
  done (if s.laneSt l ≠ 3 || !(s.laneS l).inRun then s
    else
      let s := (s.laneCnt l F.PLKn_CRC_ERR.COUNT).modLane l (fun x => { x with inRun := x.inRun && !cut, bad := x.bad + 1 })
      s.nak l)

/-! ### Cells -/

/-- A received cell of a type and direction. -/
def cellOf (typ dir mode addr w1 w2 w3 pay : Nat) : Cell :=
  { typ := typ, dir := dir, mode := mode, addr := addr, w1 := w1, w2 := w2, w3 := w3, pay := pay }

/-- PIXEL (R195, R207). -/
def execCellPixel (l seq mode addr w1 w2 w3 pay : Nat) (s : State) : Host.Outcome State Fault Refusal :=
  done (s.rxCell l seq (cellOf 1 0 mode addr w1 w2 w3 pay))

/-- TICK (R204-R207, R218). -/
def execCellTick (l seq mode addr w1 w2 w3 pay : Nat) (s : State) : Host.Outcome State Fault Refusal :=
  done (s.rxCell l seq (cellOf 2 0 mode addr w1 w2 w3 pay))

/-- CFG_WR (R220, R221). -/
def execCellCfgWr (l seq mode addr w1 w2 w3 pay : Nat) (s : State) : Host.Outcome State Fault Refusal :=
  done (s.rxCell l seq (cellOf 3 0 mode addr w1 w2 w3 pay))

/-- CFG_RD (R220, R221). -/
def execCellCfgRd (l seq mode addr w1 w2 w3 pay : Nat) (s : State) : Host.Outcome State Fault Refusal :=
  done (s.rxCell l seq (cellOf 4 0 mode addr w1 w2 w3 pay))

/-- CFG_RSP (R220). -/
def execCellCfgRsp (l seq mode addr w1 w2 w3 pay : Nat) (s : State) : Host.Outcome State Fault Refusal :=
  done (s.rxCell l seq (cellOf 5 1 mode addr w1 w2 w3 pay))

/-- DISC (R222, R225). -/
def execCellDisc (l seq mode addr w1 w2 w3 pay : Nat) (s : State) : Host.Outcome State Fault Refusal :=
  done (s.rxCell l seq (cellOf 6 0 mode addr w1 w2 w3 pay))

/-- DISC_RSP (R222-R226). -/
def execCellDiscRsp (l seq mode addr w1 w2 w3 pay : Nat) (s : State) : Host.Outcome State Fault Refusal :=
  done (s.rxCell l seq (cellOf 7 1 mode addr w1 w2 w3 pay))

/-- TELEM (R238). -/
def execCellTelem (l seq mode addr w1 w2 w3 pay : Nat) (s : State) : Host.Outcome State Fault Refusal :=
  done (s.rxCell l seq (cellOf 8 1 mode addr w1 w2 w3 pay))

/-- AUTH (R229). -/
def execCellAuth (l seq mode addr w1 w2 w3 pay : Nat) (s : State) : Host.Outcome State Fault Refusal :=
  done (s.rxCell l seq (cellOf 9 0 mode addr w1 w2 w3 pay))

/-- AUTH_RSP (R229, R231). -/
def execCellAuthRsp (l seq mode addr w1 w2 w3 pay : Nat) (s : State) : Host.Outcome State Fault Refusal :=
  done (s.rxCell l seq (cellOf 0xA 1 mode addr w1 w2 w3 pay))

/-- NOTE (R228, R233). -/
def execCellNote (l seq mode addr w1 w2 w3 pay : Nat) (s : State) : Host.Outcome State Fault Refusal :=
  done (s.rxCell l seq (cellOf 0xB 1 mode addr w1 w2 w3 pay))

/-! ### Timers of a link -/

/-- RETRY_TIMEOUT (R197): every held cell is resent from the oldest; TRAIN in place of a resend beyond RETRY_MAX. -/
def execRetryTimeout (l : Nat) (s : State) : Host.Outcome State Fault Refusal :=
  done (if s.laneSt l ≠ 3 then s
    else match (s.laneS l).retry with
      | [] => s
      | h :: _ =>
        let s := s.reach (h.tSent + s.retryTo l)
        if s.retrySpent l then s.enterTrain l
        else (s.laneCnt l F.PLKn_TIMEOUT.COUNT).modLane l (fun x => x.resendAll s.now))

/-- NAK_REPEAT (R198): after 8 us without E advancing, on an UP lane. -/
def execNakRepeat (l : Nat) (s : State) : Host.Outcome State Fault Refusal :=
  done (if s.laneSt l ≠ 3 then s else match (s.laneS l).nakAt with
    | none => s
    | some t => (((s.reach (t + 8 * usT)).modLane l (fun x => { x with nakAt := none })).nak l))

/-- ACK_TIMER (R198): within 500 ns of an acceptance, on an UP lane. -/
def execAckTimer (l : Nat) (s : State) : Host.Outcome State Fault Refusal :=
  done (if s.laneSt l ≠ 3 then s else match (s.laneS l).ackDue with
    | none => s
    | some t => (s.reach t).ackNow l)

/-- FLOW_REPEAT (R201): STOP again every 2 us while a tile's queue stays above 8 cells, a port's receive buffer above 32. -/
def execFlowRepeat (l : Nat) (s : State) : Host.Outcome State Fault Refusal :=
  done (if s.laneSt l ≠ 3 then s else match (s.laneS l).stopSent with
    | none => s
    | some t =>
      let s := s.reach (t + 2 * usT)
      let s := if l < 24 then s.rxDrain l else s
      if (s.laneS l).stopSent.isNone then s
      else (s.pushLcb l 0xA4 1).modLane l (fun x => { x with stopSent := some s.now }))

/-- FLOW_TIMEOUT (R201): 8 us after the last STOP. -/
def execFlowTimeout (l : Nat) (s : State) : Host.Outcome State Fault Refusal :=
  done (match (s.laneS l).stopAt with
    | none => s
    | some t => (s.reach (t + 8 * usT)).flowRx l false)

/-- ECHO_PERIOD (R210). -/
def execEchoPeriod (l : Nat) (s : State) : Host.Outcome State Fault Refusal :=
  let period := if l < 24 then s.rd (F.PLKn_ECHO.PERIOD l) else 1000
  done (if s.laneSt l ≠ 3 ∨ period = 0 then s
    else
      let s := s.reach ((s.laneS l).echoAt + period * usT)
      let s := s.modLane l (fun x => { x with tag := (x.tag + 1) % 65536, echoAt := s.now })
      s.pushLcb l 0xA5 (s.laneS l).tag)

/-- The retry buffer gives the cell that is sent again: one with an uncorrectable word is dropped, and the lane retrains
(R278). -/
def State.retrySend (s : State) (l : Nat) : State :=
  let x := s.laneS l
  match x.resend with
  | [] => s.cellSend l
  | n :: _ => match x.retry.find? (fun h => h.seq == n && h.q.bad != []) with
    | none => s.cellSend l
    | some h =>
      if s.laneSt l ≠ 3 || x.stopAt.isSome then s.cellSend l
      else match s.cellRead h.q with
        | ((true, _), s) => (s.modLane l (fun x => { x with
            retry := x.retry.filter (fun g => g.seq != n), resend := x.resend.drop 1 })).enterTrain l
        | ((false, c), s) => (s.modLane l (fun x => { x with
            retry := x.retry.map (fun g => if g.seq = n then { g with q := { g.q with cell := c, bad := [] } } else g) })).cellSend l

/-- CELL_SEND (R200, R201, R205, R208). -/
def execCellSend (l : Nat) (s : State) : Host.Outcome State Fault Refusal := done (s.retrySend l)

/-- PIXEL_HOLD_END (R208). -/
def execPixelHoldEnd (p : Nat) (s : State) : Host.Outcome State Fault Refusal :=
  done (s.reach ((s.portS p).lastTick + qnsUp (s.act F.PLK_PRES.OFS) + 2 * usT))

/-- RETRAIN (R189). -/
def execRetrain (p : Nat) (s : State) : Host.Outcome State Fault Refusal := done (s.enterTrain p)

/-! ### The port -/

/-- The lane of an OFF port powers down after its IDLE (R203): what it held goes, its link delay stays. -/
def State.laneOff (s : State) (p : Nat) : State :=
  let s := if s.laneSt p = 3 then s.departUp p 0 else s.setLaneSt p 0
  let s := (s.wr (F.PLKn_LSTAT.LOCK p) 0).modPort p (fun x => { x with idleEnd := none })
  s.modLane p (fun x => { ({} : LaneS) with samples := x.samples, delay := x.delay, tag := x.tag })

/-- ENABLE is compared with STATE (R53, R203). PAIR_ERR shows ring settings that do not match (R216). A port enabled
while its lane still sends IDLE powers it down first. -/
def State.portFollow (s : State) (p : Nat) : State :=
  let en := s.on (F.PLKn_CTRL.ENABLE p)
  match s.rd (F.PLKn_CTRL.STATE p) with
  | 0 =>
    if en then
      let s := if (s.portS p).idleEnd.isSome then s.laneOff p else s
      let s := if s.ringMode p != 0 && !s.pairOk p then s.flag (F.PLKn_RSTAT.PAIR_ERR p) (20 + p) else s
      (s.wr (F.PLKn_CTRL.STATE p) 1).setLaneSt p 1
    else s
  | 2 => if en then s else (s.wr (F.PLKn_CTRL.STATE p) 3).modPort p (fun x => { x with stopTick := none })
  | _ => s

/-- A write of ENABLE. -/
def State.portEnable (s : State) (p : Nat) (en : Bool) : State := (s.wrB (F.PLKn_CTRL.ENABLE p) en).portFollow p

/-- A write of PLKn_CTRL. -/
def State.portCtrlWrite (s : State) (p v : Nat) : State :=
  let s := if v.testBit 4 then s.enterTrain p else s
  s.portEnable p (v.testBit 0)

/-- PORT_ENABLE (R203). -/
def execPortEnable (p : Nat) (en : Bool) (s : State) : Host.Outcome State Fault Refusal := done (s.portEnable p en)

/-- A STOPPING port becomes OFF (R203): its lane sends IDLE for 10 us, and ENABLE is compared anew (R53). -/
def State.portOff (s : State) (p : Nat) : State :=
  let s := ((s.wr (F.PLKn_CTRL.STATE p) 0).wr (F.PLKn_CSTAT.DSTATE p) 0).modLane p (fun x =>
    { x with queue := [], retry := [], resend := [], lcbs := [] })
  let s := s.modPort p (fun x => { x with
    stopTick := none, step := 0, patWait := [], rxBuf := 0, idleEnd := some (s.now + 10 * usT) })
  (if s.laneSt p = 3 then s.laneIdle p else s).portFollow p

/-- A port that a halted boot keeps from running (R449): its lane is unpowered (R189, R214). -/
def State.portHalt (s : State) (p : Nat) : State :=
  let s := ((s.wr (F.PLKn_CTRL.ENABLE p) 0).wr (F.PLKn_CTRL.STATE p) 0).wr (F.PLKn_CSTAT.DSTATE p) 0
  (s.laneOff p).modPort p (fun x => { x with stopTick := none, step := 0, patWait := [], rxBuf := 0 })

/-- PORT_STOP_DONE (R203): the rest of the frame and the TICK are sent and the retry buffer is empty, or 1 ms after the tick:
the port is OFF. Then the lane of the OFF port powers down 10 us later. -/
def execPortStopDone (p : Nat) (s : State) : Host.Outcome State Fault Refusal :=
  done (match (s.portS p).idleEnd, s.rd (F.PLKn_CTRL.STATE p), (s.portS p).stopTick with
    | some t, _, _ => (s.reach t).laneOff p
    | none, 3, some t =>
      (if (s.laneS p).retry = [] ∧ s.fifoCells p = 0 then s else s.reach (t + msT)).portOff p
    | _, _, _ => s)

/-- A write of PLK_PRES (R209). -/
def State.presWrite (s : State) (v : Nat) : State :=
  if 16000000 < v % 2 ^ 32 then s.hwSet F.PLK_STATUS.CFG_REJECT else s.writeByCode R.PLK_PRES v

/-- PLK_PRES_WRITE (R209). -/
def execPlkPresWrite (v : Nat) (s : State) : Host.Outcome State Fault Refusal := done (s.presWrite v)

/-- A ring setting has changed: ports that are not OFF and whose settings have ceased to match show PAIR_ERR (R216). -/
def State.pairCheck (s s' : State) : State :=
  (List.range 24).foldl (fun t q =>
    if s.pairOk q && !s'.pairOk q && s.rd (F.PLKn_CTRL.STATE q) != 0 then t.flag (F.PLKn_RSTAT.PAIR_ERR q) (20 + q) else t) s'

/-- A write of SPLIT waits; beside it stands the last one of an earlier cycle, which a tick of this cycle takes (R18). -/
def splitWait (v now : Nat) (l : List (Nat × Nat)) : List (Nat × Nat) :=
  (v, now) :: (l.filter (fun w => decide (w.2 < now))).take 1

/-- A write of PLKn_RING (R216, R237): MODE and PARTNER only while OFF; SPLIT is RWS and replaces the working split at the
next tick. -/
def State.ringWrite (s : State) (p v : Nat) : State :=
  let old := s.reg (R.PLKn_RING p)
  let off := s.rd (F.PLKn_CTRL.STATE p) = 0
  let changed := bitsOf v 0 2 ≠ bitsOf old 0 2 ∨ bitsOf v 8 5 ≠ bitsOf old 8 5
  let s := s.modPort p (fun x => { x with splitHeld := splitWait (bitsOf v 16 7) s.now x.splitHeld })
  if changed ∧ ¬ off then
    (s.writeByCode (R.PLKn_RING p) (putBits (putBits v 0 2 old) 8 5 (bitsOf old 8 5))).flag (F.PLKn_RSTAT.CFG_REJECT p) (20 + p)
  else s.pairCheck (s.writeByCode (R.PLKn_RING p) v)

/-! ### Tiles -/

/-- TILE_PRESENT (R206, R207). -/
def execTilePresent (k : Nat) (s : State) : Host.Outcome State Fault Refusal := done (s.tilePresent k)

/-- TILE_READY (R223, R228). -/
def execTileReady (k : Nat) (s : State) : Host.Outcome State Fault Refusal := done (s.tileReady k)

/-- TELEM_SEND (R238). -/
def execTelemSend (k : Nat) (s : State) : Host.Outcome State Fault Refusal := done (s.telemSend k)

/-! ### Discovery -/

/-- An admitted tile that did not answer three tries is LOST (R226), where port `p` is the one that reaches it (R233). -/
def State.patrolLost (s : State) (p hop : Nat) : State :=
  let x := s.addrAt p hop
  let k := 64 * s.tableOf p + x
  if s.tstate k = 3 && s.reaches p x then (s.setTstate k 6).fault 0x1C k else s

/-- A patrol DISC is not answered (R226): two more tries. -/
def State.patrolMiss (s : State) (p : Nat) : State :=
  match (s.portS p).patWait with
  | [] => s
  | (hop, tries, t) :: rest =>
    let s := (s.reach (t + 100 * usT + roundTrip hop)).modPort p (fun x => { x with patWait := rest })
    if tries < 3 then
      (s.modPort p (fun x => { x with patWait := x.patWait ++ [(hop, tries + 1, s.now)] })).sendDisc p hop
    else s.patrolLost p hop

/-- DISC_TIMEOUT (R223, R224, R226): after 100 us + T_h; two more tries. -/
def execDiscTimeout (p : Nat) (s : State) : Host.Outcome State Fault Refusal :=
  let x := s.portS p
  done (if x.step = 1 then
      let s := s.reach (x.sentAt + 100 * usT + roundTrip x.hop)
      if x.tries < 3 then (s.modPort p (fun x => { x with tries := x.tries + 1 })).cascadeDisc p x.hop
      else s.cascadeOpen p (x.hop - 1)
    else if x.step = 3 then
      let s := (s.reach (x.sentAt + 100 * usT + roundTrip 1)).modPort p (fun x => { x with farTest := false })
      (s.overflow p).cascadeOpen p 64
    else s.patrolMiss p)

/-- READY_TIMEOUT (R223): 2.0 ms + T_h after the address write; the cascade ends at that hop. -/
def execReadyTimeout (p : Nat) (s : State) : Host.Outcome State Fault Refusal :=
  let x := s.portS p
  done (if x.step ≠ 2 then s
    else (s.reach (x.sentAt + 2 * msT + roundTrip x.hop)).cascadeOpen p x.hop)

/-- The number of hops that a port patrols (R226): each port of a broken ring its own side. -/
def State.patrolHops (s : State) (p : Nat) : Nat :=
  if s.isB p then s.ringLen (s.partner p) - s.rd (F.PLKn_RSTAT.B_START p)
  else if (s.portS p).breaks.isEmpty then min 64 (s.rd (F.PLKn_CSTAT.REACH p) + 1)
  else s.rd (F.PLKn_RSTAT.A_END p)

/-- PATROL (R226): one DISC every PERIOD ms, to a rotating hop. -/
def execPatrol (p : Nat) (s : State) : Host.Outcome State Fault Refusal :=
  let x := s.portS p
  let st := s.rd (F.PLKn_CTRL.STATE p)
  let n := s.patrolHops p
  done (if s.rd (F.PLKn_DISC.PERIOD p) = 0 ∨ s.laneSt p ≠ 3 ∨ (st ≠ 1 ∧ st ≠ 2) ∨ x.step ≠ 0 ∨ n = 0 then s
    else
      let s := s.reach (x.patAt + s.rd (F.PLKn_DISC.PERIOD p) * msT)
      let hop := if x.patHop = 0 ∨ n < x.patHop then 1 else x.patHop
      (s.modPort p (fun x => { x with patHop := hop + 1, patAt := s.now })).discAt p hop)

/-- REDISC (R226). -/
def execRedisc (p : Nat) (s : State) : Host.Outcome State Fault Refusal := done (s.cascadeStart p)

/-- CHALLENGE_TIMEOUT (R231). -/
def execChallengeTimeout (k : Nat) (s : State) : Host.Outcome State Fault Refusal := done (s.challengeTimeout k)

/-- A move of the working split in the tick's cycle: the polders of the tiles that change port are sent in full from
that tick on (R236, R227). -/
def State.rebalance (s : State) (a : Nat) : State :=
  let t := s.rebalMove a
  let moved := fun k => (t.chT k).joined && !(s.chT k).joined
  let u := t.refreshOf false moved
  { u with chain := u.chain.map (fun e => (e.1, if moved e.1 then { e.2 with joined := false } else e.2)) }

/-- REBALANCE (R236). -/
def execRebalance (a : Nat) (s : State) : Host.Outcome State Fault Refusal := done (s.rebalance a)

/-- TELEM_STALE (R239). -/
def execTelemStale (k : Nat) (s : State) : Host.Outcome State Fault Refusal := done (s.telemStale k)

end Sys2Proof.Machine
end

