-- ==== Sys2Proof/Machine/Pads.lean ====
section
/-! DEFINITION. Pads: what drives them, their filters and events (16_pins_and_multiplexing.md R377-R385, R388-R392). -/

namespace Sys2Proof.Machine

/-- The state of pin `p`. -/
def State.pinS (s : State) (p : Nat) : PinS := Tbl.get {} s.pin p

/-- The state with pin `p` changed by `f`. -/
def State.modPin (s : State) (p : Nat) (f : PinS → PinS) : State := { s with pin := Tbl.put s.pin p (f (s.pinS p)) }

/-- The function of pin `p` (R379). -/
def State.func (s : State) (p : Nat) : Nat := s.rd (F.PMX_PINp.FUNC p)

/-- The filtered and the raw level of pin `p` (R384). -/
def State.pinIn (s : State) (p : Nat) : Bool := (s.rd (F.GPIO_INb.IN (p / 16))).testBit (p % 16)
def State.pinRaw (s : State) (p : Nat) : Bool := (s.rd (F.GPIO_INb_RAW.RAW (p / 16))).testBit (p % 16)

/-- Window pin number of pin `p` in the window of engine `n`, if it lies in it (R391). -/
def State.clvPin (s : State) (n p : Nat) : Option Nat :=
  let j := (p + 96 - s.rd (F.CLVn_PINS.PBASE n) % 96) % 96
  if j < 8 then some j else none

/-- Engine `n` has pin `p` in its window with DIR = 1: its output value. -/
def State.clvOut (s : State) (n p : Nat) : Option Bool :=
  match s.clvPin n p with
  | none => none
  | some j => if (s.rd (F.CLVn_PINS.DIR n)).testBit j then some ((Tbl.get {} s.clv n).outv.testBit j) else none

/-- What the Clove engines drive on pin `p`: the lowest-numbered engine wins (R392). -/
def State.clvDrive (s : State) (p : Nat) : Option Bool := (List.range 16).findSome? (fun n => s.clvOut n p)

/-- Bank `b` has no supply: its pins are high-impedance and its inputs read 0 (R490). -/
def State.bankDead (s : State) (b : Nat) : Bool := s.boot.unpow.contains b

/-- The stated voltage of bank `b` is not the sensed one: its outputs are disabled (R377). -/
def State.bankOff (s : State) (b : Nat) : Bool := s.rd (F.GPIO_BANKb_CFG.V33 b) != s.rd (F.GPIO_BANKb_CFG.VSENSE b)

/-- Drive of function 0. -/
def State.gpioDrive (s : State) (p : Nat) : Option Bool :=
  if (s.rd (F.GPIO_OEb.OE (p / 16))).testBit (p % 16) then some ((s.rd (F.GPIO_OUTb.OUT (p / 16))).testBit (p % 16))
  else none

/-- The half of the BCLK cycle, from the frame's start, in which time `t` falls: bit `b` begins at t0 + b * Δ / bits, and its
second half midway to the next (R321, log 14). -/
def TdmFrame.half (f : TdmFrame) (t : Nat) : Nat :=
  let n := 2 * f.slots.length * f.width
  min (n - 1) (((t + 1 - f.t0) * n - 1) / (f.t1 - f.t0))

/-- The time at which half `h` begins. -/
def TdmFrame.halfAt (f : TdmFrame) (h : Nat) : Nat := f.t0 + h * (f.t1 - f.t0) / (2 * f.slots.length * f.width)

/-- BCLK, FS or SD (0, 1, 2) of a frame in half `h` of its BCLK cycles: data changes as BCLK falls and holds as it rises
(R320). -/
def TdmFrame.level (f : TdmFrame) (j h : Nat) : Bool :=
  let b := h / 2
  match j with
  | 0 => (h % 2 == 1) != f.bclkInv
  | 1 => decide (((b : Int) - f.fsAt) % (f.slots.length * f.width : Nat) < f.fsLen) != f.fsInv
  | _ => (f.slots.getD (b / f.width) 0).testBit (f.width - 1 - b % f.width)

/-- The frame at the pins of the output port of pin `p`. -/
def State.padFrame (s : State) (p : Nat) : Option TdmFrame := (Tbl.get {} s.aud.out (p / 3)).cur

/-- An audio output at pin `p` (R320-R322): its port's frame. The level of a port that sends none, and of AUD_MCLK, whose edges
an analogue PLL places, is free (log 14). -/
def State.audDrive (s : State) (p : Nat) : Bool :=
  match (if p = 36 then none else s.padFrame p) with
  | some f => f.level (p % 3) (f.half s.now)
  | none => Config.padWave p s.now

/-- Drive of a pin's function (R379). AUD_MCLK is driven while MCLK_EN = 1 (R296). -/
def State.funcDrive (s : State) (p : Nat) : Option Bool :=
  match s.func p with
  | 0 => s.gpioDrive p
  | 1 => s.clvDrive p
  | 3 => some ((s.rd (F.TMRn_OUT.LVL (p % 16))).testBit (p / 16 % 4))
  | 4 => if Nat.ble p 23 || (p == 36 && s.on F.AUD_CTRL.MCLK_EN) then some (s.audDrive p) else none
  | 5 => some s.tickOut.isSome
  | _ => none

/-- A change of function holds pin `p` at the drive it had (R382). -/
def State.muxHeld (s : State) (p : Nat) : Option (Option Bool) :=
  match (s.pinS p).mux with
  | some (t, d) => if s.now < t then some d else none
  | none => none

/-- SMODE and SPULL in force while pin `p` is in its Standby state: those it had on entry (R388, R389). -/
def State.sbyMode (s : State) (p : Nat) : Nat × Nat :=
  (s.pinS p).sby.getD (s.rd (F.GPIO_PINp_SBY.SMODE p), s.rd (F.GPIO_PINp_SBY.SPULL p))

/-- What the part drives on pad `p` (R377, R379, R382, R388, R490). -/
def State.padDrive (s : State) (p : Nat) : Option Bool :=
  if s.bankOff (p / 16) || s.bankDead (p / 16) then none
  else match s.muxHeld p with
  | some d => d
  | none =>
  if s.on F.GPIO_SBY_CTRL.HELD then
    match (s.sbyMode p).1 with
    | 0 => s.gpioDrive p
    | 1 => (s.pinS p).latch
    | 2 => some false
    | 3 => some true
    | _ => none
  else s.funcDrive p

/-- The level of pad `p`: the part's drive, else the drive from outside, else the pull; a pad that floats has a free
level (log 8, 15). An input of a bank without supply reads 0 (R490). -/
def State.padLevel (s : State) (p : Nat) : Bool × State :=
  if s.bankDead (p / 16) then (false, s)
  else match s.padDrive p with
  | some b => (b, s)
  | none => match (s.pinS p).ext with
    | some b => (b, s)
    | none =>
      let pull := if s.on F.GPIO_SBY_CTRL.HELD then (s.sbyMode p).2 else s.rd (F.GPIO_PINp_CFG.PULL p)
      match pull with
      | 1 => (true, s)
      | 2 => (false, s)
      | 3 => ((s.pinS p).keep, s)
      | _ => let (v, s) := s.free; (v.testBit 0, s)

/-- A pin event (R385): the flag, an interrupt event and a pulse. -/
def State.pinEvent (s : State) (p : Nat) : State :=
  let b := p / 16
  let s := s.hwSetBit (F.GPIO_IRQ_FLAGb.FLAG b) (p % 16)
  (s.irq (163 + p)).pulse (0x100 + p)

/-- The filtered level of pin `p` becomes `v`: GPIO_IN, the Sluice level, and the event that MODE selects
(R384, R385). -/
def State.pinFiltered (s : State) (p : Nat) (v : Bool) : State :=
  if s.pinIn p == v then s
  else
    let b := p / 16
    let s := s.wr (F.GPIO_INb.IN b) (setBitN (s.rd (F.GPIO_INb.IN b)) (p % 16) v)
    let s := s.slcLevel (0x1A0 + p) v
    let m := s.rd (F.GPIO_PINp_IRQ.MODE p)
    if (v && (m == 1 || m == 3 || m == 4)) || (!v && (m == 2 || m == 3 || m == 5)) then s.pinEvent p else s

/-- The filter of pin `p` in ECLK: 0 for none, its kind and its length (R384). -/
def State.pinFilt (s : State) (p : Nat) : Nat × Nat :=
  let k := s.rd (F.GPIO_PINp_IRQ.FILT p)
  let n := s.rd (F.GPIO_PINp_IRQ.N p)
  if n = 0 ∨ k = 0 ∨ k = 3 then (0, 0) else (k, n * (if s.on (F.GPIO_PINp_IRQ.UNIT p) then 12000 else 12))

/-- The synchronised pad level of pin `p` becomes `v` and reaches the filter (R384). -/
def State.pinSync (s : State) (p : Nat) (v : Bool) : State :=
  if s.pinRaw p == v then s
  else
    let b := p / 16
    let s := s.wr (F.GPIO_INb_RAW.RAW b) (setBitN (s.rd (F.GPIO_INb_RAW.RAW b)) (p % 16) v)
    let (k, n) := s.pinFilt p
    match k with
    | 0 => (s.modPin p (fun x => { x with busy := none })).pinFiltered p v
    | 1 => s.modPin p (fun x => { x with busy := if s.pinIn p == v then none else some (s.now + n) })
    | _ => if (s.pinS p).busy.isSome then s
      else (s.modPin p (fun x => { x with busy := some (s.now + n) })).pinFiltered p v

/-- The pad of pin `p` follows what drives it. -/
def State.pinUpdate (s : State) (p : Nat) : State :=
  let (v, s) := s.padLevel p
  let driven := !s.bankDead (p / 16) && ((s.padDrive p).isSome || (s.pinS p).ext.isSome)
  let s := if driven then s.modPin p (fun x => { x with keep := v }) else s
  s.pinSync p v

/-- Pads follow for a list of pins. -/
def State.pinsUpdate (s : State) (l : List Nat) : State := l.foldl State.pinUpdate s

/-- Pin `p` changes function: through the next two PCLK edges the pad keeps the drive it has (R382). -/
def State.muxStart (s : State) (p : Nat) : State :=
  let d := s.padDrive p
  s.modPin p (fun x => { x with mux := some ((s.now + 2) / 3 * 3 + 6, d) })

/-- Pad `p` follows at time `t`. -/
def State.pinAt (s : State) (t p : Nat) : State := { ({ s with now := t }.pinUpdate p) with now := s.now }

/-- The audio outputs among the pins: GPIO0-23 under function 4. -/
def State.audPins (s : State) : List Nat := (List.range 24).filter (fun p => s.func p == 4)

/-- GPIO_IN and the pin's Sluice signals follow an audio output through the edges of its port's frame up to now (R380). -/
def State.audFollow (s : State) (p : Nat) : State :=
  match s.padFrame p with
  | none => s.pinUpdate p
  | some f =>
    let from_ := f.half (max f.t0 (s.pinS p).wave)
    let to_ := f.half s.now
    let s := (List.range (to_ - from_)).foldl (fun s i => s.pinAt (f.halfAt (from_ + 1 + i)) p) (s.pinAt (max f.t0 (s.pinS p).wave) p)
    s.modPin p (fun x => { x with wave := s.now })

/-- Audio outputs follow their ports. -/
def State.audWaves (s : State) : State := if s.aud.out = [] then s else s.audPins.foldl State.audFollow s

/-- Pins whose new function has taken the pad by now follow it, each at its time (R382; log 15), and audio outputs follow
their ports. -/
def State.pinsDue (s : State) : State :=
  State.audWaves <| s.pin.foldl (fun (s : State) (e : Nat × PinS) =>
    match e.2.mux with
    | none => s
    | some (t, _) =>
      if s.now < t then s
      else (s.modPin e.1 (fun x => { x with mux := none })).pinAt t e.1) s

end Sys2Proof.Machine
end

