-- ==== Sys2Proof/Machine/Sluice.lean ====
section
/-! DEFINITION. The Sluice's own steps (15_sluice_event_fabric.md): ownership of channels, the commit and its check,
locks, software events, the cell clock. -/

namespace Sys2Proof.Machine

/-- A signal code that R363 lists. -/
def sigCodeOk (c : Nat) : Bool :=
  Nat.ble c 1 || (Nat.ble 0x010 c && Nat.blt c 0x059) || (Nat.ble 0x060 c && Nat.blt c 0x190) ||
    (Nat.ble 0x1A0 c && Nat.blt c 0x200)

/-- The configuration registers that a commit applies (R365), without LOCK. -/
def slcCfgOffs : List Nat :=
  (List.range 64).map R.SLC_CHn_CFG ++ (List.range 32).flatMap (fun k =>
    [R.SLC_CELLk_IN01 k, R.SLC_CELLk_IN23 k, R.SLC_CELLk_CFG k])

/-- The shadow configuration (R365): the words that are not 0. -/
def State.slcShadow (s : State) : Tbl Word :=
  slcCfgOffs.foldl (fun t o =>
    let v := if Nat.blt o (R.SLC_CELLk_IN01 0) then s.reg o % 2 ^ 31 else s.reg o
    Tbl.set 0#32 t o (w32 v)) []

/-- A word of a configuration. -/
def cfgWord (t : Tbl Word) (o : Nat) : Nat := (Tbl.get 0#32 t o).toNat

/-- The four input codes of cell `k` in a configuration. -/
def cfgInputs (t : Tbl Word) (k : Nat) : List Nat :=
  let a := cfgWord t (R.SLC_CELLk_IN01 k)
  let b := cfgWord t (R.SLC_CELLk_IN23 k)
  [bitsOf a 0 9, bitsOf a 16 9, bitsOf b 0 9, bitsOf b 16 9]

/-- Cell `k` is registered in a configuration. -/
def cfgReg (t : Tbl Word) (k : Nat) : Bool := (cfgWord t (R.SLC_CELLk_CFG k)).testBit 16

/-- The cells that a list of codes names. -/
def codeCells (l : List Nat) : List Nat :=
  (l.filter (fun c => Nat.ble 0x160 c && Nat.blt c 0x180)).map (fun c => c - 0x160)

/-- The cells of a source cone: closed under inputs. -/
def cfgCone (t : Tbl Word) : Nat → List Nat → List Nat
  | 0, l => l
  | n + 1, l => cfgCone t n ((List.range 32).filter (fun k =>
      l.contains k || l.any (fun j => (codeCells (cfgInputs t j)).contains k)))

/-- Cells reached from `l` through inputs of unregistered cells only. -/
def cfgReach (t : Tbl Word) : Nat → List Nat → List Nat
  | 0, l => l
  | n + 1, l => cfgReach t n ((List.range 32).filter (fun k =>
      l.contains k || l.any (fun j => !cfgReg t j && (codeCells (cfgInputs t j)).contains k)))

/-- The unregistered cells that lie on a path back to themselves without a registered cell (R372). -/
def cfgLoops (t : Tbl Word) : List Nat :=
  (List.range 32).filter (fun k => !cfgReg t k &&
    (cfgReach t 32 ((codeCells (cfgInputs t k)).filter (fun j => !cfgReg t j))).contains k)

/-- A code test of the check (R372, RESULT 2). -/
def cfgCodeBad (t : Tbl Word) : Bool :=
  (List.range 64).any (fun n =>
      let w := cfgWord t (R.SLC_CHn_CFG n)
      !sigCodeOk (bitsOf w 0 9) || !sigCodeOk (bitsOf w 16 9)) ||
    (List.range 32).any (fun k => (cfgInputs t k).any (fun c => !sigCodeOk c))

/-- Words of a configuration differ for cell `k`. -/
def cfgCellChanged (a b : Tbl Word) (k : Nat) : Bool :=
  [R.SLC_CELLk_IN01 k, R.SLC_CELLk_IN23 k, R.SLC_CELLk_CFG k].any (fun o => cfgWord a o != cfgWord b o)

/-- The snapshot changes a locked channel or cell (R372, RESULT 3). -/
def State.slcLockBad (s : State) (t : Tbl Word) : Bool :=
  (List.range 64).any (fun n => s.on (F.SLC_CHn_CFG.LOCK n) &&
      cfgWord t (R.SLC_CHn_CFG n) != cfgWord s.slc.act (R.SLC_CHn_CFG n)) ||
    (List.range 32).any (fun k => s.on (F.SLC_CELLk_STAT.LOCKED k) && cfgCellChanged t s.slc.act k)

/-- SLC_COMMIT.GO (R372). -/
def State.slcGo (s : State) (v : Nat) : State :=
  if v.testBit 0 && !s.on F.SLC_STATUS.BUSY then
    { s.wr F.SLC_STATUS.BUSY 1 with slc := { s.slc with snap := s.slcShadow } }
  else s

/-- A passing snapshot is applied without an event (R373): changed cells load INIT, and by the end of the switch's FCLK
cycle a filter shows its cell's output (log 51). Only the filter of an unchanged cell whose output the switch leaves as it
was goes on holding back its change: an event that spans the switch is delivered once. -/
def State.slcApply (s : State) (t : Tbl Word) : State :=
  let q := (List.range 32).foldl (fun q k =>
    if cfgCellChanged t s.slc.act k then setBitN q k ((cfgWord t (R.SLC_CELLk_CFG k)).testBit 18) else q) s.slc.q
  let pend := (s.slc.filt.map (·.1)).filter (fun k => !cfgCellChanged t s.slc.act k)
  let s := { s with slc := { s.slc with act := t } }
  let cells := s.slcCells
  let cs := fun (keep : List Nat) => cells.map (fun c => { c with filt := c.filt && keep.contains c.k })
  let rest := fun (keep : List Nat) => combFix (cs keep) s.slc.level s.slcHigh s.slc.vis 33 q
  let keep := pend.filter (fun k => (rest pend).testBit k == s.slc.q.testBit k)
  let q := rest keep
  let vis := cellShow (cs keep) q s.slc.vis
  let ch := (List.range 64).foldl (fun c n => setBitN c n (s.chOut n s.slc.level s.slcHigh vis)) 0
  { s with slc := { s.slc with q := q, vis := vis, filt := s.slc.filt.filter (fun e => keep.contains e.1), ch := ch } }

/-- The check ends (R372, R373). LOOP_CELL is one of the cells on the loop: which one is open (log 8). -/
def State.slcCheck (s : State) : State :=
  let s := s.pinsDue.slcUpTo s.now
  if !s.on F.SLC_STATUS.BUSY then s
  else
    let t := s.slc.snap
    let s := { s.wr F.SLC_STATUS.BUSY 0 with slc := { s.slc with snap := [] } }
    if cfgCodeBad t then s.wr F.SLC_STATUS.RESULT 2
    else if s.slcLockBad t then s.wr F.SLC_STATUS.RESULT 3
    else match cfgLoops t with
      | [] => (s.slcApply t).wr F.SLC_STATUS.RESULT 1
      | c :: cs =>
        let (v, s) := s.free
        (s.wr F.SLC_STATUS.RESULT 4).wr F.SLC_STATUS.LOOP_CELL ((c :: cs).getD (v % (c :: cs).length) c)

/-- A write of SLC_CHn_CFG (R374): a locked channel's shadow ignores it; LOCK locks the channel and the cells of its
active source cone. -/
def State.slcChWrite (s : State) (n v : Nat) : State :=
  if s.on (F.SLC_CHn_CFG.LOCK n) then s
  else
    let s := s.writeByCode (R.SLC_CHn_CFG n) v
    if v.testBit 31 then
      let w := cfgWord s.slc.act (R.SLC_CHn_CFG n)
      (cfgCone s.slc.act 32 (codeCells [bitsOf w 0 9, bitsOf w 16 9])).foldl
        (fun s k => s.wr (F.SLC_CELLk_STAT.LOCKED k) 1) s
    else s

/-- Software events (R363); none in Standby, where nothing reaches the register (R376, R515). -/
def State.slcSoft (s : State) (v : Nat) : State :=
  if s.boot.sby = 5 then s
  else (List.range 16).foldl (fun s k => if v.testBit k then s.pulse (0x180 + k) else s) s

/-- A rising edge of FCLK (R370). -/
def State.slcClock (s : State) : State :=
  let s := s.pinsDue.slcUpTo s.now
  let l := s.slc.level
  let v := s.slc.vis
  let q := s.slcCells.foldl (fun a c =>
    if c.reg && !c.clk then setBitN a c.k (cellLut c l s.slcHigh v) else a) s.slc.q
  s.slcTo l s.slcHigh v q v s.now

/-! ### Ownership (R366) -/

/-- Task input (`cls`, `ix`) owns channel `n`. -/
def State.slcOwns (s : State) (cls ix n : Nat) : Bool :=
  s.rd (F.SLC_CHn_STAT.CLASS n) == cls && s.rd (F.SLC_CHn_STAT.INDEX n) == ix

/-- A task input leaves its channel; an event still in its synchroniser does not arrive (R287, R366). -/
def State.slcLeave (s : State) (cls ix n : Nat) : State :=
  let s := { s with slc := { s.slc with due := s.slc.due.filter (fun e => e.1 != cls || e.2.1 != ix) } }
  if s.slcOwns cls ix n then (s.wr (F.SLC_CHn_STAT.CLASS n) 0).wr (F.SLC_CHn_STAT.INDEX n) 0 else s

/-- A task input names channel `n`: it owns a free channel; one already owned is refused. Of two that name it in the same
cycle the lower class, then the lower index, is connected (R366). -/
def State.slcJoin (s : State) (cls ix n : Nat) : State :=
  if s.slcOwns cls ix n then s
  else if s.rd (F.SLC_CHn_STAT.CLASS n) = 0 then
    ((s.wr (F.SLC_CHn_STAT.CLASS n) cls).wr (F.SLC_CHn_STAT.INDEX n) ix).arrive 13 n
  else if s.arrived 13 n ∧ 4096 * cls + ix < 4096 * s.rd (F.SLC_CHn_STAT.CLASS n) + s.rd (F.SLC_CHn_STAT.INDEX n) then
    let s := (s.wr (F.SLC_CHn_STAT.CLASS n) cls).wr (F.SLC_CHn_STAT.INDEX n) ix
    (s.hwSet F.SLC_STATUS.CONS_CONFLICT).wr F.SLC_STATUS.CONFLICT_CH n
  else (s.hwSet F.SLC_STATUS.CONS_CONFLICT).wr F.SLC_STATUS.CONFLICT_CH n

/-- A task register changes from (`en0`, `ch0`) to (`en1`, `ch1`). -/
def State.slcConnect (s : State) (cls ix : Nat) (en0 : Bool) (ch0 : Nat) (en1 : Bool) (ch1 : Nat) : State :=
  let s := if en0 && !(en1 && ch0 == ch1) then s.slcLeave cls ix ch0 else s
  if en1 then s.slcJoin cls ix ch1 else s

/-- The blocks of class `cls` are reset: their task inputs leave (R366, R376). -/
def State.slcDisown (s : State) (cls : Nat) : State :=
  (List.range 64).foldl (fun s n => if s.rd (F.SLC_CHn_STAT.CLASS n) = cls
    then (s.wr (F.SLC_CHn_STAT.CLASS n) 0).wr (F.SLC_CHn_STAT.INDEX n) 0 else s) s

/-- An event waits at task input (`cls`, `ix`): its time and the state without it. A further one of its window still collides
with it (R368). -/
def State.slcTake (s : State) (cls ix : Nat) : Option (Nat × State) :=
  let s := s.pinsDue
  match s.slc.due.find? (fun e => e.1 == cls && e.2.1 == ix) with
  | none => none
  | some e => some (e.2.2, { s with slc := { s.slc with
      due := s.slc.due.erase e, took := e :: s.slc.took.filter (fun x => x.1 != cls || x.2.1 != ix) } })

/-! ### Meanings -/

/-- SLC_COMMIT (R372). -/
def execSlcCommit (v : Nat) (s : State) : Host.Outcome State Fault Refusal := done (s.slcGo v)

/-- SLC_CHECK_DONE (R372, R373). -/
def execSlcCheckDone (s : State) : Host.Outcome State Fault Refusal := done s.slcCheck

/-- SLC_SWEV (R363). -/
def execSlcSwev (v : Nat) (s : State) : Host.Outcome State Fault Refusal := done (s.slcSoft v)

/-- SLC_LOCK (R374): a write of SLC_CHn_CFG with LOCK = 1. -/
def execSlcLock (n v : Nat) (s : State) : Host.Outcome State Fault Refusal := done (s.slcChWrite n (v ||| 2 ^ 31))

/-- CELL_CLOCK_EDGE (R370). -/
def execCellClockEdge (s : State) : Host.Outcome State Fault Refusal := done s.slcClock

end Sys2Proof.Machine
end

