-- ==== Sys2Proof/Machine/Pins.lean ====
section
/-! DEFINITION. Pins and multiplexing (16_pins_and_multiplexing.md R377-R389). -/

namespace Sys2Proof.Machine

/-- The pins of bank `b`. -/
def bankPins (b : Nat) : List Nat := (List.range 16).map (fun j => 16 * b + j)

/-- A filter window of pin `p` ends (R384). -/
def State.pinExpire (s : State) (p : Nat) : State :=
  let s := s.pinsDue
  match (s.pinS p).busy with
  | none => s
  | some t => ((s.reach t).modPin p (fun x => { x with busy := none })).pinFiltered p (s.pinRaw p)

/-- A write of GPIO_PINp_IRQ. Without a filter the level follows at once. -/
def State.pinIrqWrite (s : State) (p v : Nat) : State :=
  let s := s.writeByCode (R.GPIO_PINp_IRQ p) v
  if (s.pinFilt p).1 = 0 then (s.modPin p (fun x => { x with busy := none })).pinFiltered p (s.pinRaw p) else s

/-- A write of GPIO_IRQ_FLAGb: a level condition that holds produces a further event where the write clears the flag (R18,
R385). -/
def State.flagWrite (s : State) (b v : Nat) : State :=
  let old := s.rd (F.GPIO_IRQ_FLAGb.FLAG b)
  let s := s.writeByCode (R.GPIO_IRQ_FLAGb b) v
  (List.range 16).foldl (fun s j =>
    let p := 16 * b + j
    let m := s.rd (F.GPIO_PINp_IRQ.MODE p)
    if old.testBit j && !(s.rd (F.GPIO_IRQ_FLAGb.FLAG b)).testBit j && ((m == 4 && s.pinIn p) || (m == 5 && !s.pinIn p)) then s.pinEvent p else s) s

/-- ACTION of a pin's task input on its output bit (R386). -/
def taskBit (action : Nat) (b : Bool) : Bool :=
  match action with
  | 0 => true
  | 1 => false
  | 2 => !b
  | _ => b

/-- The GPIO block's cycle in which time `t` falls: a PCLK cycle, in Standby an FCLK cycle (R387). -/
def State.gpioCycle (s : State) (t : Nat) : Nat := s.taskWindow 4 t

/-- The task input of pin `p` has acted in the GPIO block's cycle at hand. -/
def State.taskNow (s : State) (p : Nat) : Bool :=
  match (s.pinS p).taskT with
  | some t => s.gpioCycle t == s.gpioCycle s.now
  | none => false

/-- A write that makes the output bits of bank `b` that `mask` names equal `v`; a task action of the same cycle comes
second (R386). -/
def State.gpioSetOut (s : State) (b mask v : Nat) : State :=
  let out := (List.range 16).foldl (fun (o : Nat) j =>
    if !mask.testBit j then o
    else setBitN o j (if s.taskNow (16 * b + j) then taskBit (s.rd (F.GPIO_PINp_TASK.ACTION (16 * b + j))) (v.testBit j)
      else v.testBit j)) (s.rd (F.GPIO_OUTb.OUT b))
  (s.wr (F.GPIO_OUTb.OUT b) out).pinsUpdate (bankPins b)

/-- An event on a pin's task input (R386). -/
def State.gpioTask (s : State) (p : Nat) : State :=
  let s := s.pinsDue
  match s.slcTake 4 p with
  | none => s
  | some (t, s) =>
    let s := (s.reach t).modPin p (fun x => { x with taskT := some t })
    let o := s.rd (F.GPIO_OUTb.OUT (p / 16))
    let b := taskBit (s.rd (F.GPIO_PINp_TASK.ACTION p)) (o.testBit (p % 16))
    (s.wr (F.GPIO_OUTb.OUT (p / 16)) (setBitN o (p % 16) b)).pinUpdate p

/-- A write of GPIO_PINp_TASK (R386, R366). -/
def State.pinTaskWrite (s : State) (p v : Nat) : State :=
  let en := s.on (F.GPIO_PINp_TASK.EN p)
  let ch := s.rd (F.GPIO_PINp_TASK.CH p)
  (s.writeByCode (R.GPIO_PINp_TASK p) v).slcConnect 4 p en ch (v.testBit 6) (bitsOf v 0 6)

/-- V33 against VSENSE after a change (R377): MISMATCH while they differ, and the fault once per occurrence. -/
def State.bankCheck (s : State) (b : Nat) (was : Bool) : State :=
  let s := if s.bankOff b then s.hwSet (F.GPIO_BANKb_CFG.MISMATCH b) else s
  let s := if s.bankOff b && !was then s.fault 0x43 b else s
  s.pinsUpdate (bankPins b)

/-- The sensed supply of a bank changes (R377): 0 is 1.8 V, 1 is 3.3 V, 2 no supply (R490). -/
def State.bankSense (s : State) (b v : Nat) : State :=
  let was := s.bankOff b
  let off := s.boot.unpow.filter (· != b)
  let s := s.pinsDue
  let s := { s with boot := { s.boot with unpow := if v = 2 then b :: off else off } }
  (s.wrB (F.GPIO_BANKb_CFG.VSENSE b) (v == 1)).bankCheck b was

/-- What the reset leaves of a bank is held against its sensed supply (R377). -/
def State.banksCheck (s : State) : State := (List.range 6).foldl (fun s b => s.bankCheck b false) s

/-- A write of GPIO_BANKb_CFG. -/
def State.bankWrite (s : State) (b v : Nat) : State :=
  let was := s.bankOff b
  (s.writeByCode (R.GPIO_BANKb_CFG b) v).bankCheck b was

/-- The pins whose function feeds the capture input of timer `n` (R379). -/
def State.capPins (s : State) (n : Nat) : List Nat :=
  ((List.range 6).map (fun i => 16 * i + n)).filter (fun p => s.func p == 2)

/-- The capture input of timer `n` (R381-R383, R411): the filtered level of the one pin that feeds it, once it does; a pin
in its Standby state feeds none (R388). -/
def State.capInput (s : State) (n : Nat) : Bool :=
  if s.on F.GPIO_SBY_CTRL.HELD then false
  else match s.capPins n with
  | [p] => (s.muxHeld p).isNone && s.pinIn p
  | _ => false

/-- A function that FUNC may name for pin `p` (R379). -/
def funcOk (p f : Nat) : Bool := Nat.blt f 6 && !(f == 4 && Nat.blt 36 p)

/-- A write of PMX_PINp (R379, R382, R383): the old function's input takes its default now; a pin that is left as the one
feeding it begins to feed it. -/
def State.pmxWrite (s : State) (p v : Nat) : State :=
  let f := bitsOf v 0 3
  if f = s.func p then s
  else if !funcOk p f then s.hwSet F.PMX_STATUS.CFG_REJECT
  else
    let was := s.func p
    let s := (s.pinsDue.muxStart p).wr (F.PMX_PINp.FUNC p) f
    let s := if was = 2 then (s.capPins (p % 16)).foldl State.muxStart s else s
    let s := if f = 2 ∧ 1 < (s.capPins (p % 16)).length then
        (s.hwSet F.PMX_STATUS.PMX_CONFLICT).wr F.PMX_STATUS.CONF_INPUT (p % 16) else s
    s.pinUpdate p

/-- The drive from outside on pad `p` changes: 0 low, 1 high, 2 released. -/
def State.pinChange (s : State) (p d : Nat) : State :=
  (s.pinsDue.modPin p (fun x => { x with ext := match d with
    | 0 => some false
    | 1 => some true
    | _ => none })).pinUpdate p

/-- Every pin takes its Standby state, as R382 has it change, and keeps it until it is released (R388, R389). -/
def State.pinsHold (s : State) : State :=
  let s := (List.range 96).foldl (fun (s : State) p =>
    let d := s.padDrive p
    let m := (s.rd (F.GPIO_PINp_SBY.SMODE p), s.rd (F.GPIO_PINp_SBY.SPULL p))
    s.modPin p (fun x => { x with latch := if m.1 = 1 then d else x.latch, sby := some m })) s.pinsDue
  (((List.range 96).foldl State.muxStart s).wr F.GPIO_SBY_CTRL.HELD 1).pinsUpdate (List.range 96)

/-- A write of GPIO_SBY_CTRL (R389): RELEASE after a wake. -/
def State.gpioRelease (s : State) (v : Nat) : State :=
  if v.testBit 0 && s.on F.GPIO_SBY_CTRL.HELD then
    let s := ((List.range 96).foldl State.muxStart s).wr F.GPIO_SBY_CTRL.HELD 0
    ((List.range 96).foldl (fun s p => s.modPin p (fun x => { x with sby := none })) s).pinsUpdate (List.range 96)
  else s

/-- The pins under function TICK_OUT. -/
def State.tickPins (s : State) : List Nat := (List.range 96).filter (fun p => s.func p == 5)

/-- TICK_OUT rises with a tick, for 1 µs (R379). -/
def State.tickOutRise (s : State) : State := ({ s with tickOut := some (s.now + usT) }).pinsUpdate s.tickPins

/-- TICK_OUT falls (R379). -/
def State.tickOutFall (s : State) : State :=
  match s.tickOut with
  | none => s
  | some t => ({ s.reach t with tickOut := none }).pinsUpdate s.tickPins

/-! ### Meanings -/

/-- PMX_WRITE (R379, R382, R383). -/
def execPmxWrite (p v : Nat) (s : State) : Host.Outcome State Fault Refusal := done (s.pmxWrite p v)

/-- PIN_CHANGE (R384). -/
def execPinChange (p d : Nat) (s : State) : Host.Outcome State Fault Refusal := done (s.pinChange p d)

/-- PIN_FILTER_EXPIRE (R384). -/
def execPinFilterExpire (p : Nat) (s : State) : Host.Outcome State Fault Refusal := done (s.pinExpire p)

/-- GPIO_FLAG_CLEAR (R385). -/
def execGpioFlagClear (b v : Nat) (s : State) : Host.Outcome State Fault Refusal := done (s.flagWrite b v)

/-- GPIO_TASK (R386). -/
def execGpioTask (p : Nat) (s : State) : Host.Outcome State Fault Refusal := done (s.gpioTask p)

/-- BANK_SENSE (R377). -/
def execBankSense (b v33 : Nat) (s : State) : Host.Outcome State Fault Refusal := done (s.bankSense b v33)

/-- GPIO_RELEASE (R389). -/
def execGpioRelease (v : Nat) (s : State) : Host.Outcome State Fault Refusal := done (s.gpioRelease v)

/-- TICK_OUT_END (R379). -/
def execTickOutEnd (s : State) : Host.Outcome State Fault Refusal := done s.tickOutFall

end Sys2Proof.Machine
end

