-- ==== Sys2Proof/Machine/Mix.lean ====
section
/-! DEFINITION. The mix: what a sample boundary computes (12_sound.md R294-R324), and what a frame tick does to the
sound unit (R293-R295, R312, R313, R319). -/

namespace Sys2Proof.Machine

/-- The clamp of R297. -/
def clamp24 (x : Int) : Int := clampI (-8388608) 8388607 x

/-- A gain applied to a sample (R297). -/
def gain14 (x g : Int) : Int := x * g / 16384

/-- A value that becomes a sample. Samples are signed 24-bit integers, and the spec states no result where a gain above
unity or a foreign word in the delay's memory takes a value out of that range: a free sample (R297, log 8). -/
def State.sample (s : State) (x : Int) : Int × State :=
  if clamp24 x = x then (x, s)
  else
    let (v, s) := s.free
    (sext 24 v, s)

/-! ### Tone channels (R299, R300) -/

/-- pi in units of 2^-64. -/
def piQ : Nat := 0x3243F6A8885A308D3

/-- A quarter of the sine table: round(8,388,607 sin(2 pi i / 4096)) for `i` to 1,024, by its power series. -/
def sinQuarter (i : Nat) : Nat :=
  let x := i * piQ / 2048
  let x2 := x * x / 2 ^ 64
  let r := [20, 18, 16, 14, 12, 10, 8, 6, 4, 2].foldl (fun r k => 2 ^ 64 - (x2 * r / 2 ^ 64) / (k * (k + 1))) (2 ^ 64)
  (8388607 * (x * r / 2 ^ 64) + 2 ^ 63) / 2 ^ 64

/-- sin24 (R300). -/
def sin24 (q : Nat) : Int :=
  let a := q / 4096 % 4096
  let b := a % 2048
  let v : Int := sinQuarter (if b ≤ 1024 then b else 2048 - b)
  if 2048 ≤ a then -v else v

/-- A tone channel's settings, read once. -/
structure ToneCfg where
  typ : Nat
  alg : Nat
  fb : Nat
  duty : Nat
  level : List Nat
  deriving DecidableEq, Repr

/-- One operator's output (R300). -/
def fmOp (phase level : Nat) (m : Int) : Int := sin24 (((phase : Int) + m) % 0x1000000).toNat * level / 32768

/-- gen of an FM channel, and operator 3's output (R300). -/
def fmGen (c : ToneCfg) (x : ToneS) : Int × Int :=
  let ph := fun k => x.ops.getD k 0
  let lv := fun k => c.level.getD k 0
  let fbm : Int := if c.fb = 0 then 0 else (x.o3a + x.o3b) / (2 ^ (9 - c.fb) : Nat)
  let o3 := fmOp (ph 3) (lv 3) fbm
  match c.alg with
  | 0 =>
    let o2 := fmOp (ph 2) (lv 2) o3
    (fmOp (ph 0) (lv 0) (fmOp (ph 1) (lv 1) o2), o3)
  | 1 =>
    let o2 := fmOp (ph 2) (lv 2) 0
    (fmOp (ph 0) (lv 0) (fmOp (ph 1) (lv 1) (o3 + o2)), o3)
  | 2 =>
    let o2 := fmOp (ph 2) (lv 2) o3
    (clamp24 (o2 + fmOp (ph 0) (lv 0) (fmOp (ph 1) (lv 1) 0)), o3)
  | _ => (clamp24 (fmOp (ph 0) (lv 0) 0 + fmOp (ph 1) (lv 1) 0 + fmOp (ph 2) (lv 2) 0 + o3), o3)

/-- gen of a tone channel (R299), and operator 3's output. -/
def toneGen (c : ToneCfg) (x : ToneS) : Int × Int :=
  match c.typ with
  | 0 => (if x.phase / 65536 < c.duty then 0x400000 else -0x400000, 0)
  | 1 =>
    let u := x.phase / 256
    ((if u < 32768 then 2 * (u : Int) - 32768 else 98303 - 2 * (u : Int)) * 128, 0)
  | 2 => (if x.lfsr.testBit 0 then 0x400000 else -0x400000, 0)
  | _ => fmGen c x

/-- The phases of a channel advance (R299, R300); the LFSR steps when p wraps. -/
def toneAdvance (inc : Nat) (mult : List Nat) (x : ToneS) : ToneS :=
  let p := x.phase + inc
  let l := if 0x1000000 ≤ p then
    (2 * x.lfsr) % 2 ^ 23 + (if x.lfsr.testBit 22 == x.lfsr.testBit 17 then 0 else 1) else x.lfsr
  let ops := (List.range 4).map (fun k =>
    let m := mult.getD k 0
    (x.ops.getD k 0 + (if m = 0 then inc / 2 else inc * m)) % 0x1000000)
  { x with phase := p % 0x1000000, lfsr := l, ops := ops }

/-- A STARTING channel or voice runs from this boundary on: its attack begins, or, with ENABLE = 0 by now, its release
(R53, R304). -/
def startEnv (t attack release : Nat) (en : Bool) : Ramp :=
  let a : Ramp := Ramp.step t { g1 := 0x8000, n := attack, start := t }
  if en then a else a.to 0 release (t + 1)

/-- One tone channel at a boundary at `t`: its output with GAIN applied (R299, R303, R304). -/
def State.toneStep (s : State) (c t : Nat) (g : Int) : Int × State :=
  let ops := (List.range 4).map (fun k => s.reg (R.AUD_Tc_OPk c k))
  let s := s.modTone c (toneAdvance (s.rd (F.AUD_Tc_FREQ.INC c)) (ops.map (fun w => bitsOf w 16 4)))
  let w := s.reg (R.AUD_Tc_CTRL c)
  let st := bitsOf w 2 2
  let x := s.toneS c
  let begin_ := st == 1 && decide (x.start ≤ t)
  if st = 0 ∨ (st = 1 ∧ !begin_) then (0, s)
  else
    let en := w.testBit 0
    let env := if begin_ then startEnv t (s.rd (F.AUD_Tc_ENV.ATTACK c)) (s.rd (F.AUD_Tc_ENV.RELEASE c)) en
      else x.env.step t
    let st := if begin_ then (if en then 2 else 3) else st
    let cfg : ToneCfg := { typ := bitsOf w 4 2, alg := bitsOf w 6 2, fb := bitsOf w 8 3,
                           duty := s.rd (F.AUD_Tc_PARAM.DUTY c), level := ops.map (fun w => bitsOf w 0 16) }
    let (gen, o3) := toneGen cfg x
    let (out, s) := s.sample (gain14 (gen * env.val / 32768) g)
    let s := s.modTone c (fun x => { x with env := env, o3b := x.o3a, o3a := o3 })
    let s := s.wr (F.AUD_Tc_CTRL.STATE c) st
    if st = 3 ∧ env.ended then
      let s := s.wr (F.AUD_Tc_CTRL.STATE c) 0
      (out, if s.on (F.AUD_Tc_CTRL.ENABLE c) then s.toneOn c else s)
    else (out, s)

/-! ### Voices (R301-R305) -/



/-- `n` bytes (at most 32) of sample memory at `a`; none where a block has no content. -/
def State.voiceBytes (s : State) (v a n : Nat) : Option (List Byte) × State :=
  let (b0, s) := s.voiceBlk v (a / 32)
  if a % 32 + n ≤ 32 then (if b0 = [] then none else some ((b0.drop (a % 32)).take n), s)
  else
    let (b1, s) := s.voiceBlk v (a / 32 + 1)
    (if b0 = [] ∨ b1 = [] then none else some (((b0 ++ b1).drop (a % 32)).take n), s)



/-- Sample `i` of a voice is not present: its HBM block is not in the voice's buffer, and the HBM does not answer yet
(R305, R517). -/
def State.voiceShut (s : State) (v i : Nat) : Bool :=
  let (a, n) := s.voiceAt v i
  !s.hbmOpen && decide (i < s.rd (F.AUD_Vv_LEN.LEN v)) && [a / 32, (a + n - 1) / 32].any (fun b =>
    regionOf s.gib (32 * b % 2 ^ 40) == .hbm && (Tbl.find (s.voiceS v).buf b).isNone)

/-- One step of the ADPCM decoder (R302): predictor and step index. -/
def adpcmStep (r : Int × Nat) (nib : Nat) : Int × Nat :=
  let n := sext 4 nib
  let step : Int := ((8 + r.2 % 8) * 2 ^ (r.2 / 8) : Nat)
  let pred := clampI (-32768) 32767 (r.1 + (2 * n + 1) * step / 8)
  let m := (if 0 ≤ n then n else -n - 1).toNat
  let adj : Int := [-1, -1, -1, -1, 2, 4, 6, 8].getD m 0
  (pred, (clampI 0 95 (r.2 + adj)).toNat)

/-- Sample `j` of an ADPCM block (R301, R302). -/
def adpcmSample (b : List Byte) (j : Nat) : Int :=
  let nib := fun k => let x := leAt b (4 + k / 2) 1; if k % 2 = 0 then x % 16 else x / 16
  let r := (List.range (j + 1)).foldl (fun r k => adpcmStep r (nib k)) (sext 16 (leAt b 0 2), leAt b 2 1)
  r.1 * 256

/-- The bytes `b` at `a` form a sample as R301 has it: an even address of a PCM sample, an aligned ADPCM block with a step
index of at most 95. -/
def sampleForm (a n : Nat) (b : List Byte) : Bool :=
  if n = 2 then a % 2 == 0 else a % 32 == 0 && Nat.ble (leAt b 2 1) 95

/-- s[i] of a voice; 0 past LEN, and 0 where its bytes met an error (R301, R303, R305). Bytes that break the form of R301
give a free sample (log 8). -/
def State.voiceSample (s : State) (v i : Nat) : Int × State :=
  if s.rd (F.AUD_Vv_LEN.LEN v) ≤ i then (0, s)
  else
    let (a, n) := s.voiceAt v i
    match s.voiceBytes v a n with
    | (none, s) => (0, s)
    | (some b, s) =>
      if sampleForm a n b then (if n = 2 then sext 16 (leVal b) * 256 else adpcmSample b (i % 56), s)
      else
        let (v, s) := s.free
        (sext 24 v, s)

/-- The voice is OFF: a preset that waits is loaded and started, or a start that was held begins (R53, R307). -/
def State.voiceEnd (s : State) (v t : Nat) : State :=
  let s := s.wr (F.AUD_Vv_CTRL.STATE v) 0
  match (s.voiceS v).next with
  | some p => (s.modVoice v (fun x => { x with next := none })).presetStart v t p
  | none => if s.on (F.AUD_Vv_CTRL.ENABLE v) then s.voiceOn v t else s

/-- The end of a voice that does not loop (R303). -/
def State.voiceDone (s : State) (v t : Nat) : State :=
  let s := (s.wr (F.AUD_Vv_CTRL.ENABLE v) 0).arrive 11 v
  let s := ((s.hwSetBit (F.AUD_VENDi.END (v / 32)) (v % 32)).irq 129).pulse 0x058
  s.voiceEnd v t

/-- One voice at a boundary at `t` with `late` set where its sample is not present: its output with GAIN applied
(R303-R305). -/
def State.voiceStep (s : State) (v t : Nat) (late : Bool) (g : Int) : Int × State :=
  let w := s.reg (R.AUD_Vv_CTRL v)
  let st := bitsOf w 2 2
  let x := s.voiceS v
  let begin_ := st == 1 && decide (x.start ≤ t)
  if st = 0 ∨ (st = 1 ∧ !begin_) then (0, s)
  else
    let en := w.testBit 0
    let env := if begin_ then startEnv t (s.rd (F.AUD_Vv_ENV.ATTACK v)) (s.rd (F.AUD_Vv_ENV.RELEASE v)) en
      else x.env.step t
    let st := if begin_ then (if en then 2 else 3) else st
    let s := s.wr (F.AUD_Vv_CTRL.STATE v) st
    let len := s.rd (F.AUD_Vv_LEN.LEN v)
    let loop := w.testBit 5
    let ls := s.rd (F.AUD_Vv_LOOP_START.START v)
    let i := x.pos / 65536
    let i1 := if loop && i + 1 == len then ls else i + 1
    let late := late || s.voiceShut v i || s.voiceShut v i1
    let (a, s) := s.voiceSample v i
    let (b, s) := s.voiceSample v i1
    let y := if late then 0 else a + (b - a) * ((x.pos % 65536 : Nat) : Int) / 65536
    let s := if late then s.flag (F.AUD_Vv_STATUS.UNDERRUN v) 130 else s
    let s := if late && !s.aud.underrun then (s.modAud (fun a => { a with underrun := true })).fault 0x29 v else s
    let (out, s) := s.sample (gain14 (y * env.val / 32768) g)
    let pos := (x.pos + s.rd (F.AUD_Vv_PITCH.PITCH v)) % 2 ^ 48
    let past := decide (len ≤ pos / 65536)
    let back := (((pos : Int) - ((len : Int) - ls) * 65536) % 2 ^ 48).toNat
    let s := s.modVoice v (fun x => { x with env := env, pos := if past && loop then back else pos })
    if past && !loop then (out, s.voiceDone v t)
    else if st = 3 ∧ env.ended then (out, s.voiceEnd v t)
    else (out, s.voicePre v)

/-! ### Sends and buses (R309-R318) -/

/-- A value added to a bus sum. -/
def addBus (l : List Int) (b : Nat) (v : Int) : List Int := l.set b (l.getD b 0 + v)

/-- A source's output goes to its sends (R309, R312). -/
def State.mixIn (s : State) (src : Nat) (x : Int) (l : List Int) : List Int :=
  (List.range 4).foldl (fun l k =>
    let d := s.sendS (4 * src + k)
    let l := d.fades.foldl (fun l f => addBus l f.1 (gain14 x f.2.val)) l
    if d.en then addBus l d.bus (gain14 x (s.sendRamp src k).val) else l) l

/-- The ramps of gains and sends step; those that are over end (R298, R312). -/
def State.rampsStep (s : State) (t : Nat) : State :=
  let live := fun (r : Ramp) => if r.ended then none else some (r.step t)
  s.modAud (fun a => { a with
    gains := a.gains.filterMap (fun e => (live e.2).map (fun r => (e.1, r)))
    send := a.send.filterMap (fun e =>
      let x : SendS := { e.2 with gain := e.2.gain.bind live,
                                  fades := e.2.fades.filterMap (fun f => (live f.2).map (fun r => (f.1, r))) }
      if x = {} then none else some (e.1, x)) })

/-- One biquad band (R315): coefficients b0, b1, b2, a1, a2. -/
def biquad (c : List Int) (st : Int × Int × Int × Int) (x : Int) : Int × (Int × Int × Int × Int) :=
  let (x1, x2, y1, y2) := st
  let acc := c.getD 0 0 * x + c.getD 1 0 * x1 + c.getD 2 0 * x2 - c.getD 3 0 * y1 - c.getD 4 0 * y2
  let y := clamp24 ((sext 64 (wrapNat 64 acc) + 2 ^ 28) / 2 ^ 29)
  (y, (x, x1, y, y1))

/-- The EQ of a bus (R315): bands named by APPLY are loaded first. -/
def State.busEq (s : State) (b t : Nat) (x : Int) : Int × State :=
  let u := s.busS b
  let s := if u.apply ≠ 0 ∧ u.applyAt ≤ t then
      (List.range 8).foldl (fun s k =>
        if !u.apply.testBit k then s
        else (List.range 5).foldl (fun s i => s.modBus b (fun y =>
          { y with coef := Tbl.set (if i = 0 then 0x20000000 else 0) y.coef (5 * k + i)
                             (s.reg (R.AUD_Bb_EQk_B0 b k + 4 * i)) })) s)
        (s.modBus b (fun y => { y with apply := 0 }))
    else s
  if !s.on (F.AUD_Bb_CTRL.EQ_EN b) then (x, s)
  else (List.range 8).foldl (fun (r : Int × State) k =>
    let u := r.2.busS b
    let c := (List.range 5).map (fun i => sext 32 (Tbl.get (if i = 0 then 0x20000000 else 0) u.coef (5 * k + i)))
    let (y, st) := biquad c (Tbl.get (0, 0, 0, 0) u.st k) r.1
    (y, r.2.modBus b (fun u => { u with st := Tbl.set (0, 0, 0, 0) u.st k st }))) (x, s)

/-- The delay of a bus (R316): read the tap, then write the sample; an error gives 0. -/
def State.busDelay (s : State) (b t : Nat) (x : Int) : Int × State :=
  if !s.on (F.AUD_Bb_CTRL.DLY_EN b) then (x, s)
  else
    let n := max 48 (s.rd (F.AUD_Bb_GAIN.RAMP b))
    let u := s.busS b
    let s := match u.fade, u.dlyNew with
      | none, some (d, at_) => if t < at_ then s
        else s.modBus b (fun y => { y with tap := d, dlyNew := none,
                                           fade := if d = y.tap then none else some (y.tap, { g1 := 0x4000, n := n, start := t }) })
      | _, _ => s
    let u := s.busS b
    let ix := u.dlyIx.getD 0
    let base := s.reg (R.AUD_Bb_DLY_BASE b) * 256
    let read := fun (s : State) (d : Nat) =>
      if d = 0 then (x, s)
      else if u.dlyBad then (0, s)
      else match s.busRead 0x83 ((base + 4 * ((ix + 96000 - d) % 96000)) % 2 ^ 40) 4 with
        | (.ok bs, s) => s.sample (sext 32 (leVal bs))
        | (_, s) => ((0 : Int), s)
    let (y, s) := read s u.tap
    let (y, s) := match u.fade with
      | none => (y, s)
      | some (d, r) =>
        let r := r.step t
        let (z, s) := read s d
        (gain14 y r.val + gain14 z (0x4000 - r.val), s.modBus b (fun u => { u with fade := if r.ended then none else some (d, r) }))
    let s := s.postWrite 0x83 ((base + 4 * ix) % 2 ^ 40) (leBytes 4 (wrapNat 32 x))
    (y, s.modBus b (fun u => { u with dlyIx := some ((ix + 1) % 96000), dlyBad := false }))

/-- log2 of a positive number in units of 2^-16. -/
def log2Q (x : Nat) : Nat :=
  let e := Nat.log2 x
  let m := if e ≤ 31 then x * 2 ^ (31 - e) else x / 2 ^ (e - 31)
  let r := (List.range 16).foldl (fun (a : Nat × Nat) _ =>
    let m := a.1 * a.1 / 2 ^ 31
    if 2 ^ 32 ≤ m then (m / 2, 2 * a.2 + 1) else (m, 2 * a.2)) (m, 0)
  e * 65536 + r.2

/-- The level of a sample in dBFS, in units of 2^-16 of 1/256 dB: 20 log10 of its share of full scale (R317). -/
def levelQ (x : Int) : Int := ((log2Q x.natAbs : Int) - 23 * 65536) * 101008905 / 65536

/-- exp(y) and exp(-y), with `y` and the result in units of 2^-32, for `y` up to 1, by their power series. -/
def expUp (y : Nat) : Nat := [12, 11, 10, 9, 8, 7, 6, 5, 4, 3, 2, 1].foldl (fun r k => 2 ^ 32 + y * r / (k * 2 ^ 32)) (2 ^ 32)
def expDown (y : Nat) : Nat := [12, 11, 10, 9, 8, 7, 6, 5, 4, 3, 2, 1].foldl (fun r k => 2 ^ 32 - y * r / (k * 2 ^ 32)) (2 ^ 32)

/-- The factor of a gain of `g` / 256 dB, in units of 2^-32. -/
def dbGain (g : Int) : Nat :=
  let m := g * 713378626
  let e := m / 2 ^ 40
  let r := expUp ((m % 2 ^ 40).toNat * 2977044472 / 2 ^ 40)
  if 0 ≤ e then r * 2 ^ e.toNat else r / 2 ^ (-e).toNat

/-- The reduction that THRESH and RATIO give for a level, in units of 2^-16 of 1/256 dB (R317). -/
def compTarget (thresh ratio : Nat) (level : Int) : Int :=
  let above := level - sext 16 thresh * 65536
  if above ≤ 0 then 0 else if ratio = 0 then above else above * ((ratio : Int) - 256) / ratio

/-- The reduction moves towards its target with the time constant of `n` samples (R317). -/
def compMove (g target : Int) (n : Nat) : Int :=
  if n = 0 then target else g + (target - g) * ((2 ^ 32 - expDown (2 ^ 32 / n) : Nat) : Int) / 2 ^ 32

/-- The compressor of a bus (R317). The manual gives its gain to 0.1 dB only: the error within that is free (log 8), and how
the reduction moves between levels is a choice of the model (log 87). -/
def State.busComp (s : State) (b : Nat) (x : Int) : Int × State :=
  if !s.on (F.AUD_Bb_CTRL.COMP_EN b) then (x, s)
  else
    let la := min 96 (s.rd (F.AUD_Bb_COMP2.LA b))
    let h := x :: (s.busS b).la
    let d := h.getD la 0
    let g := (s.busS b).gr
    let target := if x = 0 then 0 else compTarget (s.rd (F.AUD_Bb_COMP0.THRESH b)) (s.rd (F.AUD_Bb_COMP0.RATIO b)) (levelQ x)
    let g := compMove g target (if g < target then s.rd (F.AUD_Bb_COMP1.ATTACK b) else s.rd (F.AUD_Bb_COMP1.RELEASE b))
    let s := s.modBus b (fun u => { u with la := h.take 96, gr := g })
    let (f, s) := s.free
    let shown : Int := g / 65536 + ((f % 51 : Nat) : Int) - 25
    let s := s.wr (F.AUD_Bb_STATUS.GR b) (wrapNat 16 shown)
    s.sample (d * (dbGain (sext 16 (s.rd (F.AUD_Bb_COMP2.MAKEUP b)) - shown) : Nat) / 2 ^ 32)

/-- One bus at a boundary (R311, R314): its output. -/
def State.busStep (s : State) (b t : Nat) (sum : Int) : Int × State :=
  let x := clamp24 sum
  let s := if x = sum then s
    else
      let s := s.flag (F.AUD_Bb_STATUS.CLIP b) 130
      if s.aud.clipped.contains b then s
      else (s.modAud (fun a => { a with clipped := b :: a.clipped })).fault 0x2A b
  let (x, s) := s.busEq b t x
  let (x, s) := s.busDelay b t x
  let (x, s) := s.busComp b x
  s.sample (gain14 x (s.gainRamp (512 + b)).val)

/-! ### TDM ports (R319-R323) -/

/-- The ramp after a loss of lock has ended: LOCK clears and IN_UNLOCK is raised, once per loss (R323). -/
def State.inLost (s : State) (i : Nat) : State :=
  let s := s.wr (F.AUD_Ip_CTRL.LOCK i) 0
  let s := if s.rd (F.AUD_Ip_CTRL.STATE i) = 2 then s.wr (F.AUD_Ip_CTRL.STATE i) 1 else s
  ((s.modIn i (fun x => { x with run := 0, ref := 0, moved := false, losing := false })).fault 0x2B i).irq 130

/-- The slots of an input port at a boundary at `t` (R323): they stand for the instant 33 boundaries before, 1 for receipt and
32 for the converter (R324). -/
def State.inStep (s : State) (i t : Nat) : List Int × State :=
  let s := s.modIn i (fun x => { x with gain := x.gain.step t })
  let x := s.inS i
  let s := if x.losing && x.gain.ended then s.inLost i else s
  let s := if s.rd (F.AUD_Ip_CTRL.STATE i) = 3 ∧ x.gain.ended then
      ((s.wr (F.AUD_Ip_CTRL.STATE i) 0).wr (F.AUD_Ip_CTRL.LOCK i) 0).inFollow i
    else s
  let data := s.rd (F.AUD_Ip_FMT.DATA i)
  let n := if s.rd (F.AUD_Ip_FMT.MODE i) % 3 = 0 then 2 else s.rd (F.AUD_Ip_FMT.SLOTS_M1 i) + 1
  let at_ := s.aud.marks.getD 32 0
  ((List.range n).map (fun j =>
    let h := x.frames.map (fun f => ((f.1 : Int) - at_, slotIn data (f.2.getD j 0)))
    gain14 (clamp24 (Config.rateConvert h)) x.gain.val), s)

/-- A bus value as slot data of code `data` (R319). -/
def slotOut (data : Nat) (v : Int) : Int :=
  if data = 0 then clampI (-32768) 32767 ((v + 128) / 256) else if data = 1 then v else v * 256

/-- A bus value as the word of a slot: its DATA bits first, the bits beyond them 0 (R319, R320). -/
def slotWord (width data : Nat) (v : Int) : Nat :=
  wrapNat (tdmBits data) (slotOut data v) * 2 ^ (tdmBits width - tdmBits data)

/-- Where FS is high in a frame of `n` slots of `w` bits: its first bit relative to bit 0 of slot 0, and a length (R320).
FS_DELAY acts in MODE 1 alone (log 57). -/
def tdmSync (mode n w fsDelay : Nat) : Int × Nat :=
  match mode with
  | 0 => ((w : Int) - 1, w)
  | 1 => (-(fsDelay : Int), 1)
  | 2 => (0, n * w / 2)
  | _ => (0, w)

/-- A slot's crossfade at a boundary at `t`; a change held back begins where it has ended (R319). -/
def SlotS.step (t : Nat) (x : SlotS) : SlotS :=
  match x.fade with
  | none => x
  | some (o, r) =>
    let r := r.step t
    if !r.ended then { x with fade := some (o, r) }
    else match x.held with
      | some h => { bus := h, fade := some (x.bus, { g1 := 0x4000, n := 480, start := t + 1 }) }
      | none => { x with fade := none }

/-- The slots of an output port at a boundary at `t`: crossfades step in every state of the port (R319). -/
def State.slotStep (s : State) (p t : Nat) : List SlotS × State :=
  let slots := (List.range 16).map (fun j =>
    SlotS.step t (Tbl.get { bus := s.act (F.AUD_Op_SLOTj.BUS p j) } (s.outS p).slot j))
  let fading := ((List.range 16).zip slots).filter (fun e => e.2.fade.isSome)
  let s := fading.foldl (fun (s : State) (e : Nat × SlotS) =>
    if s.act (F.AUD_Op_SLOTj.BUS p e.1) = e.2.bus then s else s.wrAct (F.AUD_Op_SLOTj.BUS p e.1) e.2.bus) s
  (slots, if fading = [] ∧ (s.outS p).slot = [] then s else s.modOut p (fun x => { x with slot := fading }))

/-- The next boundary after the one at `t`, for the frame of an output port that begins there (R294, R321). -/
def State.boundaryAfter (s : State) (t : Nat) : Nat :=
  let a := s.aud
  let sf := s.rd F.AUD_CLK_STATUS.LAST_S
  if s.running && a.live && decide (a.placed + 1 < sf) then a.tTick + (a.placed + 1) * a.len / sf
  else match s.tick.at_ with
    | some u => if s.running && decide (t < u) then min u (t + 12500) else t + 12500
    | none => t + 12500

/-- One output port at a boundary at `t` with bus outputs `l` (R319-R322, R467). A boundary in the ECLK of a write of ENABLE
does not count for the 96 samples of STOPPING (R298, R322). -/
def State.outStep (s : State) (p t : Nat) (l : List Int) : State :=
  let st := s.rd (F.AUD_Op_CTRL.STATE p)
  let (slots, s) := s.slotStep p t
  let x := s.outS p
  if st = 0 ∨ (st = 1 ∧ t < x.start) then s
  else
    let val := fun b => if b < 32 then l.getD b 0 else (0 : Int)
    let now := slots.map (fun e => match e.fade with
      | none => val e.bus
      | some (o, r) => gain14 (val e.bus) r.val + gain14 (val o) (0x4000 - r.val))
    let delay := 2 + s.rd (F.AUD_Op_CTRL.PDELAY p)
    let hist := (now :: x.hist).take (delay + 1)
    let early := st == 1 && decide (x.cnt < 48)
    let gain := if st = 1 ∧ !early then Ramp.step t { g1 := 0x4000, n := 48, start := t } else x.gain.step t
    let data := s.rd (F.AUD_Op_FMT.DATA p)
    let width := s.rd (F.AUD_Op_FMT.WIDTH p)
    let mode := s.rd (F.AUD_Op_FMT.MODE p)
    let n := if mode % 3 = 0 then 2 else s.rd (F.AUD_Op_FMT.SLOTS_M1 p) + 1
    let frame := (List.range n).map (fun j =>
      slotWord width data (gain14 (gain14 ((hist.getD delay []).getD j 0) gain.val) s.aud.frz.val))
    let fs := tdmSync mode n (tdmBits width) (s.rd (F.AUD_Op_FMT.FS_DELAY p))
    let cnt := if st = 3 ∧ t < x.start then x.cnt else x.cnt + 1
    let cur : TdmFrame := { t0 := t, t1 := s.boundaryAfter t, width := tdmBits width, slots := frame, fsAt := fs.1, fsLen := fs.2
                            bclkInv := s.on (F.AUD_Op_FMT.BCLK_INV p), fsInv := s.on (F.AUD_Op_FMT.FS_INV p) }
    let s := s.modOut p (fun x => { x with hist := hist, gain := gain, cnt := cnt, cur := some cur })
    let s := s.emit (.tdm p t cur.width frame fs.1 fs.2 cur.bclkInv cur.fsInv)
    if st = 1 ∧ !early then (s.wr (F.AUD_Op_CTRL.STATE p) 2).outFollow p
    else if st = 3 ∧ 96 ≤ cnt then
      ((s.wr (F.AUD_Op_CTRL.STATE p) 0).modOut p (fun x => { x with cur := none })).outFollow p
    else s

/-- A slot of an output port at a tick, or at a write while no ticks come: a change of bus crossfades from boundaries at `t`
on, or waits for the crossfade in progress (R298, R319). `old` is the bus in force before; the change is the one the tick
takes (R18). -/
def State.slotTick (s : State) (p j old t : Nat) : State :=
  let cur := Tbl.get ({ bus := old } : SlotS) (s.outS p).slot j
  let new := s.act (F.AUD_Op_SLOTj.BUS p j)
  let put := fun (s : State) (e : SlotS) => s.modOut p (fun x => { x with slot := x.slot.put j e })
  if cur.fade.isNone then
    if cur.bus = new then s
    else put s { bus := new, fade := some (cur.bus, { g1 := 0x4000, n := 480, start := t }) }
  else
    let s := put s { cur with held := if cur.bus = new then none else some new }
    if cur.bus = new then s else s.wrAct (F.AUD_Op_SLOTj.BUS p j) cur.bus

/-! ### The boundary (R294, R296) -/

/-- The time of the next boundary, whether it is one past S_f, and whether it may come at all before the tick. -/
def State.nextBoundary (s : State) : Nat × Bool :=
  let a := s.aud
  let sf := s.rd F.AUD_CLK_STATUS.LAST_S
  if s.running && a.live then
    if a.placed < sf then (a.tTick + a.placed * a.len / sf, false) else (a.last + 12500, true)
  else (a.last + 12500, false)

/-- The slots are silenced by a freeze, or come back (R467, R469). -/
def State.frzStep (s : State) (t : Nat) : State :=
  let frozen := s.rd F.FLT_STATUS.STATE == 2
  let goal : Int := if frozen then (if s.on F.FLT_CTRL.FREEZE_AUDIO then 0 else 0x4000)
    else if s.recoverWaits then s.aud.frz.g1 else 0x4000
  let r := s.aud.frz
  let r := if r.g1 = goal then r else r.to goal (if goal = 0 then 48 else 480) t
  s.modAud (fun a => { a with frz := r.step t })

/-- What a boundary at `t` computes; `late`: voices whose sample is not present. -/
def State.mix (s : State) (t : Nat) (late : List Nat) : State :=
  let s := ((s.frzStep t).trigAll t).rampsStep t
  let zero : List Int := List.replicate 32 0
  let (l, s) := (List.range 64).foldl (fun (r : List Int × State) c =>
    let (x, s) := r.2.toneStep c t (r.2.gainRamp c).val
    (s.mixIn c x r.1, s)) (zero, s)
  let (l, s) := (s.aud.voice.map (·.1)).foldl (fun (r : List Int × State) v =>
    let (x, s) := r.2.voiceStep v t (late.contains v) (r.2.gainRamp (64 + v)).val
    (s.mixIn (64 + v) x r.1, s)) (l, s)
  let (l, s) := (List.range 4).foldl (fun (r : List Int × State) i =>
    if r.2.rd (F.AUD_Ip_CTRL.STATE i) = 0 then r
    else
      let (xs, s) := r.2.inStep i t
      (((List.range 16).zip xs).foldl (fun l e => s.mixIn (448 + 16 * i + e.1) e.2 l) r.1, s)) (l, s)
  let (l, s) := (List.range 32).foldl (fun (r : List Int × State) b =>
    let (x, s) := r.2.busStep b t (r.1.getD b 0)
    (s.mixIn (512 + b) x (r.1.set b x), s)) (l, s)
  (List.range 8).foldl (fun s p => s.outStep p t l) s

/-- SAMPLE_BOUNDARY: the next boundary, unless the tick comes first; none while PORST_N is low. The sample count goes on from
the first tick of a wake (R457). -/
def State.boundary (s : State) (late : List Nat) : State :=
  let (t, slip) := s.nextBoundary
  if s.boot.sby = 5 || s.boot.tripped || s.boot.porst then s
  else if s.running && (match s.tick.at_ with
      | some a => decide (a ≤ t)
      | none => false) then s
  else
    let s := (s.reach t).pinsDue
    let s := (s.mix t late).audWaves
    let s := if slip then s.incRc F.AUD_SLIP.SLIP else s
    s.modAud (fun a => { a with placed := a.placed + 1, last := t, marks := (t :: a.marks).take 33
                                scnt := if s.boot.sby = 6 then a.scnt else (a.scnt + 1) % 2 ^ 48 })

/-- The sound unit at a frame tick, once the next tick has been placed: S_f of the frame (R293), samples dropped (R294),
RATE_ERR (R295). -/
def State.audTick (s : State) : State :=
  let sf0 := s.rd F.AUD_CLK_STATUS.LAST_S
  let s := if s.aud.live then s.incRcBy F.AUD_SLIP.SHORT (sf0 - s.aud.placed) else s
  let base := s.act F.AUD_SPF.BASE
  let num := s.act F.AUD_SPF.NUM
  let den := s.act F.AUD_SPF.DEN
  let acc := if s.aud.spf.any (fun e => decide (e.1 < s.now)) then (if den = 0 then 0 else den - num) else s.rd F.AUD_CLK_STATUS.ACC
  let sum := acc + num
  let long := decide (den ≠ 0) && decide (den ≤ sum)
  let sf := if long then base + 1 else base
  let s := (s.wr F.AUD_CLK_STATUS.ACC (if long then sum - den else sum)).wr F.AUD_CLK_STATUS.LAST_S sf
  let len := match s.tick.at_ with
    | some a => a - s.now
    | none => 0
  let s := s.modAud (fun a => { a with spf := a.spf.bind (fun e => if e.2 = s.now then some (e.2, e.2) else none), tTick := s.now, len := len, placed := 0, live := true,
                                       underrun := false, clipped := [] })
  let diff := if len < sf * 12500 then sf * 12500 - len else len - sf * 12500
  if sf * 12 < diff then (s.flag F.AUD_CLK_STATUS.RATE_ERR 130).fault 0x28 0 else s

/-- The routes at a tick (R312, R313, R319); `slots` are the slot buses in force before it. -/
def State.audRoutes (s : State) (slots : List (Nat × Nat × Nat)) : State :=
  let s := s.sendList.foldl (fun s e => s.routeTick e.1 e.2) s
  slots.foldl (fun s e => s.slotTick e.1 e.2.1 e.2.2 s.now) s

/-- The slots whose bus may change at the tick: port, slot, bus in force. -/
def State.slotList (s : State) : List (Nat × Nat × Nat) :=
  (List.range 8).flatMap (fun p => (List.range 16).filterMap (fun j =>
    let o := R.AUD_Op_SLOTj p j
    if s.actReg o = s.reg o ∧ (Tbl.find (s.outS p).slot j).isNone then none
    else some (p, j, s.act (F.AUD_Op_SLOTj.BUS p j))))

/-- SAMPLE_BOUNDARY (R294). -/
def execSampleBoundary (late : List Nat) (s : State) : Host.Outcome State Fault Refusal := done (s.boundary late)

end Sys2Proof.Machine
end

