-- ==== Sys2Proof/Machine/Mailbox.lean ====
section
/-! DEFINITION. The command mailbox, the completion queues and the MSI-X interrupts of the host port (22_host_port.md
R480-R487), and the checks of tagged commands (19_identity_and_sessions.md R430, R433). -/

namespace Sys2Proof.Machine

/-- The state with the host port changed by `f`. -/
def State.modHst (s : State) (f : HostS → HostS) : State := { s with hst := f s.hst }

/-- A W1C flag of HST_STATUS is set: an event of source 64. -/
def State.hstFlag (s : State) (f : Fld) : State := s.flag f 64

/-- PME is sent (R475, R487). -/
def State.pmeSend (s : State) : State := (s.modHst (fun h => { h with cfg := { h.cfg with pme := true } })).emit .pme

/-! ### MSI-X (R475, R486, R487) -/

/-- A word of the MSI-X table; vectors start masked. -/
def State.msixWord (s : State) (i : Nat) : Nat :=
  match Tbl.find s.hst.msix i with
  | some w => w.toNat
  | none => if i % 4 = 3 then 1 else 0

def State.cqS (s : State) (q : Nat) : CqS := Tbl.get {} s.hst.cq q
def State.modCq (s : State) (q : Nat) (f : CqS → CqS) : State :=
  s.modHst (fun h => { h with cq := Tbl.set {} h.cq q (f (Tbl.get {} h.cq q)) })

/-- The message of a queue's vector is sent (R486); a reset that waited for it falls due 1 ms later (R483). -/
def State.msixSend (s : State) (q : Nat) : State :=
  let v := s.rd (F.HST_CQq_CFG.VEC q)
  let s := s.wr F.HST_LINK.L1 0
  let s := s.emit (.msix (s.msixWord (4 * v) + s.msixWord (4 * v + 1) * 2 ^ 32) (s.msixWord (4 * v + 2)))
  let s := (s.modCq q (fun c => { c with held := false })).modHst (fun h => { h with pba := h.pba.del v })
  if s.hst.resetOn = some q then s.modHst (fun h => { h with resetOn := none, resetAt := some (s.now + msT) }) else s

/-- A held interrupt of queue `q` is sent, or stays held: in D3hot, with MSI-X disabled, or masked (R487). -/
def State.msixTry (s : State) (q : Nat) : State :=
  let v := s.rd (F.HST_CQq_CFG.VEC q)
  if !(s.cqS q).held then s
  else if s.on F.HST_LINK.D3HOT || !s.on F.HST_LINK.MSIX_EN then s
  else if s.hst.fmask || s.msixWord (4 * v + 3) % 2 == 1 then s.modHst (fun h => { h with pba := Tbl.put h.pba v true })
  else s.msixSend q

/-- The interrupt of queue `q` falls due: every entry written is covered (R486, R487). -/
def State.cqDue (s : State) (q : Nat) : State :=
  let was := (s.cqS q).held
  let s := s.modCq q (fun c => { c with unc := 0, timer := none, held := true })
  let s := if s.on F.HST_LINK.D3HOT && !was then s.pmeSend else s
  s.msixTry q

/-- A vector is unmasked (R487). -/
def State.msixUnmask (s : State) (v : Nat) : State :=
  (List.range 4).foldl (fun s q => if s.rd (F.HST_CQq_CFG.VEC q) = v then s.msixTry q else s) s

/-- A write of a word of the MSI-X table. -/
def State.msixWrite (s : State) (i v : Nat) : State :=
  let d : Word := if i % 4 = 3 then 1#32 else 0#32
  let w := if i % 4 = 3 then v % 2 else if i % 4 = 0 then v / 4 * 4 else v
  let s := s.modHst (fun h => { h with msix := Tbl.set d h.msix i (w32 w) })
  if i % 4 = 3 then s.msixUnmask (i / 4) else s

/-! ### Slots (R480, R481) -/

/-- STATE of slot `k`: 0 IDLE, 1 QUEUED, 2 EXEC, 3 DONE. -/
def State.slotSt (s : State) (k : Nat) : Nat := bitsOf (s.rd F.HST_MB_STATE.STATE) (2 * k) 2
def State.setSlotSt (s : State) (k v : Nat) : State :=
  s.wr F.HST_MB_STATE.STATE (putBits (s.rd F.HST_MB_STATE.STATE) (2 * k) 2 v)

/-- A word of the mailbox. -/
def State.mbWord (s : State) (i : Nat) : Nat := (Tbl.get 0#32 s.hst.mb i).toNat

/-- Bytes `o .. o + n - 1` of slot `k`. -/
def State.mbBytes (s : State) (k o n : Nat) : List Byte :=
  (List.range n).map (fun i => BitVec.ofNat 8 (s.mbWord (256 * k + (o + i) / 4) >>> (8 * ((o + i) % 4))))

/-- A word of the mailbox is written. -/
def State.mbPut (s : State) (i v : Nat) : State := s.modHst (fun h => { h with mb := Tbl.set 0#32 h.mb i (w32 v) })

/-- Bytes are written into slot `k` from byte `o` on. -/
def State.mbWrite (s : State) (k : Nat) : Nat → List Byte → State
  | _, [] => s
  | o, b :: bs =>
    let i := 256 * k + o / 4
    State.mbWrite (s.mbPut i (putBits (s.mbWord i) (8 * (o % 4)) 8 b.toNat)) k (o + 1) bs

def State.mbCode (s : State) (k : Nat) : Nat := bitsOf (s.mbWord (256 * k)) 0 8
def State.mbTagged (s : State) (k : Nat) : Bool := (s.mbWord (256 * k)).testBit 8
def State.mbQueue (s : State) (k : Nat) : Nat := bitsOf (s.mbWord (256 * k)) 9 2
def State.mbLen (s : State) (k : Nat) : Nat := bitsOf (s.mbWord (256 * k)) 16 16

/-- The body after the envelope begins at this byte of the slot (R484). -/
def State.mbBody (s : State) (k : Nat) : Nat := if s.mbTagged k then 0x30 else 0x10

/-- A doorbell write (R481). -/
def State.doorbell (s : State) (v : Nat) : State :=
  (List.range 8).foldl (fun s k =>
    if !v.testBit k then s
    else if s.slotSt k = 0 ∨ s.slotSt k = 3
    then (s.setSlotSt k 1).modHst (fun h => { h with order := h.order ++ [k] })
    else s.hstFlag F.HST_STATUS.MB_REJECT) s

/-- A write of a mailbox word; the host may not write into a QUEUED or EXEC slot (R481). -/
def State.mbRegWrite (s : State) (host : Bool) (i v : Nat) : State :=
  let st := s.slotSt (i / 256)
  if host && (st == 1 || st == 2) then s.hstFlag F.HST_STATUS.MB_REJECT else s.mbPut i v

/-- The slot whose command the mailbox may execute now: the first queued one, if nothing executes and no entry waits
for a full queue (R481, R485, R487). -/
def State.mbNext (s : State) : Option Nat :=
  if s.hst.exec.isSome || (s.hst.ents != [] && !s.on F.HST_LINK.D3HOT) then none else s.hst.order.head?

/-! ### Completion (R481, R485) -/

/-- Entries of queue `q`: 2^LOG2, LOG2 4 to 16. -/
def State.cqSize (s : State) (q : Nat) : Nat := 2 ^ clampN 4 16 (s.rd (F.HST_CQq_CFG.LOG2 q))

def State.cqFull (s : State) (q : Nat) : Bool :=
  (s.rd (F.HST_CQq_TAIL.TAIL q) + 1) % s.cqSize q == s.rd (F.HST_CQq_HEAD.HEAD q) % s.cqSize q

/-- The completion entry of slot `k` (R485). -/
def State.cqEntry (s : State) (k q : Nat) : List Byte :=
  s.mbBytes k 8 8 ++ [BitVec.ofNat 8 k, BitVec.ofNat 8 (s.mbCode k)] ++ s.mbBytes k 4 1 ++
    [BitVec.ofNat 8 (b2n (s.cqS q).phase)] ++ s.mbBytes k 6 2 ++ [0#8, 0#8]

/-- The entry that is next in line comes to wait for a full queue: CQ_FULL is set (R485). -/
def State.cqStuck (s : State) : State :=
  match s.hst.ents with
  | [] => s
  | k :: _ => if s.cqFull (s.mbQueue k) then s.hstFlag F.HST_STATUS.CQ_FULL else s

/-- CQ_ENTRY_WRITE: the oldest waiting entry is written when its queue has room and the function is in D0; its slot
becomes DONE and moderation goes on (R485-R487). -/
def State.cqWrite (s : State) : State :=
  match s.hst.ents with
  | [] => s
  | k :: rest =>
    let q := s.mbQueue k
    if s.on F.HST_LINK.D3HOT || s.cqFull q then s
    else
      let tail := s.rd (F.HST_CQq_TAIL.TAIL q)
      let base := s.reg (R.HST_CQq_BASE_LO q) + s.reg (R.HST_CQq_BASE_HI q) * 2 ^ 32
      let s := if s.hostUp then (s.wr F.HST_LINK.L1 0).emit (.hostWrite (base + 16 * tail) (s.cqEntry k q))
        else s.decodeErr ((base + 16 * tail) % 2 ^ 40) 0x30
      let s := (s.wr (F.HST_CQq_TAIL.TAIL q) ((tail + 1) % s.cqSize q)).modCq q (fun c =>
        { c with phase := if tail + 1 = s.cqSize q then !c.phase else c.phase, unc := c.unc + 1
                 timer := if c.timer.isNone && !c.held then some s.now else c.timer })
      let s := ((s.setSlotSt k 3).modHst (fun h => { h with ents := rest })).cqStuck
      let c := s.cqS q
      if s.hst.resetSlot = some k then (s.modHst (fun h => { h with resetOn := some q, resetSlot := none })).cqDue q
      else if c.held then s.modCq q (fun c => { c with unc := 0, timer := none })
      else if max 1 (s.rd (F.HST_CQq_MOD.COUNT q)) ≤ c.unc ∨ s.rd (F.HST_CQq_MOD.TIMER q) = 0 then s.cqDue q
      else s

/-- The command in slot `k` is done: RESULT and RLEN are set; its entry waits, or, with its queue disabled, the slot is
DONE (R481, R485). A session whose command it was may close now, or its idle time starts again (R434). -/
def State.mbDone (s : State) (k result : Nat) (resp : List Byte) : State :=
  let s := s.mbWrite k 0x10 resp
  let s := s.mbWrite k 4 [BitVec.ofNat 8 result, 0#8, BitVec.ofNat 8 resp.length, BitVec.ofNat 8 (resp.length / 256)]
  let s := s.modHst (fun h => { h with exec := none, fw := false, order := h.order.filter (· != k) })
  let q := s.mbQueue k
  if !s.on (F.HST_CQq_CFG.EN q) then
    let s := s.setSlotSt k 3
    if s.hst.resetSlot = some k then s.modHst (fun h => { h with resetAt := some (s.now + msT), resetSlot := none }) else s
  else
    let s := (s.setSlotSt k 2).modHst (fun h => { h with ents := h.ents ++ [k] })
    if s.on F.HST_LINK.D3HOT then s.pmeSend else s.cqStuck

/-- CQ_HEAD_WRITE (R485). -/
def State.cqHeadWrite (s : State) (q v : Nat) : State := s.writeByCode (R.HST_CQq_HEAD q) v

/-- A write of a queue's CFG: with EN = 0 the tail and the pass start again. -/
def State.cqCfgWrite (s : State) (q v : Nat) : State :=
  let s := s.writeByCode (R.HST_CQq_CFG q) v
  if s.on (F.HST_CQq_CFG.EN q) then s
  else (s.wr (F.HST_CQq_TAIL.TAIL q) 0).modCq q (fun c => { c with phase := true, unc := 0, timer := none })

/-- A write of a queue's BASE, honoured only while EN = 0. -/
def State.cqBaseWrite (s : State) (q o v : Nat) : State := if s.on (F.HST_CQq_CFG.EN q) then s else s.writeByCode o v

/-- The moderation timer of queue `q` reaches TIMER (R486). -/
def State.cqTimer (s : State) (q : Nat) : State :=
  match (s.cqS q).timer with
  | none => s
  | some t => (s.reach (t + s.rd (F.HST_CQq_MOD.TIMER q) * usT)).cqDue q

/-! ### Tags (R430, R433) -/

/-- HMAC-SHA-384 (R417). -/
def hmac384 (key msg : List Byte) : List Byte :=
  let k := (if 128 < key.length then sha384 key else key) ++ List.replicate 128 0#8
  let k := k.take 128
  sha384 (k.map (· ^^^ 0x5C#8) ++ sha384 (k.map (· ^^^ 0x36#8) ++ msg))

/-- The TAG over an envelope and a body (R430); `first` is 0x00 for a command, 0x01 for a response. -/
def tagOf (key : List Byte) (first : Byte) (sidSeq : List Byte) (code : Nat) (body : List Byte) : List Byte :=
  (hmac384 key (first :: sidSeq ++ [BitVec.ofNat 8 code] ++ body)).take 24

/-- The open session with this SID. -/
def State.sessOf (s : State) (sid : Nat) : Option Nat :=
  (List.range 4).find? (fun i => s.on (F.SEC_SESSs_CTRL.OPEN i) && s.rd (F.SEC_SESSs_SID.SID i) == sid)

/-- SESSION_AUTH, at most once per second (R431). -/
def State.sessAuth (s : State) (inst : Nat) : State :=
  match s.sec.authFaultT with
  | some t => if s.now < t + 1000 * msT then s else (s.modSec (fun c => { c with authFaultT := some s.now })).fault 0x3E inst
  | none => (s.modSec (fun c => { c with authFaultT := some s.now })).fault 0x3E inst

/-- The response body `b` of slot `k` as it is sent: with the envelope where the command is tagged and session `i` is
known (R430). -/
def State.envelope (s : State) (k : Nat) (i : Option Nat) (b : List Byte) : List Byte :=
  match i with
  | none => b
  | some i =>
    let ss := s.mbBytes k 0x10 8
    ss ++ tagOf (Tbl.get [] s.sec.keys i) 1#8 ss (s.mbCode k) b ++ b

/-- The checks of a tagged command in slot `k` that needs privilege `priv` (R433): a STATUS and the session that
answers, or the session that executes it. -/
def State.tagCheck (s : State) (k priv : Nat) : (Nat × Option Nat) ⊕ Nat :=
  let ss := s.mbBytes k 0x10 8
  match s.sessOf (leAt ss 0 4) with
  | none => .inl (6, none)
  | some i =>
    let body := s.mbBytes k 0x30 (s.mbLen k - 32)
    if tagOf (Tbl.get [] s.sec.keys i) 0#8 ss (s.mbCode k) body ≠ s.mbBytes k 0x18 24 then .inl (7, some i)
    else if leAt ss 4 4 ≤ s.rd (F.SEC_SESSs_SEQ.SEQ i) then .inl (8, some i)
    else if s.rd (F.SEC_SESSs_CTRL.PRIV i) < priv then .inl (9, some i)
    else .inr i

/-- The command in slot `k` is done with the response body `b`; its session goes on, or closes if that was asked for. -/
def State.respondTo (s : State) (k : Nat) (i : Option Nat) (b : List Byte) : State :=
  let s := s.modSec (fun c => { c with busy := none, idleT := match i with
    | some i => Tbl.put c.idleT i s.now
    | none => c.idleT })
  s.mbDone k 0 (s.envelope k i b)

/-- The command of slot `k` is taken up, if it is the next one and its CODE is one of `codes`: its LEN, its tag, the
need for one and its privilege are checked (R433, R480-R482). `need`: an untagged command returns BAD_SID. Then `run`
is given the session that sent it. -/
def State.mbTake (s : State) (k : Nat) (code : Nat → Bool) (need : Bool) (priv : Nat) (run : Option Nat → State → State) :
    State :=
  if s.mbNext ≠ some k ∨ !code (s.mbCode k) then s
  else if 1008 < s.mbLen k then s.mbDone k 1 []
  else if s.mbTagged k then
    match s.tagCheck k priv with
    | .inl (st, i) =>
      let s := if st = 7 then s.sessAuth (i.getD 0) else s
      s.mbDone k 0 (s.envelope k i [BitVec.ofNat 8 st])
    | .inr i =>
      let s := (s.wr (F.SEC_SESSs_SEQ.SEQ i) (leVal (s.mbBytes k 0x14 4))).modSec (fun c => { c with busy := some i })
      run (some i) ((s.setSlotSt k 2).modHst (fun h => { h with exec := some k }))
  else if need then s.mbDone k 0 [6#8]
  else run none ((s.setSlotSt k 2).modHst (fun h => { h with exec := some k }))

end Sys2Proof.Machine
end

