-- ==== Sys2Proof/Machine/Security.lean ====
section
/-! DEFINITION. The security core (19_identity_and_sessions.md R417-R437): OTP, the TRNG, nonces, sessions and their
commands, attestation. -/

namespace Sys2Proof.Machine

/-- A W1C flag of SEC_STATUS is set: an event of source 63. -/
def State.secFlag (s : State) (f : Fld) : State := s.flag f 63

/-! ### OTP (R420-R425) -/

/-- The number of bits of a 64-bit word that read 1. -/
def ones64 (x : Nat) : Nat := ((List.range 64).filter (fun i => x.testBit i)).length

def State.otpHash (s : State) (k : Nat) : Nat := Tbl.get 0 s.sec.otpHash k

/-- Slot `k` is programmed; it is usable when it is not revoked either (R422). -/
def State.programmed (s : State) (k : Nat) : Bool := s.otpHash k != 0
def State.usable (s : State) (k : Nat) : Bool := s.programmed k && !s.sec.revoked.testBit k
def State.provisioned (s : State) : Bool := (List.range 4).any s.programmed

/-- The registers that show OTP (R422, R424). -/
def State.otpRegs (s : State) : State :=
  let m := (List.range 4).foldl (fun m k => if s.programmed k then m + 2 ^ k else m) 0
  (((s.wr F.SEC_OTP.PROGRAMMED m).wr F.SEC_OTP.REVOKED s.sec.revoked).wr F.SEC_OTP.ROLLBACK (ones64 s.sec.counter)).wrB
    F.SEC_STATUS.PROVISIONED s.provisioned

/-- The next bit that the operation must program: bit `i` of the item (R424). -/
def State.otpNext (s : State) (o : OtpOp) : Option Nat :=
  if o.item < 4 then (List.range 384).find? (fun i => o.val.testBit i && !(s.otpHash o.item).testBit i)
  else if o.item = 4 then (if s.sec.revoked.testBit o.val then none else some o.val)
  else if ones64 s.sec.counter < o.val then (List.range 64).find? (fun i => !s.sec.counter.testBit i) else none

/-- One bit of an item becomes 1. -/
def State.otpSet (s : State) (item i : Nat) : State :=
  let s := s.modSec (fun c =>
    if item < 4 then { c with otpHash := Tbl.put c.otpHash item (setBitN (Tbl.get 0 c.otpHash item) i true) }
    else if item = 4 then { c with revoked := setBitN c.revoked i true }
    else { c with counter := setBitN c.counter i true })
  s.otpRegs

/-- A refusal or a programming failure (R425). -/
def State.otpErr (s : State) : State := (s.secFlag F.SEC_STATUS.OTP_ERR).fault 0x3D 0

/-- The mailbox command that waited for an OTP operation is answered (R430). -/
def State.otpAnswer (s : State) (o : OtpOp) (st : Nat) : State :=
  match o.slot with
  | none => s
  | some k =>
    let b : List Byte := if s.mbCode k = 0x15 ∧ st = 0 then [BitVec.ofNat 8 st, BitVec.ofNat 8 (ones64 s.sec.counter)] else [BitVec.ofNat 8 st]
    s.respondTo k s.sec.busy b

/-- Operations at the head of the queue that have no bit left are complete (R424, R425). -/
def State.otpSettle : Nat → State → State
  | 0, s => s
  | n + 1, s => match s.sec.ops with
    | [] => s
    | o :: rest =>
      if (s.otpNext o).isSome then s
      else
        let s := (s.modSec (fun c => { c with ops := rest, opT := s.now })).secFlag F.SEC_STATUS.OTP_DONE
        State.otpSettle n (s.otpAnswer o 0)

/-- An operation is asked for; it waits for one in progress (R425). -/
def State.otpAsk (s : State) (o : OtpOp) : State :=
  let idle := s.sec.ops == []
  let s := s.modSec (fun c => { c with ops := c.ops ++ [o], opT := if idle then s.now else c.opT })
  if idle then s.otpSettle 8 else s

/-- OTP_BIT_DONE: the bit in progress is programmed, or fails (R424, R425). -/
def State.otpBit (s : State) (fails : Bool) : State :=
  match s.sec.ops with
  | [] => s
  | o :: rest =>
    let s := s.reach (s.sec.opT + 100 * usT)
    let s := s.modSec (fun c => { c with opT := s.now })
    if fails then ((s.modSec (fun c => { c with ops := rest })).otpErr.otpAnswer o 11).otpSettle 8
    else match s.otpNext o with
      | none => s.otpSettle 8
      | some i => (s.otpSet o.item i).otpSettle 8

/-- OTP_PROGRAM or PROVISION of slot `n` with hash `h` asked for by mailbox slot `k` (R422, R423): refused where the
slot holds a 1 that the hash does not. -/
def State.otpProgram (s : State) (k n h : Nat) (i : Option Nat) : State :=
  if 4 ≤ n ∨ (s.otpHash n &&& h) ≠ s.otpHash n then (s.otpErr).respondTo k i [11#8]
  else s.otpAsk { item := n, val := h, slot := some k }

/-- A write of SEC_CTRL.ADVANCE (R425). -/
def State.advance (s : State) (req : Nat) : State :=
  if Nat.ble 0x20 req && Nat.ble req 0x23 then s.otpAsk { item := 5, val := s.rd F.SEC_OTP.SVN }
  else s.secFlag F.SEC_STATUS.DENIED

/-! ### Sessions (R429-R435) -/

/-- MAXPRIV: the highest PRIV among the open sessions (R429). -/
def State.privSet (s : State) : State :=
  s.wr F.SEC_STATUS.MAXPRIV ((List.range 4).foldl (fun m i =>
    if s.on (F.SEC_SESSs_CTRL.OPEN i) then max m (s.rd (F.SEC_SESSs_CTRL.PRIV i)) else m) 0)

/-- Session `i` closes (R434). -/
def State.sessClose (s : State) (i : Nat) : State :=
  if !s.on (F.SEC_SESSs_CTRL.OPEN i) then s
  else
    let s := ((s.setReg (R.SEC_SESSs_CTRL i) 0).setReg (R.SEC_SESSs_SID i) 0).setReg (R.SEC_SESSs_SEQ i) 0
    let s := s.modSec (fun c => { c with keys := c.keys.del i, idleT := c.idleT.del i, closing := c.closing.filter (· != i) })
    (s.secFlag F.SEC_STATUS.SESS_EVT).privSet

/-- A close is asked for: it waits for the session's command in progress (R434). -/
def State.sessAskClose (s : State) (i : Nat) : State :=
  if s.sec.busy = some i then s.modSec (fun c => { c with closing := i :: c.closing }) else s.sessClose i

/-- Closes that waited for a command take effect once it is complete. -/
def State.sessSettle (s : State) : State :=
  (s.sec.closing.filter (fun i => s.sec.busy != some i)).foldl State.sessClose s

/-- Every session closes; one whose command executes closes when that is complete, and a session that is being opened
once it has been answered (R434, R435). -/
def State.sessEnd (s : State) : State :=
  (List.range 4).foldl State.sessAskClose (s.modSec (fun c => { c with opening := c.opening.map (fun o => { o with shut := true }) }))

/-- Entry to Standby: every session closes and every unused nonce is discarded (R434). -/
def State.sessSleep (s : State) : State := s.sessEnd.modSec (fun c => { c with nonces := [] })

/-- TIMEOUT and NONCE_TTL in ECLK; 0 acts as 1 second (R431, R434). -/
def State.sessTimeout (s : State) : Nat := max 1 (s.rd F.SEC_SESS_CFG.TIMEOUT) * 1000 * msT
def State.nonceTtl (s : State) : Nat := max 1 (s.rd F.SEC_SESS_CFG.NONCE_TTL) * 1000 * msT

/-- SESSION_TIMEOUT (R434). -/
def State.sessExpire (s : State) (i : Nat) : State :=
  if !s.on (F.SEC_SESSs_CTRL.OPEN i) ∨ s.sec.busy = some i then s
  else (s.reach (Tbl.get 0 s.sec.idleT i + s.sessTimeout)).sessClose i

/-- NONCE_EXPIRE: the oldest nonce expires (R431). -/
def State.nonceExpire (s : State) : State :=
  match s.sec.nonces with
  | [] => s
  | n :: rest => (s.reach (n.2 + s.nonceTtl)).modSec (fun c => { c with nonces := rest })

/-- NONCE_REQ (R431). -/
def State.nonceReq (s : State) (k : Nat) (i : Option Nat) : State :=
  if s.sec.trngBad then s.respondTo k i [10#8]
  else
    let (n, s) := s.random 48
    let s := s.modSec (fun c => { c with nonces := (if 4 ≤ c.nonces.length then c.nonces.drop 1 else c.nonces) ++ [(n, s.now)] })
    s.respondTo k i ([0#8, 0#8, 0#8, 0#8] ++ n)

/-- The response body of a failed OPEN (R432). -/
def openFail (st : Nat) : List Byte := BitVec.ofNat 8 st :: List.replicate 203 0#8

/-- OPEN up to its signature (R431): nonce, key, privilege. -/
def State.openReq (s : State) (k : Nat) (i : Option Nat) : State :=
  let b := s.mbBytes k (s.mbBody k) 248
  let n := b.take 48
  let priv := leAt b 0x30 1
  let key := leAt b 0x31 1
  let fresh := s.sec.nonces.any (fun e => e.1 == n && decide (s.now < e.2 + s.nonceTtl))
  if !fresh then s.respondTo k i (openFail 1)
  else
    let s := s.modSec (fun c => { c with nonces := c.nonces.filter (fun e => e.1 != n) })
    match s.sec.operators[key]? with
    | none => s.respondTo k i (openFail 2)
    | some op =>
      if priv = 0 ∨ 3 < priv ∨ op.2 < priv then s.respondTo k i (openFail 3)
      else (s.modSec (fun c => { c with opening := some { nonce := n, priv := priv, keyIdx := key, epk := (b.drop 0x34).take 97 } })).askVerify
        (.session k)

/-- The sign unit takes a request (R417). -/
def State.askSign (s : State) (j : SignJob) (report : List Byte) : State :=
  s.modSec (fun c => { c with signJob := some j, signT := s.now + 300000, report := report })

/-- A 32-bit value other than 0 and every open SID, from a free value. -/
def State.freshSid (s : State) (x : Nat) : Nat :=
  (((List.range 6).map (fun i => (x + i) % 2 ^ 32)).find? (fun v => v != 0 && (s.sessOf v).isNone)).getD 1

/-- The verification of an OPEN ends (R430-R432). -/
def State.openVerified (s : State) (k : Nat) : State :=
  match s.sec.opening with
  | none => s
  | some o =>
    let b := s.mbBytes k (s.mbBody k) 248
    let key := match s.sec.operators[o.keyIdx]? with
      | some op => op.1
      | none => []
    let i := s.sec.busy
    if !ecVerify key (sha384 (b.take 0x98 ++ leBytes 8 s.sec.devId)) (b.drop 0x98) then
      ((s.modSec (fun c => { c with opening := none })).sessAuth 7).respondTo k i (openFail 4)
    else if (List.range 4).all (fun j => s.on (F.SEC_SESSs_CTRL.OPEN j)) then
      (s.modSec (fun c => { c with opening := none })).respondTo k i (openFail 5)
    else if s.sec.trngBad then (s.modSec (fun c => { c with opening := none })).respondTo k i (openFail 10)
    else
      let (x, s) := s.free
      let (e, s) := s.random 48
      let d := beVal e % (ecN - 1) + 1
      let s := s.modSec (fun c => { c with opening := some { o with sid := s.freshSid x, eph := d, devEpk := 4#8 :: ecPublic d } })
      s.askSign (.ecdh k) []

/-- The first part of the response to OPEN (R432): bytes 0x00-0x6B. -/
def OpenOp.head (o : OpenOp) : List Byte :=
  [0#8, BitVec.ofNat 8 o.priv, 0#8, 0#8] ++ leBytes 4 o.sid ++ o.devEpk ++ [0#8, 0#8, 0#8]

/-- The key agreement ends, and the response is to be signed (R432). What it gives where HOST_EPK is no point of the curve
the spec does not say (log 9). -/
def State.openAgreed (s : State) (k : Nat) : State :=
  match s.sec.opening with
  | none => s
  | some o =>
    let z := beBytes 48 ((ecShared o.epk o.eph).getD (Config.badShare o.epk o.eph))
    (s.modSec (fun c => { c with opening := some { o with z := z } })).askSign (.openRsp k) (o.head ++ o.nonce ++ o.epk)

/-- A signature with the device key over a message: 96 bytes, with a per-message secret of the TRNG (R417, R421). -/
def State.deviceSign (s : State) (m : List Byte) : List Byte × State :=
  let (n, s) := s.random 48
  (ecSign s.sec.devPriv (sha384 m) (beVal n), s)

/-- The response to OPEN is signed: the session is open (R432). -/
def State.openDone (s : State) (k : Nat) : State :=
  match s.sec.opening, (List.range 4).find? (fun j => !s.on (F.SEC_SESSs_CTRL.OPEN j)) with
  | some o, some j =>
    let i := s.sec.busy
    let (sig, s) := s.deviceSign s.sec.report
    let s := (s.setReg (R.SEC_SESSs_CTRL j) (1 + 2 * o.priv + 16 * o.keyIdx)).setReg (R.SEC_SESSs_SID j) o.sid
    let s := s.setReg (R.SEC_SESSs_SEQ j) 0
    let s := s.modSec (fun c => { c with opening := none, keys := Tbl.put c.keys j (sha384 (o.z ++ o.nonce)),
                                         idleT := Tbl.put c.idleT j s.now })
    let s := (s.secFlag F.SEC_STATUS.SESS_EVT).privSet
    let s := s.respondTo k i (o.head ++ sig)
    if o.shut then s.sessClose j else s
  | _, _ => s

/-! ### Attestation (R436, R437) -/

/-- A measurement, 48 bytes. -/
def State.measure (s : State) (m : Nat) : List Byte := beBytes 48 (Tbl.get 0 s.sec.meas m)

/-- The report's bytes 0x000-0x11F (R436). -/
def State.attestReport (s : State) (nonce : List Byte) : List Byte :=
  leBytes 4 0x51544131 ++ leBytes 2 1 ++
    leBytes 2 (s.rd F.BOOT_STATUS.RESIDENT + (if s.rd F.FLT_STATUS.STATE = 2 then 2 else 0)) ++
    leBytes 8 s.sec.devId ++ leBytes 4 (s.reg 0) ++ leBytes 1 (s.rd F.SEC_STATUS.SIGNER) ++ leBytes 1 s.sec.revoked ++
    leBytes 1 (ones64 s.sec.counter) ++ leBytes 1 (s.rd F.SEC_OTP.SVN) ++ leBytes 4 s.sec.sections ++
    leBytes 2 (s.rd F.FLT_RECOV.COUNT) ++ leBytes 2 0 ++ leBytes 4 (s.rd F.BOOT_WAKE.WAKES) ++ leBytes 4 0 ++
    leBytes 8 (s.tick.frameCnt % 2 ^ 48) ++ nonce ++ s.measure 0 ++ s.measure 1 ++ s.measure 2 ++ s.measure 3

/-- ATTEST: the sign unit takes the request (R436, R437). -/
def State.attest (s : State) (k : Nat) : State := s.askSign (.attest k) (s.attestReport (s.mbBytes k (s.mbBody k) 48))

/-- The report is signed. -/
def State.attestDone (s : State) (k : Nat) : State :=
  let r := s.sec.report
  let i := s.sec.busy
  let (sig, s) := s.deviceSign r
  s.respondTo k i ([0#8, 0#8, 0#8, 0#8] ++ r ++ sig)

/-- SIGN_DONE: the sign unit ends its operation (R417). -/
def State.signDone (s : State) : State :=
  match s.sec.signJob with
  | none => s
  | some j =>
    let s := (s.reach s.sec.signT).modSec (fun c => { c with signJob := none })
    match j with
    | .ecdh k => s.openAgreed k
    | .openRsp k => s.openDone k
    | .attest k => s.attestDone k

/-! ### The TRNG (R419) -/

/-- The health tests fail. -/
def State.trngFail (s : State) : State :=
  if s.sec.trngBad then s
  else ((s.modSec (fun c => { c with trngBad := true, retestAt := s.now + 100 * msT })).secFlag F.SEC_STATUS.TRNG_FAIL).fault 0x3C 0

/-- A retest, 100 ms later; once it passes, CHALLENGEs that waited are sent. -/
def State.trngRetest (s : State) (pass : Bool) : State :=
  if !s.sec.trngBad then s
  else
    let s := s.reach s.sec.retestAt
    if !pass then s.modSec (fun c => { c with retestAt := s.now + 100 * msT })
    else
      let s := s.modSec (fun c => { c with trngBad := false })
      ((s.chain.filter (fun e => e.2.step == 1)).map (·.1)).foldl State.challenge s

/-! ### Meanings -/

/-- NONCE_REQ (R431): the command in mailbox slot `k`. -/
def execNonceReq (k : Nat) (s : State) : Host.Outcome State Fault Refusal :=
  done (s.mbTake k (· == 0x01) false 0 (fun i s => s.nonceReq k i)).sessSettle

/-- OPEN (R431, R432). -/
def execOpen (k : Nat) (s : State) : Host.Outcome State Fault Refusal :=
  done (s.mbTake k (· == 0x02) false 0 (fun i s => s.openReq k i)).sessSettle

/-- CLOSE (R434): the response is sent, then the session closes. -/
def execClose (k : Nat) (s : State) : Host.Outcome State Fault Refusal :=
  done (s.mbTake k (· == 0x10) true 1 (fun i s => match i with
    | some i => (s.sessAskClose i).respondTo k (some i) [0#8]
    | none => s)).sessSettle

/-- PING (R430). -/
def execPing (k : Nat) (s : State) : Host.Outcome State Fault Refusal :=
  done (s.mbTake k (· == 0x11) true 1 (fun i s => s.respondTo k i [0#8])).sessSettle

/-- ATTEST (R436). -/
def execAttest (k : Nat) (s : State) : Host.Outcome State Fault Refusal :=
  done (s.mbTake k (· == 0x12) false 0 (fun _ s => s.attest k)).sessSettle

/-- OTP_PROGRAM (R422). -/
def execOtpProgram (k : Nat) (s : State) : Host.Outcome State Fault Refusal :=
  done (s.mbTake k (· == 0x13) true 3 (fun i s =>
    let b := s.mbBytes k (s.mbBody k) 52
    s.otpProgram k (leAt b 0 1) (beVal (b.drop 4)) i)).sessSettle

/-- OTP_REVOKE (R422): refused if it would leave no usable slot. -/
def execOtpRevoke (k : Nat) (s : State) : Host.Outcome State Fault Refusal :=
  done (s.mbTake k (· == 0x14) true 3 (fun i s =>
    let n := leAt (s.mbBytes k (s.mbBody k) 1) 0 1
    if 4 ≤ n || !(List.range 4).any (fun j => j != n && s.usable j) then (s.otpErr).respondTo k i [11#8]
    else s.otpAsk { item := 4, val := n, slot := some k })).sessSettle

/-- ROLLBACK (R425). -/
def execRollback (k : Nat) (s : State) : Host.Outcome State Fault Refusal :=
  done (s.mbTake k (· == 0x15) true 3 (fun _ s =>
    s.otpAsk { item := 5, val := s.rd F.SEC_OTP.SVN, slot := some k })).sessSettle

/-- PROVISION (R423): refused once any slot is programmed. -/
def execProvision (k : Nat) (s : State) : Host.Outcome State Fault Refusal :=
  done (s.mbTake k (· == 0x20) false 0 (fun i s =>
    let b := s.mbBytes k (s.mbBody k) 52
    if s.provisioned then (s.otpErr).respondTo k i [11#8]
    else s.otpProgram k (leAt b 0 1) (beVal (b.drop 4)) i)).sessSettle

/-- ADVANCE (R425): a write of SEC_CTRL.ADVANCE = 1 by requester `req`. -/
def execAdvance (req : Nat) (s : State) : Host.Outcome State Fault Refusal := done (s.advance req).sessSettle

/-- OTP_BIT_DONE (R424, R425). -/
def execOtpBitDone (fails : Bool) (s : State) : Host.Outcome State Fault Refusal := done (s.otpBit fails).sessSettle

/-- TRNG_FAIL (R419). -/
def execTrngFail (s : State) : Host.Outcome State Fault Refusal := done s.trngFail

/-- TRNG_RETEST (R419). -/
def execTrngRetest (pass : Bool) (s : State) : Host.Outcome State Fault Refusal := done (s.trngRetest pass)

/-- SESSION_TIMEOUT (R434). -/
def execSessionTimeout (i : Nat) (s : State) : Host.Outcome State Fault Refusal := done (s.sessExpire i)

/-- SESS_CLOSE (R434). -/
def execSessClose (i : Nat) (s : State) : Host.Outcome State Fault Refusal := done (s.sessAskClose i)

/-- NONCE_EXPIRE (R431). -/
def execNonceExpire (s : State) : Host.Outcome State Fault Refusal := done s.nonceExpire

/-- SIGN_DONE (R417, R432, R436). -/
def execSignDone (s : State) : Host.Outcome State Fault Refusal := done s.signDone.sessSettle

end Sys2Proof.Machine
end

