-- ==== Sys2Proof/Machine/FrameTick.lean ====
section
/-! DEFINITION. The frame tick: every consumer of R20 acts in one ECLK cycle, after the active values are loaded
from their shadows (R32). Entry into Standby at a tick (R451, R452). -/

namespace Sys2Proof.Machine

/-- The engines E0-E15 and EW. -/
def engines : List Nat := List.range 17

/-- With THRESH = 0 the spillway is off and LEVEL reads 0 (R52). -/
def State.spillOff (s : State) (n : Nat) : State :=
  if s.act (F.ENGn_SPILL.THRESH n) ≠ 0 ∨ s.rd (F.ENGn_SPILL.LEVEL n) = 0 then s
  else (s.setLevel n 0).modEng n (fun e => { e with relaxRun := 0 })

/-- The rows of the frame just ended that an engine has not sent leave its previews filled (R178, R181). -/
def State.unsentRows (s : State) (n : Nat) : State :=
  let e := s.engS n
  (List.range (s.vActive n - e.linesOut)).foldl (fun s j =>
    let (good, s) := s.goodLine n (e.linesOut + j)
    s.pvwLine n (e.linesOut + j) (good.getD (s.blackLine n)) true none) s

/-- A cache counter of the frame just ended: the cache's choices among ways are not the spec's to give, so its
count is a free value, misses no more than lookups (log 8). -/
def State.cacheCounts (s : State) (lookup miss : Fld) : State :=
  let (a, s) := s.free
  let (b, s) := s.free
  (s.wr lookup (a % 2 ^ 32)).wr miss (min (b % 2 ^ 32) (a % 2 ^ 32))

/-- What engine `n` latches at the tick for the frame just ended (R46, R48, R74, R100, R121, R126). R46 does not say whether
a frame that TICK_EARLY cuts counts as completed, nor what MIN holds after a frame in which no line was completed: the cut
frame counts, and MIN keeps its value after the other, both choices of the model (log 83). -/
def State.frameLatch (s : State) (n : Nat) : State :=
  let e := s.engS n
  let s := (s.wr (F.ENGn_DIKE_FRAME.COUNT n) e.substCnt).wr (F.ENGn_DIKE_FRAME.FIRST n) e.substFirst
  let s := match e.slackMin with
    | some m => s.wr (F.ENGn_SLACK.MIN n) m
    | none => s
  let s := (s.wr (F.ENGn_COST_CHK.OVER n) e.costOver).wr (F.ENGn_COST_CHK.LINE n) e.costLine
  let s := s.wr (F.ENGn_OBJ_WAIT.COUNT n) (min 0xFFFFFFFF e.objWait)
  if !e.live then
    [R.ENGn_TC_LOOKUP n, R.ENGn_TC_MISS n, R.ENGn_MC_LOOKUP n, R.ENGn_MC_MISS n, R.ENGn_OC_LOOKUP n,
      R.ENGn_OC_MISS n].foldl (fun s o => s.setReg o 0) s
  else
    let s := s.cacheCounts (F.ENGn_TC_LOOKUP.COUNT n) (F.ENGn_TC_MISS.COUNT n)
    let s := s.cacheCounts (F.ENGn_MC_LOOKUP.COUNT n) (F.ENGn_MC_MISS.COUNT n)
    s.cacheCounts (F.ENGn_OC_LOOKUP.COUNT n) (F.ENGn_OC_MISS.COUNT n)

/-- A frame that the tick cuts short raises TICK_EARLY (R36). -/
def State.earlyRaise (s : State) (n : Nat) (early : Bool) : State :=
  if early then (s.unsentRows n).flag (F.ENGn_STATUS.TICK_EARLY n) (n + 1) |>.fault 0x09 n else s

/-- The raster of engine `n` starts at line 0 of the new frame (R35), and its sequencer from the first word (R520). -/
def State.rasterRestart (s : State) (n : Nat) : State :=
  let s := (s.sndDrop n).llRestart n
  s.modEng n (fun e => { e with
    rline := 0, tStart := s.now, nextLine := 0, comp := none, cmp := none, compT := 0, fifo := [], poison := [], flts := [], substCnt := 0,
    substFirst := 0, linesOut := 0, linesStored := 0, slackMin := none, costOver := 0, costLine := 0,
    dikeRaised := false, objNext := 0, objWork := none, objBuf := [], objDone := [], objT := 0, objWait := 0,
    outPrev := none, sigs := [], tcInv := false, ocInv := false, tcMark := s.memc.jseq, ocMark := s.memc.jseq,
    tcBlk := [], ocBlk := [],
    front := s.rd (F.ENGn_Bb_FLIP_STATUS.FRONT n 0) + 2 * s.rd (F.ENGn_Bb_FLIP_STATUS.FRONT n 1) })

/-! ### Ports -/

/-- The payload of the TICK cell of port `p`: BRIGHT and BLANK of each address (R204, R230, R239). -/
def State.tickPay (s : State) (p : Nat) (blankAll : Bool) : Nat :=
  (List.range 64).foldl (fun acc a =>
    let k := 64 * s.tableOf p + a
    let admitted := s.tstate k == 3
    let blank := blankAll || !admitted || s.on (F.PLK_TILE0.BLANK_REQ k)
    acc + payPut (8 * a) 2 (if admitted then s.rd (F.PLK_TILE6.BRIGHT k) else 0) + payPut (8 * a + 2) 1 (b2n blank)) 0

/-- The TICK cell of frame `frame` joins the port's FIFO (R204). -/
def State.tickCellOf (s : State) (p frame : Nat) (blankAll : Bool) : State :=
  let c : Cell := { typ := 2, dir := 0, mode := 1, w1 := frame % 0x10000 * 0x10000,
                    w3 := s.act F.PLK_PRES.OFS, pay := s.tickPay p blankAll }
  let s := s.pushCell p { cell := c, t0 := s.now, tq := s.now }
  s.modPort p (fun x => { x with hwm := max x.hwm (s.fifoCells p) })

/-- The TICK cell at a tick: that of the frame just ended (R204). -/
def State.tickCell (s : State) (p : Nat) (blankAll : Bool) : State :=
  s.tickCellOf p (s.tick.frameCnt + 0xFFFF) blankAll

/-- Standby is entered while no tick comes (R451, R452): a port that carries frames sends the TICK of the frame that was last
begun, which no tick has ended (log 88). -/
def State.portLast (s : State) (p : Nat) (blankAll : Bool) : State :=
  if s.laneSt p == 3 && (s.rd (F.PLKn_CTRL.STATE p) == 2 || s.rd (F.PLKn_CTRL.STATE p) == 3)
  then s.tickCellOf p s.tick.frameCnt blankAll else s

/-- Port `p` at the tick (R203, R204). -/
def State.portTick (s : State) (p : Nat) (blankAll : Bool) : State :=
  let up := s.laneSt p == 3
  match s.rd (F.PLKn_CTRL.STATE p) with
  | 1 =>
    if up then
      let s := (s.wr (F.PLKn_CTRL.STATE p) 2).tickCell p blankAll
      (s.modPort p (fun x => { x with rows := true, full := true, build := [] })).portFollow p
    else s
  | 2 =>
    let s := if up then s.tickCell p blankAll else s
    s.modPort p (fun x => { x with rows := up, full := up && !x.rows, build := [] })
  | 3 =>
    let s := if up then s.tickCell p blankAll else s
    s.modPort p (fun x => { x with rows := false, full := false, build := []
                                   stopTick := some (x.stopTick.getD s.now) })
  | _ => s

/-- All ports, rings, brightness and TICK cells at the tick. -/
def State.linkTick (s : State) (blankAll : Bool) : State :=
  let ports := List.range 24
  let s := ports.foldl State.portFrame s
  let s := ports.foldl State.ringTick s
  let s := ((List.range 1536).filter (fun k => s.tstate k == 3)).foldl State.brightTick s
  let s := ports.foldl (fun s p => s.portTick p blankAll) s
  s.refreshTick



/-! ### The tick -/

/-- What the tick ends: the frame just ended is latched and judged with the active values it ran with. -/
def State.frameEnd (s : State) : State :=
  let s := (engines.foldl State.pvwFlush s)
  let s := (s.pvwPorch 0).pvwPorch 1
  let early := engines.map s.tickEarly
  let s := engines.foldl State.frameLatch s
  let s := (engines.zip early).foldl (fun s e => s.earlyRaise e.1 e.2) s
  (s.enabled s.pld.bank).foldl (fun s i => s.sigLatch s.pld.bank i) s

/-- A register with RWS fields written in the tick's own cycle: the tick loads what its shadow held before (R18). -/
def State.rwsKeep (s : State) (e : Nat × Word) : State :=
  match specAt e.1 with
  | none => s
  | some r => if r.rws = 0 then s else s.setAct e.1 ((s.reg e.1 &&& (0xFFFFFFFF ^^^ r.rws)) ||| (e.2.toNat &&& r.rws))

/-- Every active value is loaded from its shadow (R32); sends and slots whose route changes fade (R312, R319). -/
def State.rwsLoad (s : State) : State :=
  let slots := s.slotList
  let s := s.cycNow.rws.foldl State.rwsKeep { s with ovr := [] }
  let s := engines.foldl State.spillOff s
  s.audRoutes slots

/-- The tick is counted, raises source 18 and its pulse, and drives TICK_OUT (R20, R31, R379). -/
def State.tickCount (s : State) : State :=
  let s := s.modTick (fun t => { t with frameCnt := (t.frameCnt + 1) % 2 ^ 48, cntAt := some s.now })
  ((s.irq 18).pulse 0x001).tickOutRise

/-- The engines and their schedules at the tick. -/
def State.engineTick (s : State) : State :=
  let s := (List.range 4).foldl State.vpllSteer s
  let s := (List.range 16).foldl State.engTick s
  let s := engines.foldl State.schedTick s
  let s := engines.foldl State.affReload s
  let s := engines.foldl (fun s n => (s.flipTick n 0).flipTick n 1) s
  s.objTick

/-- Polders, ports, gangs and the warden at the tick. -/
def State.outputTick (s : State) (blankAll : Bool) : State :=
  let s := s.bankTick
  let s := s.linkTick blankAll
  let s := ((List.range 15).map (· + 1)).foldl State.gangTick s
  s.wardTick

/-- What the tick begins: caches are clean, rasters restart (R35, R100). -/
def State.frameBegin (s : State) : State :=
  let s := { s with memc := { s.memc with journal := [] } }
  let s := engines.foldl State.rasterRestart s
  (s.pvwTick 0).pvwTick 1

/-- The tick at which Standby is entered, or the cycle in which ENTER is accepted while no ticks come (R451, R452): no
engine begins a frame, ports stop taking rows, sound stops, sessions close, a freeze ends. -/
def State.sbyEntry (s : State) : State :=
  let s := (List.range 17).foldl (fun s n => s.modEng n (fun e => { e with live := false })) s
  let s := (List.range 24).foldl (fun s p => s.modPort p (fun x => { x with rows := false })) s
  let s := (List.range 8).foldl (fun s p =>
    if s.rd (F.AUD_Op_CTRL.STATE p) = 1 ∨ s.rd (F.AUD_Op_CTRL.STATE p) = 2 then s.outCtrlWrite p (s.reg (R.AUD_Op_CTRL p) - s.reg (R.AUD_Op_CTRL p) % 2)
    else s) s
  let s := s.sessSleep
  let s := if s.rd F.FLT_STATUS.STATE = 2 then s.wr F.FLT_STATUS.STATE 0 else s
  let s := { s with flt := { s.flt with outFrozen := false, recovered := false } }
  let s := (s.modTick (fun t => { t with at_ := none })).wr F.HBM_STATUS.TRAINED 0
  { s with boot := { s.boot with sby := 2, sbyAt := s.now } }

/-- Boot step 8: the engines that the START list enabled begin at the first tick after it; their frame is presented
PRES after the next (R446). -/
def State.showTick (s : State) : State :=
  match s.boot.show_ with
  | 1 => { s with boot := { s.boot with show_ := 2 } }
  | 2 => { s with boot := { s.boot with show_ := 3, showAt := some (s.now + qnsT (s.act F.PLK_PRES.OFS)) } }
  | _ => s

/-- The frame tick in the cycle at hand. Its faults are known at its end: a CRITICAL one among them keeps the frame stores
from swapping (R466). -/
def State.tickNow (s : State) : State :=
  let enter := s.boot.sby == 1
  let swaps := (engines.filter (fun n => s.fsEnds n (s.tickEarly n))).map s.fsMark
  let s := s.frameEnd.rwsLoad.tickCount.engineTick
  let s := s.outputTick (enter && s.on F.BOOT_SBY_CTRL.TILES)
  let s := s.bltTick
  let s := (s.frameBegin.fsTick swaps).freezeTick
  let s := (s.tickAdvance s.now).audTick.showTick
  if enter then s.sbyEntry else s

/-- FRAME_TICK (R20): at its scheduled time, while ticks are generated. With RUN = 0 a locked loop's tick sequence goes
on unseen (R28). -/
def State.frameTick (s : State) : State :=
  match s.tick.at_ with
  | none => s
  | some t =>
    if 2 ≤ s.boot.sby then s
    else if s.running then (s.reach t).tickNow
    else (s.reach t).tickAdvance t

/-- While ENG_TICK_CTRL.RUN = 0 a recovery takes effect at once (R469), and so does a Standby request (R451). -/
def State.noTick (s : State) : State :=
  let s := s.recoverDue
  if !s.running && s.boot.sby == 1 then
    ((List.range 24).foldl (fun s p => s.portLast p (s.on F.BOOT_SBY_CTRL.TILES)) s).sbyEntry
  else s

/-- TICK_RUN (R24): a write of RUN. -/
def execTickRun (run : Bool) (s : State) : Host.Outcome State Fault Refusal := done (s.recoverDue.setRun run).noTick

/-- FRAME_TICK (R20). -/
def execFrameTick (s : State) : Host.Outcome State Fault Refusal := done s.frameTick

end Sys2Proof.Machine
end

