-- ==== Sys2Proof/Machine/Boot.lean ====
section
/-! DEFINITION. The boot (20_startup_standby_and_scale.md R438-R449) and the checks of the show image
(19_identity_and_sessions.md R426, R427), and what the verify units answer (R417). -/

namespace Sys2Proof.Machine

/-- The boot's state changed by `f`. -/
def State.modBoot (s : State) (f : BootS → BootS) : State := { s with boot := f s.boot }

/-! ### The flash (R438-R440) -/

/-- `n` bytes of the flash from offset `o`; 0xFF where erased. -/
def State.flashBytes (s : State) (o n : Nat) : List Byte := (List.range n).map (fun i => Tbl.get 0xFF#8 s.boot.flash (o + i))

/-- A byte of the flash is replaced. -/
def State.flashPut (s : State) (o : Nat) (b : Byte) : State :=
  s.modBoot (fun x => { x with flash := Tbl.set 0xFF#8 x.flash o b })

/-- S in bytes (R439). -/
def State.flashSize (s : State) : Nat := s.boot.size * 2 ^ 20

/-- The flash offset of image A or B (R439). -/
def State.imageAt (s : State) (ix : Nat) : Nat := if ix = 0 then 0 else s.flashSize / 2

/-- Little-endian field of an image. -/
def State.imgLe (s : State) (ix o n : Nat) : Nat := leVal (s.flashBytes (s.imageAt ix + o) n)

def State.secCount (s : State) (ix : Nat) : Nat := s.imgLe ix 0x0C 2
def State.ffCount (s : State) (ix : Nat) : Nat := s.imgLe ix 0x0E 2
def State.imageSize (s : State) (ix : Nat) : Nat := s.imgLe ix 0x08 4

/-- An entry of the section table (R440). -/
structure Sec where
  typ : Nat
  flags : Nat
  off : Nat
  size : Nat
  dest : Nat
  digest : List Byte
  rest : Nat
  deriving DecidableEq, Repr

/-- Entry `i` of the section table of image `ix`. -/
def State.section_ (s : State) (ix i : Nat) : Sec :=
  let o := 0x200 + 80 * i
  { typ := s.imgLe ix o 4, flags := s.imgLe ix (o + 4) 4, off := s.imgLe ix (o + 8) 4, size := s.imgLe ix (o + 12) 4,
    dest := s.imgLe ix (o + 16) 8, digest := s.flashBytes (s.imageAt ix + o + 24) 48, rest := s.imgLe ix (o + 72) 8 }

/-- The section table of image `ix`. -/
def State.sections (s : State) (ix : Nat) : List Sec := (List.range (s.secCount ix)).map (s.section_ ix)

/-- M0: SHA-384 of header bytes 0x000-0x0FF and the section table (R440). -/
def State.headerDigest (s : State) (ix : Nat) : List Byte :=
  sha384 (s.flashBytes (s.imageAt ix) 0x100 ++ s.flashBytes (s.imageAt ix + 0x200) (80 * s.secCount ix))

/-! ### The checks of R443 -/

/-- Two ranges of bytes meet. -/
def meets (a n b m : Nat) : Bool := decide (a < b + m) && decide (b < a + n)

/-- Every pair of a list, first before second, satisfies `p`. -/
def pairsAll {α : Type} (p : α → α → Bool) : List α → Bool
  | [] => true
  | a :: t => t.all (p a) && pairsAll p t

/-- ERR 0x11: sizes, counts and reserved fields. -/
def State.sizeOk (s : State) (ix : Nat) : Bool :=
  let cnt := s.secCount ix
  decide (s.imageSize ix ≤ s.flashSize) && decide (0x200 + 80 * cnt ≤ s.imageSize ix) && decide (1 ≤ cnt) &&
    decide (cnt ≤ 256) && decide (1 ≤ s.ffCount ix) && decide (s.ffCount ix ≤ cnt) && s.imgLe ix 0x1C 4 == 0 &&
    (s.flashBytes (s.imageAt ix + 0x81) 127).all (· == 0#8) && (s.flashBytes (s.imageAt ix + 0x160) 160).all (· == 0#8) &&
    (s.sections ix).all (fun e => decide (e.flags < 2) && e.rest == 0)

/-- A DATA section's destination lies in populated HBM. -/
def State.inHbm (s : State) (a n : Nat) : Bool := decide (a + n ≤ s.gib * 2 ^ 30)

/-- The placement of R441 and the layout in flash (ERR 0x12). -/
def State.layoutOk (s : State) (ix : Nat) : Bool :=
  let l := s.sections ix
  let ff := s.ffCount ix
  let count := fun t => (l.filter (fun e => e.typ == t)).length
  let first := fun t => ((List.range l.length).zip l).all (fun e => e.2.typ != t || decide (e.1 < ff))
  let fits := l.all (fun e => decide (e.off + e.size ≤ s.imageSize ix))
  let apart := pairsAll (fun (a b : Sec) => !meets a.off a.size b.off b.size) l
  let known := l.all (fun e => [1, 2, 3, 0x10, 0x20, 0x21, 0x22].contains e.typ)
  let place := (match l with
      | e :: _ => e.typ == 1
      | [] => false) && count 1 == 1 && [2, 3, 0x20, 0x21, 0x22].all (fun t => decide (count t ≤ 1)) &&
    [2, 0x20, 0x21, 0x22].all first
  let order := (l.take ff).all (fun a => (l.drop ff).all (fun b => decide (a.off < b.off)))
  fits && apart && known && place && order

/-- A DATA destination is wholly in populated HBM, the shared SRAM, or the local SRAM of one core. -/
def State.destOk (s : State) (e : Sec) : Bool :=
  s.inHbm e.dest e.size || (decide (0x1000000000 ≤ e.dest) && decide (e.dest + e.size ≤ 0x1000400000)) ||
    (List.range 4).any (fun c => decide (0x1040000000 + 0x40000 * c ≤ e.dest) &&
      decide (e.dest + e.size ≤ 0x1040000000 + 0x40000 * (c + 1)))

/-- ERR 0x13: DATA destinations. -/
def State.destsOk (s : State) (ix : Nat) : Bool :=
  let d := (s.sections ix).filter (fun e => e.typ == 0x10)
  d.all s.destOk && pairsAll (fun (a b : Sec) => !meets a.dest a.size b.dest b.size) d &&
    d.all (fun e => !meets e.dest e.size (s.imgLe ix 0x10 8) (s.imgLe ix 0x18 4))

/-- A section is copied into the wake area (R444): all but HBM DATA. -/
def State.inWake (s : State) (e : Sec) : Bool := e.typ != 0x10 || !s.inHbm e.dest e.size

/-- ERR 0x14: the wake area. -/
def State.wakeOk (s : State) (ix : Nat) : Bool :=
  let need := (((s.sections ix).filter s.inWake).map (fun e => e.size)).foldl (· + ·) 0
  s.inHbm (s.imgLe ix 0x10 8) (s.imgLe ix 0x18 4) && decide (need + 131072 ≤ s.imgLe ix 0x18 4)

/-- The first check of R443 that fails, in code order; 0 where all pass. -/
def State.imageErr (s : State) (ix : Nat) : Nat :=
  if !s.sizeOk ix then 0x11 else if !s.layoutOk ix then 0x12 else if !s.destsOk ix then 0x13
  else if !s.wakeOk ix then 0x14 else 0

/-! ### Steps 1 and 2 -/

/-- The boot halts (R449): nothing more is loaded and no port is enabled. -/
def State.halt (s : State) (err : Nat) : State :=
  let s := (s.wr F.BOOT_STATUS.PHASE 11).modBoot (fun b => { b with secs := [], list := none, resident := none })
  let s := if err = 0 then s else s.wr F.BOOT_STATUS.ERR err
  (List.range 24).foldl State.portHalt s

/-- A candidate is rejected: by R426 (a code below 0x10, into BOOT_ERR) or by R443 (into ERR). -/
def State.imageReject (s : State) (ix code : Nat) : State :=
  (if code < 0x10 then s.wr F.SEC_STATUS.BOOT_ERR code else s.wr F.BOOT_STATUS.ERR code).fault 0x38 ix

/-- The sections of an image in the order in which the boot loads them, with their steps (R446): key sections and
CONFIG; first-frame DATA; START; the others. -/
def State.loadPlan (s : State) (ix : Nat) : List (Nat × Nat) :=
  let l := (List.range (s.secCount ix)).map (fun i => (i, (s.section_ ix i).typ))
  let ff := s.ffCount ix
  let pick := fun (step : Nat) (p : Nat → Nat → Bool) => (l.filter (fun e => p e.1 e.2)).map (fun e => (step, e.1))
  pick 3 (fun _ t => decide (0x20 ≤ t)) ++ pick 3 (fun _ t => t == 1) ++ pick 7 (fun i t => t == 0x10 && decide (i < ff)) ++
    pick 8 (fun _ t => t == 2) ++ pick 9 (fun i t => t == 3 || (t == 0x10 && decide (ff ≤ i)))

/-- The device takes image `ix` as its running image: its header's facts, its sections, its wake area. -/
def State.takeImage (s : State) (ix : Nat) : State :=
  let s := ((s.wr F.BOOT_STATUS.IMAGE ix).wr F.SEC_STATUS.IMG_OK 1).wr F.SEC_STATUS.SIGNER (s.imgLe ix 6 1)
  let s := s.wr F.SEC_OTP.SVN (s.imgLe ix 7 1)
  let s := s.modSec (fun c => { c with meas := Tbl.put (Tbl.put (Tbl.put c.meas 0 (beVal (s.headerDigest ix))) 2 0) 3 0,
                                       enrolled := [], anchors := [], operators := [] })
  let base := s.imgLe ix 0x10 8
  let size := s.imgLe ix 0x18 4
  s.modBoot (fun b => { b with
    secs := s.loadPlan ix, list := none, resident := none, show_ := 0, showAt := none, wakeBase := base, wakeLen := 0,
    wakeSecs := [], wakeSize := size, wakeMem := s.mem.filter (fun c => decide (base ≤ c.1) && decide (c.1 < base + size)) })

/-- Once no candidate waits: the boot takes the one with the higher SVN, image A where they are equal, or halts
(R439, R449). -/
def State.bootPick (s : State) : State :=
  if s.boot.waiting ≠ [] then s
  else match s.boot.passed with
    | [] => s.halt 0
    | [i] => ((s.takeImage i).bootMark 1 s.now).modBoot (fun b => { b with passed := [] })
    | _ =>
      let i := if s.imgLe 0 7 1 < s.imgLe 1 7 1 then 1 else 0
      ((s.takeImage i).bootMark 1 s.now).modBoot (fun b => { b with passed := [1 - i] })

/-- The header of image `ix` as step 1 finds it: skipped, rejected for its signer, or sent to a verify unit. -/
def State.imageTry (s : State) (ix : Nat) : State :=
  if s.imgLe ix 0 4 ≠ 0x51534D31 ∨ s.imgLe ix 4 2 ≠ 1 then s
  else if !s.provisioned then s.imageReject ix 1
  else
    let k := s.imgLe ix 6 1
    if 3 < k ∨ !s.usable k ∨ beVal (sha384 (s.flashBytes (s.imageAt ix + 0x20) 97)) ≠ s.otpHash k then s.imageReject ix 2
    else (s.askVerify (.image ix)).modBoot (fun b => { b with waiting := b.waiting ++ [ix] })

/-- The signature of a candidate has been checked: signature, SVN (R426), then layout (R443). -/
def State.imageVerified (s : State) (ix : Nat) : State :=
  let s := s.modBoot (fun b => { b with waiting := b.waiting.filter (· != ix) })
  let key := s.flashBytes (s.imageAt ix + 0x20) 97
  let svn := s.imgLe ix 7 1
  let s := if !ecVerify key (s.headerDigest ix) (s.flashBytes (s.imageAt ix + 0x100) 96) then s.imageReject ix 3
    else if svn < ones64 s.sec.counter ∨ 64 < svn then s.imageReject ix 4
    else if s.imageErr ix ≠ 0 then s.imageReject ix (s.imageErr ix)
    else s.modBoot (fun b => { b with passed := b.passed ++ [ix] })
  s.bootPick

/-- The boot begins (R446): the flash is found and both candidates are looked at. An unprovisioned device waits in its
ROM (R423). -/
def State.bootStart (s : State) : State :=
  let start := s.now
  let s := match s.boot.xspiRise with
    | some r => s.reach (r + 100 * usT)
    | none => s
  let s := s.modBoot (fun b => { b with start := some start, waiting := [], passed := [], did := 0, secs := [], list := none,
                                        resident := none, show_ := 0, showAt := none, wakeLen := 0, wakeSecs := [], sby := 0,
                                        wakeT := none, runHeld := false, wakeDue := [], porst := false })
  let s := s.modAud (fun a => { a with last := s.now })
  let s := s.otpRegs
  let s := (s.wr F.BOOT_FLASH.SIZE s.boot.size).wr F.BOOT_STATUS.FLASH (if s.boot.size = 0 then 0 else s.boot.mode)
  let s := s.wr F.BOOT_STATUS.PHASE (if s.provisioned then 1 else 0)
  let s := if s.boot.size = 0 then s else (s.imageTry 0).imageTry 1
  if s.provisioned then s.bootPick else s

/-- XSPI_RST_N is low for 50 µs more, and step 1 begins its read 100 µs after it rises (R494, log 41). -/
def State.flashReset (s : State) : State :=
  let rise := s.now + 50 * usT
  (s.modBoot (fun b => { b with xspiRise := some rise })).emit (.xspiRst true rise)

/-- PORST_RELEASE (R446): PORST_N rises, with a flash of `size` MiB that is read in a mode (1 Fallback, 2 Fast). -/
def State.porstRelease (s : State) (size mode : Nat) : State :=
  if s.boot.start.isSome then s
  else (s.modBoot (fun b => { b with size := min 512 size, mode := clampN 1 2 mode })).flashReset.banksCheck.bootStart

/-- HBM_TRAIN_DONE (R446 step 2, R517): the stack has `height` dies. -/
def State.hbmTrained (s : State) (height : Nat) : State :=
  if !s.boot.did.testBit 1 || s.boot.did.testBit 2 || s.rd F.BOOT_STATUS.PHASE == 11 then s
  else
    let s := s.wr F.HBM_STATUS.HEIGHT height
    if 2 * height ≠ s.gib then s.halt 0x15
    else
      let s := { s with mem := s.mem.filter (fun c => decide (s.gib * 2 ^ 30 ≤ c.1)),
                        memc := { s.memc with hbmErr := [], rmw := [] }, boot := { s.boot with wakeMem := [] } }
      ((s.wr F.HBM_STATUS.TRAINED 1).hbmGo).bootMark 2 s.now

/-! ### Sections (R427, R441, R444, R446, R448) -/

/-- The entries of a key section: `n` of `size` bytes after its 16-byte header; none where the header or the length
breaks the format. -/
def keyEntries (lo hi size : Nat) (b : List Byte) : Option (List (List Byte)) :=
  let n := leAt b 0 4
  if n < lo ∨ hi < n ∨ b.length ≠ 16 + size * n ∨ ((b.drop 4).take 12).any (· != 0#8) then none
  else some ((List.range n).map (fun i => (b.drop (16 + size * i)).take size))

/-- A public key in the uncompressed form (R427), followed by zeros from byte `o` on. -/
def keyForm (o : Nat) (e : List Byte) : Bool := e.head? == some 4#8 && (e.drop o).all (· == 0#8)

/-- A key section is applied (R427, R442); none where it breaks its format. -/
def State.keySection (s : State) (t : Nat) (b : List Byte) : Option State :=
  if t = 0x20 then match keyEntries 0 2048 48 b with
    | none => none
    | some l => if pairsAll (fun x y => decide (beVal x < beVal y)) l
      then some (s.modSec (fun c => { c with enrolled := l, meas := Tbl.put c.meas 2 (beVal (sha384 b)) })) else none
  else if t = 0x21 then match keyEntries 1 4 128 b with
    | none => none
    | some l => if l.all (keyForm 97) then some (s.modSec (fun c => { c with anchors := l.map (fun e => e.take 97) })) else none
  else match keyEntries 0 8 128 b with
    | none => none
    | some l =>
      let priv := fun (e : List Byte) => leAt e 97 1
      if l.all (fun e => keyForm 98 e && decide (1 ≤ priv e) && decide (priv e ≤ 3))
      then some (s.modSec (fun c => { c with operators := l.map (fun e => (e.take 97, priv e))
                                             meas := Tbl.put c.meas 3 (beVal (sha384 b)) })) else none

/-- OP, ADDR, VALUE and ARG of a list entry (R445). -/
def ListRun.word (r : ListRun) (j : Nat) : Nat := leAt r.bytes (16 * r.ix + 4 * j) 4

/-- BOOT_LIST: the list stops (R445); during a boot that halts it (R448). -/
def State.listStop (s : State) : State :=
  match s.boot.list with
  | none => s
  | some r =>
    let s := ((s.hwSet F.BOOT_STATUS.LIST_ERR).wr F.BOOT_STATUS.LIST r.which).wr F.BOOT_LIST_IDX.INDEX r.ix
    let s := (s.modBoot (fun b => { b with list := none })).fault 0x31 r.which
    if s.boot.did.testBit 9 then s else s.halt 0x20

/-- The list stands at entry `ix`: an OP of no action, or the end of the section, stops it (R445). -/
def State.listAt (s : State) (r : ListRun) (ix : Nat) : State :=
  let r := { r with ix := ix, t := s.now }
  let s := s.modBoot (fun b => { b with list := some r })
  if r.bytes.length < 16 * ix + 16 ∨ 3 < r.word 0 then s.listStop else s

/-- Execution of a list begins. -/
def State.listBegin (s : State) (which : Nat) (b : List Byte) : State :=
  s.listAt { which := which, bytes := b, ix := 0, t := s.now } 0

/-- What the boot does once sections or lists are done: step 7 ends, step 8 without a START list is under way, the RESIDENT
list runs, step 9 ends (R446). -/
def State.bootFlow (s : State) : State :=
  if !s.boot.did.testBit 3 || s.rd F.BOOT_STATUS.PHASE == 11 then s
  else
    let left := fun k => s.boot.secs.any (fun e => e.1 == k)
    let s := if left 3 || left 7 then s else s.bootMark 7 s.now
    let s := if s.boot.did.testBit 7 && !left 8 && s.boot.list.isNone && s.boot.show_ == 0
      then s.modBoot (fun b => { b with show_ := 1 }) else s
    if s.boot.secs ≠ [] ∨ s.boot.list.isSome ∨ s.boot.did.testBit 9 then s
    else match s.boot.resident with
      | some b => (s.modBoot (fun x => { x with resident := none })).listBegin 3 b
      | none => (s.wr F.BOOT_STATUS.RESIDENT 1).bootMark 9 s.now

/-- A section is discarded (R448). Where the boot takes the other image for it, no session outlives the first (R435). -/
def State.secDrop (s : State) (step i : Nat) (must : Bool) : State :=
  let s := ((s.inc F.BOOT_SEC_FAIL.COUNT).wr F.BOOT_STATUS.PARTIAL 1).fault 0x39 i
  if !must || step == 9 then s.bootFlow
  else match s.boot.passed with
    | [] => s.halt 0
    | j :: _ =>
      let s := (s.wr F.BOOT_STATUS.FALLBACK 1).modBoot (fun b => { b with passed := [], did := b.did % 8 })
      ((s.wr F.BOOT_STATUS.PHASE 3).takeImage j).sessEnd

/-- The Skokor writes into the wake area, and knows what it has written (R444). -/
def State.wakePut (s : State) (a : Nat) (b : List Byte) : State :=
  let (_, s) := s.busWrite 0x30 a b
  s.modBoot (fun x => { x with wakeMem := ((List.range b.length).zip b).foldl (fun m e => Tbl.set 0#8 m (a + e.1) e.2) x.wakeMem })

/-- What the wake area holds unless another has written there (R444). -/
def State.wakeBytes (s : State) : List Byte :=
  (List.range s.boot.wakeSize).map (fun i => Tbl.get 0#8 s.boot.wakeMem (s.boot.wakeBase + i))

/-- A section whose digest has passed is measured (R437) and copied into the wake area (R444). -/
def State.secKeep (s : State) (e : Sec) (b : List Byte) : State :=
  let m1 := sha384 (beBytes 48 (Tbl.get 0 s.sec.meas 1) ++ leBytes 4 e.typ ++ e.digest)
  let s := s.modSec (fun c => { c with meas := Tbl.put c.meas 1 (beVal m1), sections := c.sections + 1 })
  if !s.inWake e then s
  else
    let s := s.wakePut (s.boot.wakeBase + s.boot.wakeLen) b
    s.modBoot (fun x => { x with wakeLen := x.wakeLen + e.size, wakeSecs := x.wakeSecs ++ [(e.typ, e.dest, e.size)] })

/-- SECTION_LOADED (R446, R448): the next section has been copied and hashed. -/
def State.sectionLoaded (s : State) : State :=
  match s.boot.secs with
  | [] => s
  | (step, i) :: rest =>
    if !s.on F.HBM_STATUS.TRAINED || (step != 3 && !s.boot.did.testBit 3) || (step == 8 && s.boot.list.isSome) then s
    else
      let ix := s.rd F.BOOT_STATUS.IMAGE
      let e := s.section_ ix i
      let b := s.flashBytes (s.imageAt ix + e.off) e.size
      let must := e.flags % 2 == 1 || e.typ == 1
      let s := s.modBoot (fun x => { x with secs := rest })
      if sha384 b ≠ e.digest then s.secDrop step i must
      else if e.typ = 0x10 then
        (match s.busWrite 0x30 e.dest b with
        | (.ok _, s) => (s.secKeep e b).bootFlow
        | (_, s) => s.secDrop step i must)
      else if 0x20 ≤ e.typ then
        (match s.keySection e.typ b with
        | some s => (s.secKeep e b).bootFlow
        | none => s.secDrop step i false)
      else if e.typ = 3 then ((s.secKeep e b).modBoot (fun x => { x with resident := some b })).bootFlow
      else (s.secKeep e b).listBegin e.typ b

/-- A list has ended (R445, R446): CONFIG completes step 3, START lets step 8 go on, RESIDENT completes step 9. -/
def State.listDone (s : State) : State :=
  match s.boot.list with
  | none => s
  | some r =>
    let s := s.modBoot (fun b => { b with list := none })
    if s.boot.sby = 6 then s
    else match r.which with
      | 1 => (s.bootMark 3 s.now).bootSteps.bootFlow
      | 2 => (s.modBoot (fun b => { b with show_ := 1 })).bootFlow
      | _ => s.bootFlow

/-! ### The verify units (R417, R418) -/

/-- VERIFY_DONE: the request that has been longest in a unit is decided, and the head of the queue takes its place. -/
def State.verifyDone (s : State) : State :=
  match s.sec.verRun with
  | [] => s
  | (j, t) :: rest =>
    let s := s.reach t
    let next := match s.sec.verQ with
      | q :: _ => rest ++ [(q, s.now + 150000)]
      | [] => rest
    let s := s.modSec (fun c => { c with verRun := next, verQ := c.verQ.drop 1 })
    match j with
    | .tile k kind => s.tileVerified k kind
    | .session k => s.openVerified k
    | .image ix => s.imageVerified ix

/-! ### Meanings -/

/-- PORST_RELEASE (R446). -/
def execPorstRelease (size mode : Nat) (s : State) : Host.Outcome State Fault Refusal := done (s.porstRelease size mode)

/-- HBM_TRAIN_DONE (R446). -/
def execHbmTrainDone (height : Nat) (s : State) : Host.Outcome State Fault Refusal := done (s.hbmTrained height)

/-- SECTION_LOADED (R446). -/
def execSectionLoaded (s : State) : Host.Outcome State Fault Refusal := done s.sectionLoaded

/-- VERIFY_DONE (R417). -/
def execVerifyDone (s : State) : Host.Outcome State Fault Refusal := done s.verifyDone.sessSettle

end Sys2Proof.Machine
end

