-- ==== Sys2Proof/Machine/Clove.lean ====
section
/-! DEFINITION. The Clove engines (17_clove_engines.md R390-R403). -/

namespace Sys2Proof.Machine

/-- The state of engine `n`. -/
def State.clvS (s : State) (n : Nat) : CloveS := Tbl.get {} s.clv n

/-- The state with engine `n` changed by `f`. -/
def State.modClv (s : State) (n : Nat) (f : CloveS → CloveS) : State := { s with clv := Tbl.put s.clv n (f (s.clvS n)) }

/-- A W1C flag of CLVn_STATUS is set: an event of source 147 + n (R400). -/
def State.clvFlag (s : State) (n : Nat) (f : Nat → Fld) : State := s.flag (f n) (147 + n)

/-- The program word that the state register names (R393). -/
def State.clvWord (s : State) (n : Nat) : Nat :=
  let i := s.rd (F.CLVn_SREG.STATE n)
  s.reg (R.CLVn_PROGi_LO n i) + s.reg (R.CLVn_PROGi_HI n i) * 2 ^ 32

/-- Fields of a program word (R393). -/
def clvOp (w : Nat) : Nat := bitsOf w 28 4
def clvCnt (w : Nat) : Nat := bitsOf w 41 3 + 1
def clvDelay (w : Nat) : Nat := bitsOf w 45 5

/-- The system pin of window pin `j`. -/
def State.winPin (s : State) (n j : Nat) : Nat := (s.rd (F.CLVn_PINS.PBASE n) + j % 8) % 96

/-- The filtered levels of the window, bit j for window pin j (R391). -/
def State.winLevels (s : State) (n : Nat) : Nat :=
  (List.range 8).foldl (fun a j => if s.pinIn (s.winPin n j) then a + 2 ^ j else a) 0

/-- The pads of the window follow OUTV. -/
def State.clvPads (s : State) (n : Nat) : State :=
  s.pinsUpdate (((List.range 8).map (s.winPin n)).filter (fun p => s.func p == 1))

/-- OUTV takes bits `v` on the window pins of `mask`. -/
def State.setOutv (s : State) (n mask v : Nat) : State :=
  s.modClv n (fun c => { c with outv := (c.outv &&& (0xFF ^^^ mask)) ||| (v &&& mask) })

/-- The FIFO levels follow the FIFOs. -/
def State.clvLevels (s : State) (n : Nat) : State :=
  (s.wr (F.CLVn_STATUS.TXLVL n) (min 4 (s.clvS n).tx.length)).wr (F.CLVn_STATUS.RXLVL n) (s.clvS n).rx.length

/-- Bits of a rotated window: `v` at window pins `at_` .. `at_ + c - 1`, modulo 8. -/
def winRot (at_ c v : Nat) : Nat :=
  (List.range c).foldl (fun a i => if v.testBit i then a ||| 2 ^ ((at_ + i) % 8) else a) 0

/-! ### Operations (R394) -/

/-- EMIT: the bits beyond the first TXLEFT are sent as 0. -/
def State.clvEmit (s : State) (n c : Nat) : State :=
  let at_ := s.rd (F.CLVn_PINS.EMIT_PIN n)
  let t := s.rd (F.CLVn_TXSH.TXSH n)
  let left := s.rd (F.CLVn_SREG.TXLEFT n)
  let msb := s.on (F.CLVn_CTRL.MSB_FIRST n)
  let v := (List.range c).foldl (fun a i =>
    if decide (i < left) && t.testBit (if msb then 31 - i else i) then a + 2 ^ i else a) 0
  let s := s.setOutv n (winRot at_ c 0xFF) (winRot at_ c v)
  let s := s.wr (F.CLVn_TXSH.TXSH n) (if msb then t * 2 ^ c else t / 2 ^ c)
  s.wr (F.CLVn_SREG.TXLEFT n) (left - c)

/-- SAMPLE. -/
def State.clvSample (s : State) (n c : Nat) : State :=
  let at_ := s.rd (F.CLVn_PINS.SAMPLE_PIN n)
  let lv := s.winLevels n
  let v := (List.range c).foldl (fun a i => if lv.testBit ((at_ + i) % 8) then a + 2 ^ i else a) 0
  let r := s.rd (F.CLVn_RXSH.RXSH n)
  let r' := if s.on (F.CLVn_CTRL.MSB_FIRST n) then r * 2 ^ c + v else r / 2 ^ c + v * 2 ^ (32 - c)
  (s.wr (F.CLVn_RXSH.RXSH n) r').wr (F.CLVn_SREG.RXFILL n) (min 32 (s.rd (F.CLVn_SREG.RXFILL n) + c))

/-- FETCH, where a word is there. -/
def State.clvFetch (s : State) (n : Nat) : State :=
  match (s.clvS n).tx with
  | [] => s
  | v :: t =>
    let s := s.modClv n (fun c => { c with tx := t })
    ((s.wr (F.CLVn_TXSH.TXSH n) v).wr (F.CLVn_SREG.TXLEFT n) 32).clvLevels n

/-- DEPOSIT, where a place is free. -/
def State.clvDeposit (s : State) (n : Nat) : State :=
  let v := s.rd (F.CLVn_RXSH.RXSH n)
  let s := s.modClv n (fun c => { c with rx := c.rx ++ [v] })
  ((s.wr (F.CLVn_RXSH.RXSH n) 0).wr (F.CLVn_SREG.RXFILL n) 0).clvLevels n

/-- LDCA, LDCB and DECC. -/
def State.clvLdca (s : State) (n : Nat) : State := s.wr (F.CLVn_STALL_CNT.LC n) (s.rd (F.CLVn_LC.CA n))
def State.clvLdcb (s : State) (n : Nat) : State := s.wr (F.CLVn_STALL_CNT.LC n) (s.rd (F.CLVn_LC.CB n))
def State.clvDecc (s : State) (n : Nat) : State := s.wr (F.CLVn_STALL_CNT.LC n) (s.rd (F.CLVn_STALL_CNT.LC n) - 1)

/-! ### Execution -/

/-- The engine executes: it is RUNNING or STOPPING. -/
def State.clvLive (s : State) (n : Nat) : Bool :=
  let st := s.rd (F.CLVn_CTRL.STATE n)
  st == 2 || st == 3

/-- The instruction at the state register may begin in this engine cycle. -/
def State.clvReady (s : State) (n : Nat) : Bool := s.clvLive n && !(s.clvS n).begun && !(s.clvS n).stalled

/-- Side-set (R396). -/
def State.clvSide (s : State) (n w : Nat) : State :=
  if w.testBit 40 then s.setOutv n (s.rd (F.CLVn_PINS.SSMASK n)) (bitsOf w 32 8) else s

/-- The pins as the instruction reads them: those that it has itself begun to drive otherwise still as they were before it
(R391). -/
def State.clvReads (s : State) (n : Nat) : Nat :=
  let c := s.clvS n
  let lv := s.winLevels n
  (List.range 8).foldl (fun a j => setBitN a j ((if c.own.testBit j then c.pins else lv).testBit j)) 0

/-- The engine's drives have gone from `old` to what they are now: its instruction has made those that differ (R391). -/
def State.clvMade (s : State) (n old : Nat) : State :=
  let new := (s.clvS n).outv
  let dir := s.rd (F.CLVn_PINS.DIR n)
  s.modClv n (fun c => { c with own := (List.range 8).foldl (fun a j =>
    if dir.testBit j && old.testBit j != new.testBit j then setBitN a j true else a) c.own })

/-- The first cycle of an instruction whose operation `op` proceeds (R396). Pins are read at the edge that begins the
last cycle. -/
def State.clvBegin (s : State) (n : Nat) (op : State → State) : State :=
  let w := s.clvWord n
  let lv := s.clvReads n
  let old := (s.clvS n).outv
  let s := s.modClv n (fun c => { c with begun := true, left := 1 + clvDelay w, pins := lv })
  let s := s.wr (F.CLVn_STATUS.STALLED n) 0
  let s := (((op s).clvSide n w).clvMade n old).clvPads n
  let s := if w.testBit 50 then s.pulse (0x0E0 + 2 * n) else s
  let s := if w.testBit 51 then s.pulse (0x0E0 + 2 * n + 1) else s
  if w.testBit 52 then s.clvFlag n F.CLVn_STATUS.IRQ else s

/-- A stalled engine cycle begins (R397). -/
def State.clvStall (s : State) (n : Nat) : State :=
  let w := s.clvWord n
  let lv := s.clvReads n
  let old := (s.clvS n).outv
  ((((s.modClv n (fun c => { c with stalled := true, pins := lv })).wr (F.CLVn_STATUS.STALLED n) 1).clvSide n w).clvMade n old).clvPads n

/-- PCLK cycles of the engine cycle that begins, and the accumulator (R390). -/
def State.clvLen (s : State) (n acc : Nat) : Nat × Nat :=
  let i := max 1 (s.rd (F.CLVn_CLKDIV.INT n))
  let a := acc + s.rd (F.CLVn_CLKDIV.FRAC n)
  if 256 ≤ a then (i + 1, a - 256) else (i, a)

/-- The engine cycle that begins at `t`, and its length (R390). -/
def State.clvNextCycle (s : State) (n t : Nat) : State :=
  let (len, acc) := s.clvLen n (s.clvS n).acc
  s.modClv n (fun c => { c with acc := acc, cycAt := t, cycEnd := t + 3 * len })

/-- The engine leaves OFF: STARTING for 2 PCLK cycles; its first engine cycle begins then (R401), with the length that CLKDIV
gives it then (R390). -/
def State.clvStart (s : State) (n : Nat) : State :=
  (s.wr (F.CLVn_CTRL.STATE n) 1).modClv n (fun c =>
    { c with acc := 0, begun := false, stalled := false, own := 0, cycAt := s.now + 6, cycEnd := s.now + 6 })

/-- The engine goes OFF; a held ENABLE starts it again (R53, R401). -/
def State.clvOff (s : State) (n : Nat) : State :=
  let s := s.modClv n (fun c => { c with begun := false, stalled := false, own := 0 })
  let s := s.wr (F.CLVn_STATUS.STALLED n) 0
  if s.on (F.CLVn_CTRL.ENABLE n) then s.clvStart n else s.wr (F.CLVn_CTRL.STATE n) 0

/-- A STARTING engine whose 2 PCLK cycles have passed is RUNNING, and its first engine cycle begins; where ENABLE was written
0 meanwhile it is STOPPING with its first instruction in progress (R53, R401). -/
def State.clvFollow (s : State) (n : Nat) : State :=
  if s.rd (F.CLVn_CTRL.STATE n) = 1 ∧ (s.clvS n).cycAt ≤ s.now then
    (s.wr (F.CLVn_CTRL.STATE n) (if s.on (F.CLVn_CTRL.ENABLE n) then 2 else 3)).clvNextCycle n (s.clvS n).cycAt
  else s

/-- An instruction of a STARTING engine waits for its first engine cycle (R401). -/
def State.clvArm (s : State) (n : Nat) : State :=
  (if s.rd (F.CLVn_CTRL.STATE n) = 1 then (s.reach (s.clvS n).cycAt).clvFollow n else s).pinsDue

/-- An operation of the list `ops` begins, where the state register names one. -/
def State.clvRun (s : State) (n : Nat) (ops : List Nat) (op : State → State) : State :=
  let s := s.clvArm n
  if s.clvReady n && ops.contains (clvOp (s.clvWord n)) then s.clvBegin n op else s

/-- FETCH begins, or stalls while the TX FIFO is empty. -/
def State.clvRunFetch (s : State) (n : Nat) : State :=
  let s := s.clvArm n
  if s.clvReady n && clvOp (s.clvWord n) == 3 then
    if (s.clvS n).tx = [] then s.clvStall n else s.clvBegin n (fun s => s.clvFetch n)
  else s

/-- DEPOSIT begins, or stalls while the RX FIFO is full. -/
def State.clvRunDeposit (s : State) (n : Nat) : State :=
  let s := s.clvArm n
  if s.clvReady n && clvOp (s.clvWord n) == 4 then
    if 4 ≤ (s.clvS n).rx.length then s.clvStall n else s.clvBegin n (fun s => s.clvDeposit n)
  else s

/-- A task-input event came in the PCLK cycle at hand (R400). -/
def State.trigNow (s : State) (n : Nat) : Option Bool :=
  match (s.clvS n).trig with
  | some (p, b) => if p = s.now / 3 then some b else none
  | none => none

/-- A condition (R395). TRIG_PEND is taken without an event of the same PCLK cycle, which stays for the next instruction
(R400). -/
def State.clvCond (s : State) (n code : Nat) : Bool :=
  if Nat.ble 2 code && Nat.ble code 9 then (s.clvS n).pins.testBit (code - 2)
  else match code with
    | 1 => true
    | 10 => s.rd (F.CLVn_SREG.TXLEFT n) == 0
    | 11 => decide (4 ≤ (s.clvS n).rx.length)
    | 12 => (s.clvS n).tx.isEmpty
    | 13 => (s.trigNow n).getD (s.on (F.CLVn_STATUS.TRIG_PEND n))
    | 14 => s.rd (F.CLVn_STALL_CNT.LC n) == 0
    | _ => false

/-- The next state of a completed instruction (R396, R398). -/
def State.clvNext (s : State) (n w : Nat) (a b : Bool) : Nat :=
  let ns := bitsOf w (5 * (2 * b2n b + b2n a)) 5
  let top := s.rd (F.CLVn_WRAP.TOP n)
  if s.rd (F.CLVn_SREG.STATE n) = top ∧ ns = (top + 1) % 32 then s.rd (F.CLVn_WRAP.BOTTOM n) else ns

/-- An instruction completes at the end of its last cycle (R396, R400). -/
def State.clvFinish (s : State) (n : Nat) : State :=
  let w := s.clvWord n
  let sa := bitsOf w 20 4
  let sb := bitsOf w 24 4
  let ns := s.clvNext n w (s.clvCond n sa) (s.clvCond n sb)
  let s := if (sa = 13 ∨ sb = 13) ∧ s.trigNow n = none then s.wr (F.CLVn_STATUS.TRIG_PEND n) 0 else s
  (s.wr (F.CLVn_SREG.STATE n) ns).modClv n (fun c => { c with begun := false, own := 0 })

/-- The last cycle of an instruction ends in the PCLK cycle at hand. -/
def State.clvEnds (s : State) (n : Nat) : Bool :=
  (s.clvS n).begun && decide ((s.clvS n).left ≤ 1) && (s.clvS n).cycEnd / 3 == s.now / 3

/-- A FETCH removes its word in the PCLK cycle at hand: the instruction that begins in it, or proceeds after a stall, is one
(R399). -/
def State.fetchDue (s : State) (n : Nat) : Bool :=
  if s.clvEnds n then s.rd (F.CLVn_CTRL.STATE n) == 2 && clvOp ((s.clvFinish n).clvWord n) == 3
  else if (s.clvS n).stalled then
    s.rd (F.CLVn_CTRL.STATE n) == 2 && (s.clvS n).cycEnd / 3 == s.now / 3 && clvOp (s.clvWord n) == 3
  else s.clvReady n && (s.clvS n).cycAt / 3 == s.now / 3 && clvOp (s.clvWord n) == 3

/-- A STOPPING engine is OFF. -/
def State.clvStopTest (s : State) (n : Nat) : State := if s.rd (F.CLVn_CTRL.STATE n) = 3 then s.clvOff n else s

/-- Engines `m` and `n` drive a pin in common (R392). -/
def State.clvShare (s : State) (m n : Nat) : Bool :=
  s.rd (F.CLVn_PINS.DIR m) != 0 && s.rd (F.CLVn_PINS.DIR n) != 0 && (List.range 96).any (fun p => (s.clvOut n p).isSome && (s.clvOut m p).isSome)

/-- Engine `n` drives a pin that a lower-numbered engine drives (R392). -/
def State.clvConflict (s : State) (n : Nat) : Bool := (List.range n).any (fun m => s.clvShare m n)

/-- The engine cycle ends (R390, R396, R397). An engine that drives a pin of a lower-numbered engine has PIN_CONFLICT set
(R392). -/
def State.clvCycle (s : State) (n : Nat) : State :=
  let s := s.clvFollow n
  let s := if s.clvLive n && s.clvConflict n && !s.on (F.CLVn_STATUS.PIN_CONFLICT n)
    then s.clvFlag n F.CLVn_STATUS.PIN_CONFLICT else s
  let c := s.clvS n
  if !s.clvLive n then s
  else if c.stalled then
    let s := s.reach c.cycEnd
    let s := (s.incRc (F.CLVn_STALL_CNT.COUNT n)).modClv n (fun x => { x with stalled := false })
    (s.clvNextCycle n c.cycEnd).clvStopTest n
  else if c.begun then
    let s := (s.reach c.cycEnd).pinsDue
    let s := s.clvNextCycle n c.cycEnd
    if c.left ≤ 1 then (s.clvFinish n).clvStopTest n
    else
      let lv := s.clvReads n
      s.modClv n (fun x => { x with left := c.left - 1, pins := if c.left = 2 then lv else x.pins })
  else s

/-! ### Registers -/

/-- RESTART (R402). -/
def State.clvRestart (s : State) (n : Nat) : State :=
  let s := s.clvFollow n
  if s.rd (F.CLVn_CTRL.STATE n) ≠ 0 then s.clvFlag n F.CLVn_STATUS.CFG_REJECT
  else
    let s := s.modClv n (fun c => { c with tx := [], rx := [], acc := 0, trig := none })
    let s := (s.setReg (R.CLVn_SREG n) (s.rd (F.CLVn_CTRL.ENTRY n))).setReg (R.CLVn_TXSH n) 0
    let s := (s.setReg (R.CLVn_RXSH n) 0).wr (F.CLVn_STALL_CNT.LC n) 0
    ((s.wr (F.CLVn_STATUS.TRIG_PEND n) 0).wr (F.CLVn_STATUS.TRIG_OVR n) 0).clvLevels n

/-- A write of CLVn_CTRL (R401, R402): RESTART, then ENABLE. -/
def State.clvCtrlWrite (s : State) (n v : Nat) : State :=
  let s := s.clvFollow n
  let s := s.writeByCode (R.CLVn_CTRL n) v
  let s := if v.testBit 1 then s.clvRestart n else s
  let en := s.on (F.CLVn_CTRL.ENABLE n)
  match s.rd (F.CLVn_CTRL.STATE n) with
  | 0 => if en then s.clvStart n else s
  | 2 => if en then s
    else if (s.clvS n).begun || (s.clvS n).stalled then s.wr (F.CLVn_CTRL.STATE n) 3 else s.clvOff n
  | _ => s

/-- A write of CLVn_TXDATA (R399): a FETCH of the same PCLK cycle removes its word first. -/
def State.clvTx (s : State) (n v : Nat) : State :=
  let s := s.clvFollow n
  if 4 + b2n (s.fetchDue n) ≤ (s.clvS n).tx.length then s.clvFlag n F.CLVn_STATUS.TX_OVR
  else (s.modClv n (fun c => { c with tx := c.tx ++ [v % 2 ^ 32] })).clvLevels n

/-- A DEPOSIT that stalled in the PCLK cycle at hand proceeds after a core's read of the same cycle (R399). -/
def State.clvUnstall (s : State) (n : Nat) : State :=
  if (s.clvS n).stalled && (s.clvS n).cycAt / 3 == s.now / 3 && clvOp (s.clvWord n) == 4 then
    (s.modClv n (fun c => { c with stalled := false })).clvRunDeposit n
  else s

/-- A read of CLVn_RXDATA (R399). -/
def State.clvRx (s : State) (n : Nat) (core : Bool) : Nat × State :=
  match (s.clvS n).rx with
  | [] => (0, if core then s.clvFlag n F.CLVn_STATUS.RX_UNDER else s)
  | v :: t => (v, if core then ((s.modClv n (fun c => { c with rx := t })).clvLevels n).clvUnstall n else s)

/-- An event on the task input (R400). One in the PCLK cycle in which an instruction clears TRIG_PEND leaves it set and is
not lost. TRIG_PEND is frozen in OFF (R401). -/
def State.clvTrig (s : State) (n : Nat) : State :=
  match s.slcTake 3 n with
  | none => s
  | some (t, s) =>
    let s := (s.reach t).clvFollow n
    if s.rd (F.CLVn_CTRL.STATE n) = 0 then s
    else
    let pend := s.on (F.CLVn_STATUS.TRIG_PEND n)
    let w := s.clvWord n
    let clears := s.clvEnds n && (bitsOf w 20 4 == 13 || bitsOf w 24 4 == 13) && s.trigNow n == none
    let s := if pend && !clears then s.clvFlag n F.CLVn_STATUS.TRIG_OVR else s
    let s := if pend && !clears then s else s.modClv n (fun c => { c with trig := some (s.now / 3, pend) })
    s.wr (F.CLVn_STATUS.TRIG_PEND n) 1

/-- A write of a program word (R402). -/
def State.clvProg (s : State) (n i : Nat) (hi : Bool) (v : Nat) : State :=
  let s := s.clvFollow n
  if s.rd (F.CLVn_CTRL.STATE n) = 0 then s.writeByCode (if hi then R.CLVn_PROGi_HI n i else R.CLVn_PROGi_LO n i) v
  else s.clvFlag n F.CLVn_STATUS.PROG_BUSY

/-- A write of CLVn_SREG, or another register honoured only while OFF (R402). -/
def State.clvOffWrite (s : State) (n off v : Nat) : State :=
  let s := s.clvFollow n
  if s.rd (F.CLVn_CTRL.STATE n) = 0 then s.writeByCode off v else s.clvFlag n F.CLVn_STATUS.CFG_REJECT

/-- A write of CLVn_TASK (R400). -/
def State.clvTaskWrite (s : State) (n v : Nat) : State :=
  let s := s.clvFollow n
  if s.rd (F.CLVn_CTRL.STATE n) = 0 then
    let en := s.on (F.CLVn_TASK.EN n)
    let ch := s.rd (F.CLVn_TASK.CH n)
    (s.writeByCode (R.CLVn_TASK n) v).slcConnect 3 n en ch (v.testBit 6) (bitsOf v 0 6)
  else s.clvFlag n F.CLVn_STATUS.CFG_REJECT

/-- A write of CLVn_PINS (R391, R392): of the engines that drive a pin of engine `n`, and engine `n` itself, each that is
not the lowest sets PIN_CONFLICT. -/
def State.clvPinsWrite (s : State) (n v : Nat) : State :=
  let s := s.writeByCode (R.CLVn_PINS n) v
  let s := (List.range 16).foldl (fun s m =>
    if (m == n && s.clvConflict n) || (Nat.blt n m && s.clvShare n m) then s.clvFlag m F.CLVn_STATUS.PIN_CONFLICT else s) s
  s.pinsUpdate ((List.range 96).filter (fun p => s.func p == 1))

/-! ### Meanings -/

/-- CLV_ENABLE (R401): a write of CLVn_CTRL. -/
def execClvEnable (n v : Nat) (s : State) : Host.Outcome State Fault Refusal := done (s.clvCtrlWrite n v)

/-- CLV_RESTART (R402). -/
def execClvRestart (n : Nat) (s : State) : Host.Outcome State Fault Refusal := done (s.clvRestart n)

/-- CLV_CYCLE (R390, R396). -/
def execClvCycle (n : Nat) (s : State) : Host.Outcome State Fault Refusal := done (s.clvCycle n)

/-- CLV_NOP (R394): OP 0 and 8-15. -/
def execClvNop (n : Nat) (s : State) : Host.Outcome State Fault Refusal :=
  done (s.clvRun n [0, 8, 9, 10, 11, 12, 13, 14, 15] id)

/-- EMIT (R394). -/
def execEmit (n : Nat) (s : State) : Host.Outcome State Fault Refusal :=
  done (s.clvRun n [1] (fun t => t.clvEmit n (clvCnt (s.clvWord n))))

/-- SAMPLE (R394). -/
def execSample (n : Nat) (s : State) : Host.Outcome State Fault Refusal :=
  done (s.clvRun n [2] (fun t => t.clvSample n (clvCnt (s.clvWord n))))

/-- FETCH (R394, R397). -/
def execFetch (n : Nat) (s : State) : Host.Outcome State Fault Refusal := done (s.clvRunFetch n)

/-- DEPOSIT (R394, R397). -/
def execDeposit (n : Nat) (s : State) : Host.Outcome State Fault Refusal := done (s.clvRunDeposit n)

/-- LDCA (R394). -/
def execLdca (n : Nat) (s : State) : Host.Outcome State Fault Refusal := done (s.clvRun n [5] (fun t => t.clvLdca n))

/-- LDCB (R394). -/
def execLdcb (n : Nat) (s : State) : Host.Outcome State Fault Refusal := done (s.clvRun n [6] (fun t => t.clvLdcb n))

/-- DECC (R394). -/
def execDecc (n : Nat) (s : State) : Host.Outcome State Fault Refusal := done (s.clvRun n [7] (fun t => t.clvDecc n))

/-- CLV_TXDATA (R399). -/
def execClvTxdata (n v : Nat) (s : State) : Host.Outcome State Fault Refusal := done (s.clvTx n v)

/-- CLV_RXDATA_READ (R399): by a core, or by another requester. -/
def execClvRxdataRead (n : Nat) (core : Bool) (s : State) : Host.Outcome State Fault Refusal :=
  done (State.answer (s.clvRx n core))

/-- CLV_TRIGGER (R400). -/
def execClvTrigger (n : Nat) (s : State) : Host.Outcome State Fault Refusal := done (s.clvTrig n)

/-- CLV_PROG_WRITE (R402). -/
def execClvProgWrite (n i : Nat) (hi : Bool) (v : Nat) (s : State) : Host.Outcome State Fault Refusal :=
  done (s.clvProg n i hi v)

end Sys2Proof.Machine
end

