-- ==== Sys2Proof/Machine/Dma.lean ====
section
/-! DEFINITION. The DMA channels (11_dma.md R282-R292). -/

namespace Sys2Proof.Machine

/-- The state of channel `n`. -/
def State.dmaS (s : State) (n : Nat) : DmaS := Tbl.get {} s.dma n

/-- The state with channel `n` changed by `f`. -/
def State.modDma (s : State) (n : Nat) (f : DmaS → DmaS) : State := { s with dma := Tbl.put s.dma n (f (s.dmaS n)) }

/-! ### Descriptors -/

/-- FLAGS of a descriptor (R282). -/
def DmaDesc.chain (d : DmaDesc) : Bool := d.flags.testBit 0
def DmaDesc.irq (d : DmaDesc) : Bool := d.flags.testBit 2
def DmaDesc.crcInit (d : DmaDesc) : Bool := d.flags.testBit 3
def DmaDesc.wbEn (d : DmaDesc) : Bool := d.flags.testBit 4
def DmaDesc.wait (d : DmaDesc) : Bool := d.flags.testBit 5

/-- T of R283. -/
def DmaDesc.total (d : DmaDesc) : Nat := d.sLen * d.sCnt

/-- A descriptor's 64 bytes as fields (R282). -/
def dmaParse (b : List Byte) : DmaDesc :=
  { src := leAt b 0 5, dst := leAt b 8 5, sLen := leAt b 0x10 4, sStride := leAt b 0x14 4, sCnt := leAt b 0x18 4
    dLen := leAt b 0x1C 4, dStride := leAt b 0x20 4, dCnt := leAt b 0x24 4, sWrap := leAt b 0x28 1
    dWrap := leAt b 0x29 1, flags := leAt b 0x2A 2, next := leAt b 0x30 5, wb := leAt b 0x38 5 }

/-- The checks of R285 in code order; 0 where all pass. -/
def dmaCheck (b : List Byte) : Nat :=
  let d := dmaParse b
  let bad := fun x : Nat => x % 16 != 0
  let wrapBad := fun w : Nat => w != 0 && (decide (w < 12) || decide (32 < w))
  if bad d.src || bad d.dst || bad d.sLen || bad d.sStride || bad d.dLen || bad d.dStride ||
      (d.chain && bad d.next) || (d.wbEn && bad d.wb) then 1
  else if leAt b 5 3 != 0 || leAt b 13 3 != 0 || d.flags / 64 != 0 || leAt b 0x2C 4 != 0 || leAt b 0x35 3 != 0 ||
      leAt b 0x3D 3 != 0 || wrapBad d.sWrap || wrapBad d.dWrap then 2
  else if d.sLen = 0 ∨ d.sCnt = 0 ∨ d.dLen = 0 ∨ d.dCnt = 0 ∨ d.total ≠ d.dLen * d.dCnt ∨ 0xFFFFFFFF0 < d.total then 3
  else 0

/-- The address of stream byte `i` on one side (R283). -/
def dmaAddr (start len stride wrap i : Nat) : Nat :=
  let off := i / len * stride + i % len
  if wrap = 0 then (start + off) % 2 ^ 40 else start / 2 ^ wrap * 2 ^ wrap + (start + off) % 2 ^ wrap

/-- The source and the destination address of stream byte `i`. -/
def DmaDesc.srcAt (d : DmaDesc) (i : Nat) : Nat := dmaAddr d.src d.sLen d.sStride d.sWrap i
def DmaDesc.dstAt (d : DmaDesc) (i : Nat) : Nat := dmaAddr d.dst d.dLen d.dStride d.dWrap i

/-- The stream bytes of the burst at `i` (R286 step 4). -/
def DmaDesc.burstLen (d : DmaDesc) (i : Nat) : Nat :=
  min (min (d.sLen - i % d.sLen) (d.dLen - i % d.dLen)) (min (256 - d.srcAt i % 256) (256 - d.dstAt i % 256))

/-! ### Registers -/

/-- STATE of a channel is set, and its bit of DMA_ACTIVE follows. -/
def State.dmaSet (s : State) (n st : Nat) : State :=
  let s := s.wr (F.DMAn_CTRL.STATE n) st
  let o := if n < 32 then R.DMA_ACTIVE0 else R.DMA_ACTIVE1
  s.setReg o (setBitN (s.reg o) (n % 32) (st != 0))

/-- STATE of channel `n`. -/
def State.dmaState (s : State) (n : Nat) : Nat := s.rd (F.DMAn_CTRL.STATE n)

/-- The address in DMAn_DESC, and a new one. -/
def State.dmaDesc (s : State) (n : Nat) : Nat :=
  s.rd (F.DMAn_DESC_LO.DESC_LO n) * 16 + s.rd (F.DMAn_DESC_HI.DESC_HI n) * 2 ^ 32
def State.dmaSetDesc (s : State) (n a : Nat) : State :=
  (s.wr (F.DMAn_DESC_LO.DESC_LO n) (bitsOf a 4 28)).wr (F.DMAn_DESC_HI.DESC_HI n) (a / 2 ^ 32)

/-- CUR_SRC, CUR_DST and RESIDUE describe the next stream byte (R291). -/
def State.dmaShow (s : State) (n : Nat) : State :=
  let d := (s.dmaS n).desc
  let i := (s.dmaS n).pos
  let a := d.srcAt i
  let b := d.dstAt i
  let s := (s.wr (F.DMAn_CUR_SRC_LO.ADDR_LO n) a).wr (F.DMAn_CUR_SRC_HI.ADDR_HI n) (a / 2 ^ 32)
  let s := (s.wr (F.DMAn_CUR_DST_LO.ADDR_LO n) b).wr (F.DMAn_CUR_DST_HI.ADDR_HI n) (b / 2 ^ 32)
  s.wr (F.DMAn_RESIDUE.UNITS n) ((d.total - i) / 16)

/-- The channel goes OFF; a held ENABLE starts it again (R53, R292). -/
def State.dmaOff (s : State) (n : Nat) : State :=
  let s := s.modDma n (fun d => { d with phase := .idle, trigAt := none, recent := [], bursts := [] })
  let s := (s.wr (F.DMAn_STATUS.PAUSED n) 0).wr (F.DMAn_STATUS.WAITING n) 0
  if s.on (F.DMAn_CTRL.ENABLE n) then (s.dmaSet n 1).modDma n (fun d => { d with phase := .fetch })
  else s.dmaSet n 0

/-- The Skokor writes ENABLE = 0 and the channel goes OFF (R286, R291); a write of 1 in this cycle does not count (R292). -/
def State.dmaKill (s : State) (n : Nat) : State := ((s.wr (F.DMAn_CTRL.ENABLE n) 0).arrive 12 n).dmaOff n

/-- The channel stops in error: ERR, ERR_CODE and the interrupt (R291). -/
def State.dmaFail (s : State) (n code : Nat) : State :=
  ((s.wr (F.DMAn_STATUS.ERR_CODE n) code).flag (F.DMAn_STATUS.ERR n) (65 + n)).dmaKill n

/-- The bytes of a status write-back (R289). -/
def State.dmaStatus (s : State) (n code err seq : Nat) : List Byte :=
  leBytes 4 (s.rd (F.DMAn_CRC.CRC n)) ++ leBytes 4 (s.rd (F.DMAn_RESIDUE.UNITS n)) ++
    leBytes 1 code ++ leBytes 1 err ++ leBytes 2 seq ++ leBytes 4 0

/-- The status write-back of R289. -/
def State.dmaWb (s : State) (n code err seq : Nat) : BusRes × State :=
  s.busWrite (0x40 + n) (s.dmaS n).desc.wb (s.dmaStatus n code err seq)

/-- The transfer of the descriptor in work begins (R286 steps 2-4). -/
def State.dmaBegin (s : State) (n : Nat) : State :=
  let s := (s.wr (F.DMAn_STATUS.WAITING n) 0).modDma n (fun d => { d with phase := .move, pos := 0, recent := [], bursts := [] })
  let s := if (s.dmaS n).desc.crcInit then s.wr (F.DMAn_CRC.CRC n) 0 else s
  s.dmaShow n

/-- A WAIT descriptor finds TRIG_PEND set: it begins in the next ECLK (R287). -/
def State.dmaTrigTest (s : State) (n : Nat) : State :=
  if (s.dmaS n).phase = .wait ∧ (s.dmaS n).trigAt = none ∧ s.on (F.DMAn_STATUS.TRIG_PEND n) then
    s.modDma n (fun d => { d with trigAt := some (s.now + 1) })
  else s

/-- The cycle in which a WAIT descriptor begins has come: TRIG_PEND clears (R287). -/
def State.dmaDue (s : State) (n : Nat) : State :=
  match (s.dmaS n).trigAt with
  | some t =>
    if (s.dmaS n).phase = .wait ∧ t ≤ s.now then
      ((s.wr (F.DMAn_STATUS.TRIG_PEND n) 0).modDma n (fun d => { d with trigAt := none })).dmaBegin n
    else s
  | none => s

/-- All channels. -/
def State.dmaDueAll (s : State) : State := s.dma.foldl (fun s e => s.dmaDue e.1) s

/-- ENABLE is compared with a channel that is RUNNING (R53, R292): one that waits goes OFF at once, and so does one between
descriptors, unless its pause holds the stop. -/
def State.dmaFollow (s : State) (n : Nat) : State :=
  if s.on (F.DMAn_CTRL.ENABLE n) then s
  else match (s.dmaS n).phase with
    | .wait => s.dmaOff n
    | .fetch => if s.on (F.DMAn_CTRL.PAUSE n) then s.dmaSet n 3 else s.dmaOff n
    | _ => s.dmaSet n 3

/-! ### The operations behind the rows -/

/-- A write of DMAn_CTRL (R291, R292): a stop that the pause held between descriptors goes on when PAUSE is cleared. -/
def State.dmaCtrlWrite (s : State) (n v : Nat) : State :=
  let v := if s.arrived 12 n then putBits v 0 1 0 else v
  let s := (s.dmaDue n).writeByCode (R.DMAn_CTRL n) v
  let s := if v.testBit 1 then s else s.wr (F.DMAn_STATUS.PAUSED n) 0
  match s.dmaState n with
  | 0 => if s.on (F.DMAn_CTRL.ENABLE n) then s.dmaOff n else s
  | 2 => s.dmaFollow n
  | 3 => if (s.dmaS n).phase = .fetch ∧ !s.on (F.DMAn_CTRL.PAUSE n) then s.dmaOff n else s
  | _ => s

/-- The descriptor fetch completes and the descriptor is checked (R285, R286); a paused channel reads none (R291). -/
def State.dmaFetch (s : State) (n : Nat) : State :=
  if (s.dmaS n).phase ≠ .fetch ∨ s.on (F.DMAn_CTRL.PAUSE n) then s
  else match s.busRead (0x40 + n) (s.dmaDesc n) 64 with
    | (.wait, s) => s
    | (.ok b, s) =>
      let code := dmaCheck b
      if code ≠ 0 then s.dmaFail n code
      else
        let d := dmaParse b
        let s := s.modDma n (fun x => { x with desc := d, pos := 0, trigAt := none, recent := [], bursts := [] })
        let starting := s.dmaState n == 1
        let s := if starting then s.dmaSet n 2 else s
        let s := if d.wait then
            ((s.wr (F.DMAn_STATUS.WAITING n) 1).modDma n (fun x => { x with phase := .wait })).dmaShow n
          else s.dmaBegin n
        let s := if s.dmaState n = 2 then s.dmaFollow n else s
        s.dmaTrigTest n
    | (_, s) => s.dmaFail n 4

/-- An event on the trigger input (R287): one in the cycle in which TRIG_PEND clears leaves it set. -/
def State.dmaTrig (s : State) (n : Nat) : State :=
  match s.slcTake 1 n with
  | none => s
  | some (t, s) =>
    let s := (s.reach t).dmaDue n
    if s.on (F.DMAn_STATUS.TRIG_PEND n) then s.hwSet (F.DMAn_STATUS.TRIG_OVR n)
    else (s.wr (F.DMAn_STATUS.TRIG_PEND n) 1).dmaTrigTest n

/-- A channel that the transfer unit may serve (R288, R291). -/
def State.dmaReady (s : State) (n : Nat) : Bool :=
  decide ((s.dmaS n).phase = .move) && !s.on (F.DMAn_CTRL.PAUSE n)

/-- The channel served next: highest PRIO, round robin within a level (R288). -/
def State.dmaPick (s : State) : Option Nat :=
  [3, 2, 1, 0].findSome? (fun p =>
    let after := match Tbl.find s.dmaServed p with
      | some n => n + 1
      | none => 0
    ((List.range 64).map (fun i => (after + i) % 64)).find? (fun n => s.dmaReady n && s.rd (F.DMAn_CTRL.PRIO n) == p))

/-- The source bytes of a burst, block by block, up to the first that fails. -/
def State.dmaRead (s : State) (req : Nat) : Nat → Nat → Nat → List Byte × Option BusRes × State
  | 0, _, _ => ([], none, s)
  | fuel + 1, a, n =>
    if n = 0 then ([], none, s)
    else
      let k := min n (32 - a % 32)
      match s.busRead req a k with
      | (.ok b, s) =>
        let (r, e, s) := State.dmaRead s req fuel (a + k) (n - k)
        (b ++ r, e, s)
      | (e, s) => ([], some e, s)

/-- What stream byte `i` reads at address `a`, where earlier stream bytes within 2,048 wrote: what stands there or what
stood before one of those writes, as a free choice (R284, log 8). -/
def dmaChoose (recent : List (Nat × Nat × Byte)) (free i a : Nat) (b : Byte) : Byte :=
  match (recent.filter (fun e => e.2.1 == a && decide (i < e.1 + 2048))).map (fun e => e.2.2) with
  | [] => b
  | l => (b :: l).getD (Config.freeNat free % (l.length + 1)) b

/-- The burst's bytes as they are written, where a source byte of the burst is the destination of an earlier byte of the
same burst: what was read, or what that byte wrote (R284). `out` holds the bytes written so far. -/
def dmaWithin (free srcA dstA : Nat) (out : List Byte) : List Byte → List Byte
  | [] => out
  | b :: bs =>
    let j := out.length
    let a := srcA + j
    let v := if Nat.ble dstA a && Nat.blt a (dstA + j) && Config.freeNat (free + j) % 2 == 1
      then out.getD (a - dstA) b else b
    dmaWithin free srcA dstA (out ++ [v]) bs

/-- The transfer unit completes a burst of the channel it serves (R286, R288, R291). -/
def State.dmaBurst (s : State) : State :=
  let s := s.dmaDueAll
  match s.dmaPick with
  | none => s
  | some n =>
    let s := { s with dmaServed := s.dmaServed.put (s.rd (F.DMAn_CTRL.PRIO n)) n }
    let c := s.dmaS n
    let d := c.desc
    let i := c.pos
    let len := d.burstLen i
    let a := d.srcAt i
    let w := d.dstAt i
    match s.dmaRead (0x40 + n) 10 a len with
    | (_, some .wait, s) => s
    | (bs, e, s) =>
      let f := s.freeCnt
      let bs := bs.zipIdx.map (fun (b, j) => dmaChoose c.recent (f + j) (i + j) (a + j) b)
      let bs := dmaWithin (f + 256) a w [] bs
      let s := { s with freeCnt := f + 512 }
      let old := (List.range bs.length).map (fun j => s.lastByte (w + j))
      (match s.busWrite (0x40 + n) w bs with
      | (.ok _, s) =>
        if (s.dmaS n).phase = .error then s
        else
          let was := s.rd (F.DMAn_CRC.CRC n)
          let crc := bs.foldl (fun c b => crc32cByte c b.toNat) (was ^^^ 0xFFFFFFFF)
          let s := s.wr (F.DMAn_CRC.CRC n) (crc ^^^ 0xFFFFFFFF)
          let i' := i + bs.length
          let fresh := (old.zipIdx.map (fun (b, j) => (i + j, w + j, b))).reverse
          let ph := if e.isSome then DmaPhase.error else if d.total ≤ i' then .moved else .move
          let rcnt := (fresh ++ c.recent).filter (fun r => decide (i' < r.1 + 2048))
          let brst := (c.bursts ++ [(i, was, w, bs.length)]).filter (fun b => s.mergeHeld b.2.2.1 b.2.2.2)
          (s.modDma n (fun x => { x with pos := i', phase := ph, recent := rcnt, bursts := brst })).dmaShow n
      | (.wait, s) => s
      | (_, s) => s.modDma n (fun x => { x with phase := .error }))

/-- The write-back of a descriptor that was aborted or stopped in error; one that the HBM does not take yet waits (R289,
R517, log 58). -/
def State.dmaWbPost (s : State) (n code err : Nat) : BusRes × State :=
  let seq := s.rd (F.DMAn_STATUS.SEQ n)
  match s.dmaWb n code err seq with
  | (.wait, _) => (.ok [], s.postWrite (0x40 + n) (s.dmaS n).desc.wb (s.dmaStatus n code err seq))
  | r => r

/-- One channel is aborted (R291). -/
def State.dmaAbortOne (s : State) (n : Nat) : State :=
  let s := s.dmaDue n
  if s.dmaState n = 0 then s
  else
    let ph := (s.dmaS n).phase
    let held := ph != .idle && ph != .fetch && ph != .wbError
    let (r, s) := if held && (s.dmaS n).desc.wbEn then s.dmaWbPost n 1 0 else (.ok [], s)
    let s := s.flag (F.DMAn_STATUS.ABORTED n) (65 + n)
    match r with
    | .ue _ => s.dmaFail n 4
    | .decode => s.dmaFail n 4
    | _ => s.dmaKill n

/-- The descriptor completes (R286 steps 5-8); `abort`: a DMA_ABORT bit of the channel is written 1 in this cycle
(R291). A stop that the pause holds waits until PAUSE is cleared (R292). -/
def State.dmaDone (s : State) (n : Nat) (abort : Bool) : State :=
  if (s.dmaS n).phase ≠ .moved then s
  else if s.dmaState n = 3 ∧ s.on (F.DMAn_CTRL.PAUSE n) then (if abort then s.dmaAbortOne n else s)
  else
    let d := (s.dmaS n).desc
    let seq := (s.rd (F.DMAn_STATUS.SEQ n) + 1) % 65536
    let (r, s) := if d.wbEn then s.dmaWb n 0 0 seq else (.ok [], s)
    match r with
    | .wait => if abort then s.dmaAbortOne n else s
    | .ok _ =>
      if (s.dmaS n).phase = .error then s.modDma n (fun x => { x with phase := .wbError })
      else
      let s := (s.wr (F.DMAn_STATUS.SEQ n) seq).incRc (F.DMAn_COUNT.COUNT n)
      let s := if d.irq || !d.chain then s.flag (F.DMAn_STATUS.DONE n) (65 + n) else s
      let s := s.pulse (0x060 + n)
      let s := if d.chain then s.dmaSetDesc n d.next else s
      if abort then (s.flag (F.DMAn_STATUS.ABORTED n) (65 + n)).dmaKill n
      else if s.dmaState n = 3 then s.dmaOff n
      else if d.chain then s.modDma n (fun x => { x with phase := .fetch })
      else s.dmaKill n
    | _ => s.modDma n (fun x => { x with phase := .wbError })

/-- A paused channel holds no byte read and not written: PAUSED (R291). -/
def State.dmaDrained (s : State) (n : Nat) : State :=
  let s := s.dmaDue n
  let st := s.dmaState n
  if s.on (F.DMAn_CTRL.PAUSE n) && (st == 2 || st == 3) then s.wr (F.DMAn_STATUS.PAUSED n) 1 else s

/-- A write of DMA_ABORT0 or DMA_ABORT1. -/
def State.dmaAbortWrite (s : State) (hi : Bool) (v : Nat) : State :=
  (List.range 32).foldl (fun s i => if v.testBit i then s.dmaAbortOne (if hi then 32 + i else i) else s) s

/-- A channel stops on a data or write-back error (R289, R291). -/
def State.dmaErr (s : State) (n : Nat) : State :=
  let s := s.dmaDue n
  match (s.dmaS n).phase with
  | .error =>
    let s := s.dmaShow n
    let s := if (s.dmaS n).desc.wbEn then (s.dmaWbPost n 2 4).2 else s
    s.dmaFail n 4
  | .wbError => (s.dmaShow n).dmaFail n 4
  | _ => s

/-- A write of DMAn_DESC_LO or DMAn_DESC_HI: honoured only while OFF. -/
def State.dmaDescWrite (s : State) (n off v : Nat) : State :=
  if s.dmaState n = 0 then s.writeByCode off v else s.hwSet (F.DMAn_STATUS.CFG_REJECT n)

/-- A write of DMAn_TRIG: honoured only while OFF; the trigger input names its channel (R287, R366). -/
def State.dmaTrigWrite (s : State) (n v : Nat) : State :=
  if s.dmaState n ≠ 0 then s.hwSet (F.DMAn_STATUS.CFG_REJECT n)
  else
    let en := s.on (F.DMAn_TRIG.EN n)
    let ch := s.rd (F.DMAn_TRIG.CH n)
    (s.writeByCode (R.DMAn_TRIG n) v).slcConnect 1 n en ch (v.testBit 6) (bitsOf v 0 6)

/-! ### Meanings -/

/-- DMA_ENABLE (R292): a write of DMAn_CTRL. -/
def execDmaEnable (n v : Nat) (s : State) : Host.Outcome State Fault Refusal := done (s.dmaCtrlWrite n v)

/-- DMA_DESC_FETCH (R285). -/
def execDmaDescFetch (n : Nat) (s : State) : Host.Outcome State Fault Refusal := done (s.dmaFetch n)

/-- DMA_TRIGGER (R287). -/
def execDmaTrigger (n : Nat) (s : State) : Host.Outcome State Fault Refusal := done (s.dmaTrig n)

/-- DMA_BURST (R288). -/
def execDmaBurst (s : State) : Host.Outcome State Fault Refusal := done s.dmaBurst

/-- DMA_DESC_DONE (R286). -/
def execDmaDescDone (n : Nat) (abort : Bool) (s : State) : Host.Outcome State Fault Refusal := done (s.dmaDone n abort)

/-- DMA_PAUSE (R291): a write of DMAn_CTRL that changes PAUSE alone. -/
def execDmaPause (n : Nat) (pause : Bool) (s : State) : Host.Outcome State Fault Refusal :=
  done (s.dmaCtrlWrite n (putBits (s.reg (R.DMAn_CTRL n)) 1 1 (b2n pause)))

/-- DMA_PAUSE_DRAINED (R291). -/
def execDmaPauseDrained (n : Nat) (s : State) : Host.Outcome State Fault Refusal := done (s.dmaDrained n)

/-- DMA_ABORT (R291): a write of DMA_ABORT0, or of DMA_ABORT1 where `hi`. -/
def execDmaAbort (hi : Bool) (v : Nat) (s : State) : Host.Outcome State Fault Refusal := done (s.dmaAbortWrite hi v)

/-- DMA_ERROR (R291). -/
def execDmaError (n : Nat) (s : State) : Host.Outcome State Fault Refusal := done (s.dmaErr n)

end Sys2Proof.Machine
end

