-- ==== Sys2Proof/Machine/MemCmd.lean ====
section
/-! DEFINITION. The memory controller's own steps (10_memory_and_protection.md): write-backs, merge-buffer flushes,
the scrubber, the error log, and the writes of its registers. -/

namespace Sys2Proof.Machine

/-- A corrected SRAM word is written back with its corrected bytes (R268). -/
def State.sramFix (s : State) (wa : Nat) : State :=
  if s.memc.fix.contains wa then
    match s.peekWord8 wa with
    | some (bs, _) => s.storeWord8 wa bs
    | none => { s with memc := { s.memc with fix := s.memc.fix.filter (· != wa) } }
  else s

/-- The time at which 4 cycles of the port of an SRAM word have passed since `t`: CCLK for the core SRAMs, ECLK for the
shared SRAM (R269). -/
def portIdle (a t : Nat) : Nat := if Nat.ble 0x1040000000 a then eclkOf (cclkAt t + 4) else t + 4

/-- An SRAM merge entry is written once it has been left alone for 4 port cycles (R269). -/
def State.sramFlush (s : State) (wa : Nat) : State :=
  match s.memc.merge.find? (fun e => e.addr == wa) with
  | none => s
  | some e => (s.reach (portIdle wa e.t)).flushMergeE e

/-- An HBM merge entry is written 64 ECLK after its last merge (R274). -/
def State.hbmFlush (s : State) (ba : Nat) : State :=
  match s.memc.rmw.find? (fun e => e.addr == ba) with
  | none => s
  | some e => (s.reach (e.t + 64)).flushRmwE e

/-! ### The scrubber -/

/-- Blocks of populated HBM. -/
def State.hbmBlocks (s : State) : Nat := s.gib * 2 ^ 25

/-- One block is read, and rewritten if it was corrected (R276); `repair`: for the repair queue (R273). -/
def State.scrubOne (s : State) (blk : Nat) (repair : Bool) : State :=
  let s := s.flushRmw (32 * blk)
  match s.peekBlk blk with
  | none =>
    ((s.incRc F.MEM_HBM_UE_CNT.COUNT).memLog 7 (32 * blk) 0x87 0).memFaultI 0x24 0x87 0
  | some (bs, n) =>
    if n = 0 then s
    else
      let w := s.memc.winCnt
      let s := (s.hbmCe blk 0x87 6 n).storeBlk blk bs
      if repair then ({ s with memc := { s.memc with winCnt := w } }).incRc F.MEM_REPAIR_CNT.COUNT else s

/-- The repair queue is emptied (R273). -/
def State.repairAll (s : State) : State :=
  s.memc.repair.foldl (fun s blk => s.scrubOne blk true) { s with memc := { s.memc with repair := [] } }

/-- SCRUB_BLOCK: at its interval the scrubber empties the repair queue and reads the next block of the pass (R275).
`scrubAt` counts ECLK times the number of blocks, so that a pass takes PERIOD_H hours exactly. -/
def State.scrubStep (s : State) : State :=
  if s.on F.MEM_SCRUB_CTRL.EN && s.on F.HBM_STATUS.TRAINED then
    let n := s.hbmBlocks
    let s := s.reach (s.memc.scrubAt / n)
    let s := { s with memc := { s.memc with
      scrubAt := max s.memc.scrubAt (s.now * n) + s.rd F.MEM_SCRUB_STATUS.PERIOD_H * 3600 * 600000000 } }
    let s := s.repairAll
    let b := s.rd F.MEM_SCRUB_POS.BLOCK
    let s := s.scrubOne b false
    if n ≤ b + 1 then (s.wr F.MEM_SCRUB_POS.BLOCK 0).inc F.MEM_SCRUB_STATUS.PASSES
    else s.wr F.MEM_SCRUB_POS.BLOCK (b + 1)
  else s

/-- SCRUB_WINDOW: the end of a window of WIN minutes (R277). -/
def State.scrubWin (s : State) : State :=
  let win := max 1 (s.rd F.MEM_SCRUB_ADAPT.WIN)
  let s := s.reach (s.memc.winStart + win * 60 * 600000000)
  let c := s.memc.winCnt
  let q := s.memc.quiet
  let s := { s with memc := { s.memc with winStart := s.now, winCnt := 0 } }
  let p := s.rd F.MEM_SCRUB_STATUS.PERIOD_H
  if s.rd F.MEM_SCRUB_ADAPT.UP_N ≤ c then
    let s := { s with memc := { s.memc with quiet := 0 } }
    (s.wr F.MEM_SCRUB_STATUS.PERIOD_H (max (s.rd F.MEM_SCRUB_CTRL.MIN_H) (p / 2))).memFaultI 0x25 0x87 0
  else if c ≤ s.rd F.MEM_SCRUB_ADAPT.DN_N then
    if max 1 (s.rd F.MEM_SCRUB_ADAPT.DN_WIN) ≤ q + 1 then
      let s := { s with memc := { s.memc with quiet := 0 } }
      s.wr F.MEM_SCRUB_STATUS.PERIOD_H (min (s.rd F.MEM_SCRUB_CTRL.MAX_H) (2 * p))
    else { s with memc := { s.memc with quiet := q + 1 } }
  else { s with memc := { s.memc with quiet := 0 } }

/-! ### Registers -/

/-- A write of MEM_SCRUB_CTRL (R275, R277). -/
def State.scrubCtrlWrite (s : State) (v : Nat) : State :=
  let lo := bitsOf v 8 5
  let hi := bitsOf v 16 5
  if lo = 0 ∨ hi = 0 ∨ 24 < lo ∨ 24 < hi ∨ hi < lo then s.hwSet F.MEM_STATUS.CFG_REJECT
  else
    let was := s.on F.MEM_SCRUB_CTRL.EN
    let s1 := s.writeByCode R.MEM_SCRUB_CTRL v
    if !was && v.testBit 0 then
      { s1.wr F.MEM_SCRUB_STATUS.PERIOD_H hi with memc := { s1.memc with scrubAt := s1.now * s1.hbmBlocks } }
    else s1

/-- A write of MEM_ARB_MINk: ignored where the sum of the minimums would exceed 99,000 MB/s (R265). -/
def State.arbMinWrite (s : State) (k v : Nat) : State :=
  let sum := (List.range 5).foldl (fun a i =>
    a + (if i = k then v % 2 ^ 20 else s.rd (F.MEM_ARB_MINk.MIN i))) 0
  if 99000 < sum then s.hwSet F.MEM_STATUS.CFG_REJECT else s.writeByCode (R.MEM_ARB_MINk k) v

/-- The oldest log entry as its registers show it (R280). -/
def State.memLogAddr (s : State) : Nat :=
  match s.memc.log with
  | [] => 0
  | e :: _ => e.addr

def State.memLogInfo (s : State) : Nat :=
  match s.memc.log with
  | [] => 0
  | e :: _ => e.typ % 16 + e.req % 256 * 2 ^ 8 + e.syms % 4 * 2 ^ 16 +
      (if regionOf s.gib e.addr = .hbm then pcOf e.addr * 2 ^ 24 else 0)

/-- A write of MEM_LOG_POP (R280). -/
def State.memPop (s : State) (v : Nat) : State :=
  if v.testBit 0 then
    let l := s.memc.log.drop 1
    match s.memc.logLost with
    | some (t, e, ovf) =>
      if t = s.now then
        ((({ s with memc := { s.memc with log := l ++ [e], logLost := none } }).wr
          F.MEM_LOG_STATUS.COUNT (l.length + 1)).wrB F.MEM_STATUS.LOG_OVERFLOW ovf).irq 61
      else ({ s with memc := { s.memc with log := l } }).wr F.MEM_LOG_STATUS.COUNT l.length
    | none => ({ s with memc := { s.memc with log := l } }).wr F.MEM_LOG_STATUS.COUNT l.length
  else s

/-! ### Meanings -/

/-- SRAM_WRITEBACK (R268): the word at system address `a`. -/
def execSramWriteback (a : Nat) (s : State) : Host.Outcome State Fault Refusal := done (s.sramFix a)

/-- SRAM_MERGE_FLUSH (R269, R270): the entry of the word at `a`. -/
def execSramMergeFlush (a : Nat) (s : State) : Host.Outcome State Fault Refusal := done (s.sramFlush a)

/-- HBM_RMW_FLUSH (R274): the entry of the block at `a`. -/
def execHbmRmwFlush (a : Nat) (s : State) : Host.Outcome State Fault Refusal := done (s.hbmFlush a)

/-- SCRUB_BLOCK (R273, R275, R276). -/
def execScrubBlock (s : State) : Host.Outcome State Fault Refusal := done s.scrubStep

/-- SCRUB_WINDOW (R277). -/
def execScrubWindow (s : State) : Host.Outcome State Fault Refusal := done s.scrubWin

/-- MEM_LOG_POP (R280). -/
def execMemLogPop (v : Nat) (s : State) : Host.Outcome State Fault Refusal := done (s.memPop v)

end Sys2Proof.Machine
end

