-- ==== Sys2Proof/Machine/Operands.lean ====
section
/-! DEFINITION. The operand forms of QC32: the fields of an instruction word (R329), the instruction it is (R330,
R331), and its effective and target addresses. -/

namespace Sys2Proof.Machine

/-- The instructions of QC32 (R331). -/
inductive QOp where
  | add | sub | and | or | xor | nor | slt | sltu | sll | srl | sra | slli | srli | srai | min | max | minu | maxu | clz
  | mul | mulh | mulhu | div | divu | rem | remu | jr | callr | ret
  | addi | slti | sltiu | andi | ori | xori | lui | beq | bne | blt | bge | bltu | bgeu
  | ld | ldu | st | lr | sc | tas | jmp | call | beqz | bnez | bltz | bgez
  | mfs | mts | eret | trap | brk | syncI | drain | stksave | stkload | wfi
  deriving DecidableEq, Repr

/-- The fields of an instruction word (R329): OP, the register fields of formats A and I (rd or rt, ra, rb), FN or
XFN, SR, IMM16, SZ. -/
def qOpc (w : Nat) : Nat := bitsOf w 26 6
def qRd (w : Nat) : Nat := bitsOf w 21 5
def qRa (w : Nat) : Nat := bitsOf w 16 5
def qRb (w : Nat) : Nat := bitsOf w 11 5
def qFn (w : Nat) : Nat := bitsOf w 0 11
def qSr (w : Nat) : Nat := bitsOf w 11 5
def qImm (w : Nat) : Nat := bitsOf w 0 16
def qSz (w : Nat) : Nat := bitsOf w 14 2

/-- ra of format J stands in [25:21] (R329). -/
def qJa (w : Nat) : Nat := bitsOf w 21 5

/-- Modulo 2^32 (R328). -/
def mod32 (i : Int) : Nat := (i % 4294967296).toNat

/-- The effective address ra + sext(OFS) of format M (R329). -/
def qEa (ra w : Nat) : Nat := mod32 ((ra : Int) + sext 14 (bitsOf w 0 14))

/-- Branch targets of formats I and J (R329). -/
def qTargetI (pc w : Nat) : Nat := mod32 ((pc : Int) + 4 * sext 16 (qImm w))
def qTargetJ (pc w : Nat) : Nat := mod32 ((pc : Int) + 4 * sext 21 (bitsOf w 0 21))

/-- IMM16 sign-extended, as a word (R331). -/
def qSimm (w : Nat) : Nat := mod32 (sext 16 (qImm w))

/-- Bytes of an access of SZ (R329). -/
def qSize (w : Nat) : Nat := 2 ^ qSz w

/-- Instructions of format A with OP 0x00, by FN. -/
def qArith (w : Nat) : Option QOp :=
  match qFn w with
  | 0x000 => some .add
  | 0x001 => some .sub
  | 0x002 => some .and
  | 0x003 => some .or
  | 0x004 => some .xor
  | 0x005 => some .nor
  | 0x006 => some .slt
  | 0x007 => some .sltu
  | 0x008 => some .sll
  | 0x009 => some .srl
  | 0x00A => some .sra
  | 0x00C => some .slli
  | 0x00D => some .srli
  | 0x00E => some .srai
  | 0x010 => some .min
  | 0x011 => some .max
  | 0x012 => some .minu
  | 0x013 => some .maxu
  | 0x014 => if qRb w = 0 then some .clz else none
  | _ => none

/-- Instructions of format A with OP 0x01, by FN. -/
def qMulDiv (w : Nat) : Option QOp :=
  match qFn w with
  | 0x000 => some .mul
  | 0x001 => some .mulh
  | 0x002 => some .mulhu
  | 0x004 => some .div
  | 0x005 => some .divu
  | 0x006 => some .rem
  | 0x007 => some .remu
  | _ => none

/-- Instructions of format A with OP 0x02, by FN. -/
def qJump (w : Nat) : Option QOp :=
  match qFn w with
  | 0x000 => if qRd w = 0 ∧ qRb w = 0 then some .jr else none
  | 0x001 => if qRd w = 0 ∧ qRb w = 0 then some .callr else none
  | 0x002 => if qRd w = 0 ∧ qRa w = 0 ∧ qRb w = 0 then some .ret else none
  | _ => none

/-- Instructions of format X, by XFN. -/
def qSys (w : Nat) : Option QOp :=
  match qFn w with
  | 0x000 => if qRa w = 0 then some .mfs else none
  | 0x001 => if qRd w = 0 then some .mts else none
  | 0x002 => if qRd w = 0 ∧ qRa w = 0 ∧ qSr w = 0 then some .eret else none
  | 0x003 => if qRd w = 0 ∧ qRa w = 0 then some .trap else none
  | 0x004 => some .brk
  | 0x005 => some .syncI
  | 0x006 => some .drain
  | 0x007 => some .stksave
  | 0x008 => some .stkload
  | 0x009 => some .wfi
  | _ => none

/-- The instruction a word is; none: ILLEGAL, by a reserved OP, FN, XFN or SZ or a non-zero field marked 0 (R330). -/
def qMnem (w : Nat) : Option QOp :=
  match qOpc w with
  | 0x00 => qArith w
  | 0x01 => qMulDiv w
  | 0x02 => qJump w
  | 0x04 => some .addi
  | 0x05 => some .andi
  | 0x06 => some .ori
  | 0x07 => some .xori
  | 0x08 => some .slti
  | 0x09 => some .sltiu
  | 0x0A => if qRa w = 0 then some .lui else none
  | 0x10 => if qSz w = 3 then none else some .ld
  | 0x11 => if qSz w = 3 then none else some .ldu
  | 0x12 => if qSz w = 3 then none else some .st
  | 0x13 => if qSz w = 2 then some .lr else none
  | 0x14 => if qSz w = 2 then some .sc else none
  | 0x15 => if qSz w = 2 then some .tas else none
  | 0x18 => some .beq
  | 0x19 => some .bne
  | 0x1A => some .blt
  | 0x1B => some .bge
  | 0x1C => some .bltu
  | 0x1D => some .bgeu
  | 0x20 => if qJa w = 0 then some .jmp else none
  | 0x21 => if qJa w = 0 then some .call else none
  | 0x22 => some .beqz
  | 0x23 => some .bnez
  | 0x24 => some .bltz
  | 0x25 => some .bgez
  | 0x3F => qSys w
  | _ => none

/-- The parts of an access of `n` bytes at `a` (R335): one, or two where the bytes do not lie within one aligned unit
of `n` bytes, the lower address first. -/
def qParts (a n : Nat) : List (Nat × Nat) :=
  if a % n = 0 then [(a, n)] else [(a, n - a % n), (mod32 ((a : Int) + n - a % n), a % n)]

end Sys2Proof.Machine
end

