-- ==== Sys2Proof/Machine/Flags.lean ====
section
/-! DEFINITION. The results of QC32's arithmetic, comparisons and shifts on 32-bit values (R331, R332). QC32 has no
condition flags: a comparison writes 0 or 1. -/

namespace Sys2Proof.Machine

/-- The signed value of a 32-bit word. -/
def s32 (x : Nat) : Int := sext 32 x

/-- 1 or 0. -/
def bit01 (b : Bool) : Nat := if b then 1 else 0

def qAddV (a b : Nat) : Nat := mod32 ((a : Int) + b)
def qSubV (a b : Nat) : Nat := mod32 ((a : Int) - b)
def qNorV (a b : Nat) : Nat := 0xFFFFFFFF ^^^ (a ||| b)
def qSltV (a b : Nat) : Nat := bit01 (decide (s32 a < s32 b))
def qSltuV (a b : Nat) : Nat := bit01 (decide (a < b))

/-- Shifts by the low 5 bits of the amount (R331). -/
def qSllV (a n : Nat) : Nat := mod32 ((a : Int) * 2 ^ (n % 32))
def qSrlV (a n : Nat) : Nat := a / 2 ^ (n % 32)
def qSraV (a n : Nat) : Nat := mod32 (s32 a / 2 ^ (n % 32))

def qMinV (a b : Nat) : Nat := if s32 a ≤ s32 b then a else b
def qMaxV (a b : Nat) : Nat := if s32 a ≤ s32 b then b else a

/-- Leading zeros of a 32-bit word, 32 for 0 (R331). -/
def qClzV (a : Nat) : Nat := ((List.range 32).find? (fun i => a.testBit (31 - i))).getD 32

def qMulV (a b : Nat) : Nat := mod32 ((a : Int) * b)
def qMulhV (a b : Nat) : Nat := mod32 (s32 a * s32 b / 4294967296)
def qMulhuV (a b : Nat) : Nat := mod32 ((a : Int) * b / 4294967296)

/-- Quotients and remainders, truncated toward zero; a divisor of 0 gives 0xFFFFFFFF and the dividend (R332). -/
def qDivV (a b : Nat) : Nat := if b = 0 then 0xFFFFFFFF else mod32 ((s32 a).tdiv (s32 b))
def qDivuV (a b : Nat) : Nat := if b = 0 then 0xFFFFFFFF else a / b
def qRemV (a b : Nat) : Nat := if b = 0 then a else mod32 ((s32 a).tmod (s32 b))
def qRemuV (a b : Nat) : Nat := if b = 0 then a else a % b

/-- A loaded value of `n` bytes, sign-extended or zero-extended (R331). -/
def qExtend (signed : Bool) (n v : Nat) : Nat := if signed then mod32 (sext (8 * n) v) else v

end Sys2Proof.Machine
end

