-- ==== Sys2Proof/Machine/Irq.lean ====
section
/-! DEFINITION. The interrupt controller (14_interrupts.md R352-R361). -/

namespace Sys2Proof.Machine

/-- The sources whose register differs from reset: number and word. -/
def State.irqWords (s : State) : List (Nat × Nat) :=
  (s.regs.filter (fun e => Nat.blt 0x5000 e.1 && Nat.ble e.1 0x5548)).map (fun e => ((e.1 - 0x5000) / 4, e.2.toNat))

/-- PRIO of a source word, and whether it may qualify for core `c` above level `lim` (R354). -/
def irqPrio (w : Nat) : Nat := bitsOf w 4 4
def irqQual (c lim w : Nat) : Bool :=
  w.testBit 0 && bitsOf w 1 2 == c && bitsOf w 8 8 != 0 && decide (lim < irqPrio w)

/-- max(RPRIO_c, THRESH_c). -/
def State.irqLimit (s : State) (c : Nat) : Nat :=
  max (s.rd (F.IRQ_STATc.RPRIO c)) (s.rd (F.IRQ_THRESHc.THRESH c))

/-- COUNT of source `n` before the cycle at hand, and its events in this cycle. -/
def State.irqCycle (s : State) (n : Nat) : Nat × Nat :=
  match Tbl.find s.cycNow.rc (32 * R.IRQ_SRCs n + 8) with
  | some (_, old, ev) => (old, min 255 ev)
  | none => (s.rd (F.IRQ_SRCs.COUNT n), 0)

/-- A source's word as the cycle at hand found it: an event of the cycle qualifies from the next cycle on, so that a claim
of its own cycle counts it after the clear (R354, R355). -/
def State.irqFound (s : State) (e : Nat × Nat) : Nat × Nat := (e.1, putBits e.2 8 8 (s.irqCycle e.1).1)

/-- The source that a claim by core `c` would take: highest PRIO, then lowest number (R355). -/
def State.irqBest (s : State) (c : Nat) : Option (Nat × Nat) :=
  ((s.irqWords.map s.irqFound).filter (fun e => irqQual c (s.irqLimit c) e.2)).foldl (fun b e =>
    match b with
    | none => some e
    | some x => if irqPrio x.2 < irqPrio e.2 then some e else some x) none

/-- The request line of core `c` (R354). -/
def State.irqLine (s : State) (c : Nat) : Bool := (s.irqBest c).isSome

/-- The priority stack of core `c`, newest first. -/
def State.irqStack (s : State) (c : Nat) : List Nat := Tbl.get [] s.irqStk c

/-- What IRQ_CLAIMc returns for a claimed source. -/
def State.claimWord (s : State) (e : Option (Nat × Nat)) : Nat :=
  match e with
  | none => 0
  | some e => e.1 + (s.irqCycle e.1).1 * 2 ^ 16

/-- The value of a peek (R356). -/
def State.irqPeek (s : State) (c : Nat) : Nat := s.claimWord (s.irqBest c)

/-- A claim by core `c` (R355). -/
def State.irqClaim (s : State) (c : Nat) : Nat × State :=
  match s.irqBest c with
  | none => (0, s)
  | some e =>
    let st := s.rd (F.IRQ_STATc.RPRIO c) :: s.irqStack c
    let word := s.claimWord (some e)
    let s := s.rcClear (F.IRQ_SRCs.COUNT e.1)
    let s := { s with irqStk := s.irqStk.put c st }
    (word, (s.wr (F.IRQ_STATc.RPRIO c) (irqPrio e.2)).wr (F.IRQ_STATc.DEPTH c) st.length)

/-- A write of IRQ_EOIc (R357). -/
def State.irqEoi (s : State) (c : Nat) : State :=
  match s.irqStack c with
  | [] => s.hwSet (F.IRQ_STATc.EOI_ERR c)
  | p :: t =>
    (({ s with irqStk := if t = [] then s.irqStk.del c else s.irqStk.put c t }).wr (F.IRQ_STATc.RPRIO c) p).wr
      (F.IRQ_STATc.DEPTH c) t.length

/-- A write of IRQ_SWI (R358). -/
def State.irqSwi (s : State) (v : Nat) : State :=
  (List.range 16).foldl (fun s k => if v.testBit k then s.irq (323 + k) else s) s

/-- A write of IRQ_SRCs (R359): CLR leaves the events of its own cycle counted. The registers of reserved sources are
read-only (R352). -/
def State.irqSrcWrite (s : State) (n v : Nat) : State :=
  if 1 ≤ n ∧ n ≤ 338 then
    let s := s.writeByCode (R.IRQ_SRCs n) v
    if v.testBit 16 then s.rcClear (F.IRQ_SRCs.COUNT n) else s
  else s

/-- A read of IRQ_PENDk. -/
def State.irqPend (s : State) (k : Nat) : Nat :=
  s.irqWords.foldl (fun r e => if e.1 / 32 = k ∧ bitsOf e.2 8 8 ≠ 0 then setBitN r (e.1 % 32) true else r) 0

/-- A read of IRQ_STATc, with REQ. -/
def State.irqStat (s : State) (c : Nat) : Nat := putBits (s.reg (R.IRQ_STATc c)) 17 1 (b2n (s.irqLine c))

/-! ### Meanings -/

/-- IRQ_CLAIM (R355): core `c` reads IRQ_CLAIMc. -/
def execIrqClaim (c : Nat) (s : State) : Host.Outcome State Fault Refusal := done (State.answer (s.irqClaim c))

/-- IRQ_PEEK (R356): another requester reads IRQ_CLAIMc; nothing changes. -/
def execIrqPeek (c : Nat) (s : State) : Host.Outcome State Fault Refusal := done (State.answer (s.irqPeek c, s))

/-- IRQ_EOI (R357). -/
def execIrqEoi (c : Nat) (s : State) : Host.Outcome State Fault Refusal := done (s.irqEoi c)

/-- IRQ_SWI (R358). -/
def execIrqSwi (v : Nat) (s : State) : Host.Outcome State Fault Refusal := done (s.irqSwi v)

/-- IRQ_CLR (R359). -/
def execIrqClr (n : Nat) (s : State) : Host.Outcome State Fault Refusal :=
  done (s.irqSrcWrite n (s.reg (R.IRQ_SRCs n) ||| 2 ^ 16))

end Sys2Proof.Machine
end

