-- ==== Sys2Proof/Machine/Timer.lean ====
section
/-! DEFINITION. Timers and counters (18_timers.md R404-R416). -/

namespace Sys2Proof.Machine

/-- The state of timer `n`. -/
def State.tmrS (s : State) (n : Nat) : TimerS := Tbl.get {} s.tmr n

/-- The state with timer `n` changed by `f`. -/
def State.modTmr (s : State) (n : Nat) (f : TimerS → TimerS) : State := { s with tmr := Tbl.put s.tmr n (f (s.tmrS n)) }

/-- A W1C flag of TMRn_STATUS is set: an event of source 131 + n. -/
def State.tmrFlag (s : State) (n : Nat) (f : Nat → Fld) : State := s.flag (f n) (131 + n)

/-- STATE of timer `n`. -/
def State.tmrState (s : State) (n : Nat) : Nat := s.rd (F.TMRn_CTRL.STATE n)

/-- ECLK cycles of a count clock (R404): 2^PRE PCLK cycles of 3 ECLK. -/
def State.tmrTick (s : State) (n : Nat) : Nat := 3 * 2 ^ s.rd (F.TMRn_CTRL.PRE n)

/-- One action code applied to a level (R410). -/
def actLevel (act : Nat) (b : Bool) : Bool :=
  match act with
  | 1 => true
  | 2 => false
  | 3 => !b
  | _ => b

/-- The pins that show compare outputs of timer `n`. -/
def State.cmpPins (s : State) (n : Nat) : List Nat :=
  ((List.range 6).map (fun i => 16 * i + n)).filter (fun p => s.func p == 3)

/-- The output levels change to `v`, and the pins follow. -/
def State.tmrOut (s : State) (n v : Nat) : State := (s.wr (F.TMRn_OUT.LVL n) v).pinsUpdate (s.cmpPins n)

/-! ### Freeze (R415) -/

/-- A core named by timer `n` is halted, and the timer freezes with it. -/
def State.tmrHeld (s : State) (n : Nat) : Bool :=
  s.on (F.TMRn_CTRL.FREEZE n) && (List.range 4).any (fun c =>
    (s.rd (F.TMRn_CTRL.DBG_CORE n)).testBit c && s.on (F.CPUn_STATUS.HALTED c))

/-- The first PCLK edge after `t`, on the grid on which `phase` lies. -/
def pclkAfter (phase t : Nat) : Nat := t + 3 - (t + 3 - phase % 3) % 3

/-- FROZEN follows; the PCLK cycles that the prescaler still has to count are held, and counting resumes at the PCLK after the
last named core resumes. -/
def State.tmrFreeze (s : State) (n : Nat) : State :=
  let h := s.tmrHeld n
  let t := s.tmrS n
  let s := if h == s.on (F.TMRn_STATUS.FROZEN n) then s else s.wrB (F.TMRn_STATUS.FROZEN n) h
  let from_ := max s.now t.moveAt
  match h, t.frozen with
  | true, none => s.modTmr n (fun t => { t with frozen := some ((t.nextAt - from_ + 2) / 3 * 3) })
  | false, some d => s.modTmr n (fun t => { t with frozen := none, nextAt := pclkAfter t.nextAt from_ + d - 3 })
  | _, _ => s

/-- Every timer follows a halt or a resume. -/
def State.tmrFreezeAll (s : State) : State := (List.range 16).foldl State.tmrFreeze s

/-! ### Counting -/

/-- The timer leaves OFF at `t` (R408): STARTING for 2 PCLK, and the first count clock 2^PRE PCLK after that. -/
def State.tmrStart (s : State) (n t : Nat) : State :=
  let s := s.wr (F.TMRn_CTRL.STATE n) 1
  let lv := s.capInput n != s.on (F.TMRn_CTRL.CAP_INV n)
  let d := s.tmrTick n
  (s.modTmr n (fun x => { x with
    nextAt := t + 6 + d, moveAt := t + 6, capLevel := lv, frozen := none })).tmrFreeze n

/-- The timer is STOPPING from `t`, for 1 PCLK (R408). -/
def State.tmrHalt (s : State) (n t : Nat) : State :=
  (s.wr (F.TMRn_CTRL.STATE n) 3).modTmr n (fun x => { x with moveAt := t + 3 })

/-- A transition that has come to its end (R53, R408): ENABLE is compared with the state reached. -/
def State.tmrMove (s : State) (n : Nat) : State :=
  let t := (s.tmrS n).moveAt
  if s.now < t then s
  else match s.tmrState n with
    | 1 => if s.on (F.TMRn_CTRL.ENABLE n) then s.wr (F.TMRn_CTRL.STATE n) 2 else s.tmrHalt n t
    | 3 => if s.on (F.TMRn_CTRL.ENABLE n) then s.tmrStart n t else s.wr (F.TMRn_CTRL.STATE n) 0
    | _ => s

/-- STATE follows the clock: a transition, and the opposite one that it may begin. -/
def State.tmrFollow (s : State) (n : Nat) : State := (s.tmrMove n).tmrMove n

/-- The period event of a count clock that wrapped (R404, R409, R410); a one-shot stops. -/
def State.tmrPeriod (s : State) (n : Nat) : State :=
  if !(s.tmrS n).wrapped then s
  else
    let s := s.modTmr n (fun t =>
      let c := t.cmpBuf.foldl (fun c e => Tbl.set 0 c e.1 e.2) t.cmp
      { t with wrapped := false, cmpBuf := [], cmp := c })
    let s := s.tmrFlag n F.TMRn_STATUS.PERIOD
    let p := s.rd (F.TMRn_OUT.PACT n)
    let v := (List.range 4).foldl (fun v k => setBitN v k (actLevel (bitsOf p (2 * k) 2) (v.testBit k)))
      (s.rd (F.TMRn_OUT.LVL n))
    let s := s.tmrOut n v
    if s.on (F.TMRn_CTRL.ONESHOT n) then
      ((s.wr (F.TMRn_CTRL.ENABLE n) 0).modTmr n (fun t => { t with shot := some (s.now / 3) })).tmrHalt n s.now
    else s

/-- A match of compare unit `k` (R410). -/
def State.tmrMatch (s : State) (n k : Nat) : State :=
  if !(s.tmrS n).hit.testBit k then s
  else
    let s := s.tmrPeriod n
    let s := s.modTmr n (fun t => { t with hit := setBitN t.hit k false })
    let s := (s.hwSetBit (F.TMRn_STATUS.CMP n) k).irq (131 + n)
    let s := s.pulse (0x0A0 + 4 * n + k)
    let v := s.rd (F.TMRn_OUT.LVL n)
    s.tmrOut n (setBitN v k (actLevel (bitsOf (s.rd (F.TMRn_OUT.ACT n)) (2 * k) 2) (v.testBit k)))

/-- What the last count clock brought about and has not yet been applied: the period event first (R410). -/
def State.tmrFlush (s : State) (n : Nat) : State :=
  (List.range 4).foldl (fun s k => s.tmrMatch n k) (s.tmrPeriod n)

/-- A clear arrives at the task input in the PCLK cycle of time `t` (R414). -/
def State.clearDue (s : State) (n t : Nat) : Bool :=
  s.rd (F.TMRn_TASK.ACTION n) == 1 && s.slc.due.any (fun e => e.1 == 2 && e.2.1 == n && e.2.2 / 3 == t / 3)

/-- A count clock (R404, R409, R412); one that falls in the PCLK cycle of a clear is discarded (R414). -/
def State.tmrCount (s : State) (n : Nat) : State :=
  let s := s.tmrFlush n
  let s := (if s.tmrState n = 1 then s.reach (s.tmrS n).moveAt else s).tmrFollow n
  let t := s.tmrS n
  if s.tmrState n ≠ 2 ∨ t.frozen.isSome then s
  else if s.clearDue n t.nextAt then s.reach t.nextAt
  else
    let s := s.reach t.nextAt
    let wrap := decide (t.period ≤ t.count)
    let c := if wrap then 0 else t.count + 1
    let hit := (List.range 4).foldl (fun h k => if Tbl.get 0 t.cmp k = c then h + 2 ^ k else h) 0
    let nx := t.nextAt + s.tmrTick n
    let w := if t.armed then min 0xFFFFFFFF (t.width + 1) else t.width
    s.modTmr n (fun x => { x with count := c, wrapped := wrap, hit := hit, nextAt := nx, width := w
                                  clock := some (t.nextAt / 3, t.width) })

/-- A running timer stops (R408). -/
def State.tmrStop (s : State) (n : Nat) : State :=
  let s := s.tmrFlush n
  if s.tmrState n = 2 then s.tmrHalt n s.now else s

/-- A write of TMRn_CTRL (R406, R408). ENABLE written 1 in the cycle in which a one-shot wrote it 0 stays 0. -/
def State.tmrCtrlWrite (s : State) (n v : Nat) : State :=
  let s := s.tmrFollow n
  let v := if (s.tmrS n).shot = some (s.now / 3) then putBits v 0 1 0 else v
  let off := s.tmrState n == 0
  let bad := !off && bitsOf v 4 4 != s.rd (F.TMRn_CTRL.PRE n)
  let v := if bad then putBits v 4 4 (s.rd (F.TMRn_CTRL.PRE n)) else v
  let capWas := s.on (F.TMRn_CTRL.CAP_EN n)
  let s := s.writeByCode (R.TMRn_CTRL n) v
  let s := if bad then s.tmrFlag n F.TMRn_STATUS.CFG_REJECT else s
  let lv := s.capInput n != s.on (F.TMRn_CTRL.CAP_INV n)
  let s := if capWas then s else s.modTmr n (fun t => { t with capLevel := lv })
  let s := s.tmrFreeze n
  let en := s.on (F.TMRn_CTRL.ENABLE n)
  match s.tmrState n with
  | 0 => if en then s.tmrStart n s.now else s
  | 2 => if en then s else s.tmrStop n
  | _ => s

/-! ### Captures (R411-R413) -/

/-- The level at the capture input (R411). -/
def State.capNow (s : State) (n : Nat) : Bool := s.capInput n != s.on (F.TMRn_CTRL.CAP_INV n)

/-- The timer takes captures: it is not OFF (R411). -/
def State.capOn (s : State) (n : Nat) : Bool := s.on (F.TMRn_CTRL.CAP_EN n) && s.tmrState n != 0

/-- A rising edge at the capture input. -/
def State.capRise (s : State) (n : Nat) : State :=
  let s := s.pinsDue.tmrFollow n
  if s.capOn n && s.capNow n && !(s.tmrS n).capLevel then
    let un := s.on (F.TMRn_STATUS.CAPTURED_R n)
    let ov := s.on (F.TMRn_STATUS.OVR_R n)
    let s := s.modTmr n (fun t => { t with
      capLevel := true, capr := t.count, width := 0, armed := true, capROld := some (s.now / 3, t.capr, un, ov) })
    let s := if un then s.tmrFlag n F.TMRn_STATUS.OVR_R else s
    (s.wr (F.TMRn_STATUS.CAPTURED_R n) 1).irq (131 + n)
  else s

/-- A falling edge at the capture input. -/
def State.capFall (s : State) (n : Nat) : State :=
  let s := s.pinsDue.tmrFollow n
  if s.capOn n && !s.capNow n && (s.tmrS n).capLevel then
    let t := s.tmrS n
    let s := if t.armed then s.wr (F.TMRn_WIDTH.WIDTH n) t.width else s
    let un := s.on (F.TMRn_STATUS.CAPTURED_F n)
    let ov := s.on (F.TMRn_STATUS.OVR_F n)
    let s := s.modTmr n (fun t => { t with
      capLevel := false, capf := t.count, armed := false, capFOld := some (s.now / 3, t.capf, un, ov) })
    let s := if un then s.tmrFlag n F.TMRn_STATUS.OVR_F else s
    (s.wr (F.TMRn_STATUS.CAPTURED_F n) 1).irq (131 + n)
  else s

/-- A capture of the PCLK cycle at hand: the value before it, and whether it overran one unread, and set OVR. -/
def State.capOld (s : State) (o : Option (Nat × Nat × Bool × Bool)) : Option (Nat × Bool × Bool) :=
  match o with
  | some (p, e) => if p = s.now / 3 then some e else none
  | none => none

/-- A read of CAPR_LO (R413). In the PCLK cycle of a capture it returns the value before, which is read then and not
overrun, and CAPTURED stays set. -/
def State.caprRead (s : State) (n : Nat) : Nat × State :=
  match s.capOld (s.tmrS n).capROld with
  | some (c, un, ov) =>
    let s := s.modTmr n (fun t => { t with
      caprLatch := bitsOf c 32 32, capROld := t.capROld.map (fun e => (e.1, e.2.1, false, false)) })
    (bitsOf c 0 32, if un then s.flagBack (F.TMRn_STATUS.OVR_R n) (131 + n) ov else s)
  | none =>
    let c := (s.tmrS n).capr
    (bitsOf c 0 32, (s.modTmr n (fun t => { t with caprLatch := bitsOf c 32 32 })).wr (F.TMRn_STATUS.CAPTURED_R n) 0)

/-- A read of CAPF_LO (R413), likewise. -/
def State.capfRead (s : State) (n : Nat) : Nat × State :=
  match s.capOld (s.tmrS n).capFOld with
  | some (c, un, ov) =>
    let s := s.modTmr n (fun t => { t with
      capfLatch := bitsOf c 32 32, capFOld := t.capFOld.map (fun e => (e.1, e.2.1, false, false)) })
    (bitsOf c 0 32, if un then s.flagBack (F.TMRn_STATUS.OVR_F n) (131 + n) ov else s)
  | none =>
    let c := (s.tmrS n).capf
    (bitsOf c 0 32, (s.modTmr n (fun t => { t with capfLatch := bitsOf c 32 32 })).wr (F.TMRn_STATUS.CAPTURED_F n) 0)

/-! ### Registers -/

/-- A read of COUNT_LO (R407). -/
def State.countRead (s : State) (n : Nat) : Nat × State :=
  let c := (s.tmrS n).count
  (bitsOf c 0 32, s.modTmr n (fun t => { t with countLatch := bitsOf c 32 32 }))

/-- Writes of COUNT_LO and COUNT_HI (R406). -/
def State.countLoWrite (s : State) (n v : Nat) : State :=
  let s := s.tmrFollow n
  if s.tmrState n = 0 then s.modTmr n (fun t => { t with countHold := v % 2 ^ 32 })
  else s.tmrFlag n F.TMRn_STATUS.CFG_REJECT
def State.countHiWrite (s : State) (n v : Nat) : State :=
  let s := s.tmrFollow n
  if s.tmrState n = 0 then s.modTmr n (fun t => { t with count := v % 2 ^ 32 * 2 ^ 32 + t.countHold })
  else s.tmrFlag n F.TMRn_STATUS.CFG_REJECT

/-- A write of PERIOD_HI (R405). -/
def State.periodHiWrite (s : State) (n v : Nat) : State :=
  let s := s.writeByCode (R.TMRn_PERIOD_HI n) v
  let p := s.rd (F.TMRn_PERIOD_LO.PERIOD_LO n) + v % 2 ^ 32 * 2 ^ 32
  s.modTmr n (fun t => { t with period := p })

/-- A write of CMPk_HI (R409). -/
def State.cmpHiWrite (s : State) (n k v : Nat) : State :=
  let s := s.writeByCode (R.TMRn_CMPk_HI n k) v
  let c := s.rd (F.TMRn_CMPk_LO.CMP_LO n k) + v % 2 ^ 32 * 2 ^ 32
  if s.on (F.TMRn_CTRL.CMP_BUF n) then s.modTmr n (fun t => { t with cmpBuf := t.cmpBuf.put k c })
  else s.modTmr n (fun t => { t with cmp := Tbl.set 0 t.cmp k c, cmpBuf := t.cmpBuf.del k })

/-- A write of TMRn_OUT: LVL only while OFF (R410). -/
def State.tmrOutWrite (s : State) (n v : Nat) : State :=
  let s := s.tmrFollow n
  let off := s.tmrState n == 0
  let lv := s.rd (F.TMRn_OUT.LVL n)
  let bad := !off && bitsOf v 16 4 != lv
  let s := s.writeByCode (R.TMRn_OUT n) (if bad then putBits v 16 4 lv else v)
  let s := if bad then s.tmrFlag n F.TMRn_STATUS.CFG_REJECT else s
  s.pinsUpdate (s.cmpPins n)

/-- A write of TMRn_TASK: CH and EN only while OFF (R414). -/
def State.tmrTaskWrite (s : State) (n v : Nat) : State :=
  let s := s.tmrFollow n
  let en := s.on (F.TMRn_TASK.EN n)
  let ch := s.rd (F.TMRn_TASK.CH n)
  let bad := s.tmrState n != 0 && (v.testBit 6 != en || bitsOf v 0 6 != ch)
  let v := if bad then putBits (putBits v 6 1 (b2n en)) 0 6 ch else v
  let s := s.writeByCode (R.TMRn_TASK n) v
  let s := if bad then s.tmrFlag n F.TMRn_STATUS.CFG_REJECT else s
  s.slcConnect 2 n en ch (v.testBit 6) (bitsOf v 0 6)

/-- An event on the task input whose ACTION is not enable: clear sets COUNT and the prescaler to 0. It discards a count clock
of its PCLK cycle, and with it the period event, the matches and the width step that this would bring (R414). -/
def State.taskClear (s : State) (n : Nat) : State :=
  if s.rd (F.TMRn_TASK.ACTION n) = 2 then s
  else match s.slcTake 2 n with
    | none => s
    | some (t, s) =>
      let s := (s.reach t).tmrFollow n
      if s.rd (F.TMRn_TASK.ACTION n) = 1 then
        let d := s.tmrTick n
        let s := s.modTmr n (fun x => match x.clock with
          | some (p, w) => if p = t / 3 then { x with wrapped := false, hit := 0, width := w } else x
          | none => x)
        s.modTmr n (fun t => { t with
          count := 0, nextAt := max s.now t.moveAt + d, frozen := t.frozen.map (fun _ => d) })
      else s

/-- An event on the task input whose ACTION is enable (R414). -/
def State.taskEnable (s : State) (n : Nat) : State :=
  if s.rd (F.TMRn_TASK.ACTION n) ≠ 2 then s
  else match s.slcTake 2 n with
    | none => s
    | some (t, s) => (s.reach t).tmrCtrlWrite n (putBits (s.reg (R.TMRn_CTRL n)) 0 1 1)

/-! ### Meanings -/

/-- TMR_ENABLE (R408): a write of TMRn_CTRL. -/
def execTmrEnable (n v : Nat) (s : State) : Host.Outcome State Fault Refusal := done (s.tmrCtrlWrite n v)

/-- COUNT_CLOCK (R404). -/
def execCountClock (n : Nat) (s : State) : Host.Outcome State Fault Refusal := done (s.tmrCount n)

/-- PERIOD_EVENT (R404, R410). -/
def execPeriodEvent (n : Nat) (s : State) : Host.Outcome State Fault Refusal := done (s.tmrPeriod n)

/-- COMPARE_MATCH (R410). -/
def execCompareMatch (n k : Nat) (s : State) : Host.Outcome State Fault Refusal := done (s.tmrMatch n k)

/-- CAPTURE_RISE (R411, R412). -/
def execCaptureRise (n : Nat) (s : State) : Host.Outcome State Fault Refusal := done (s.capRise n)

/-- CAPTURE_FALL (R411, R412). -/
def execCaptureFall (n : Nat) (s : State) : Host.Outcome State Fault Refusal := done (s.capFall n)

/-- TMR_TASK_CLEAR (R414). -/
def execTmrTaskClear (n : Nat) (s : State) : Host.Outcome State Fault Refusal := done (s.taskClear n)

/-- TMR_TASK_ENABLE (R414). -/
def execTmrTaskEnable (n : Nat) (s : State) : Host.Outcome State Fault Refusal := done (s.taskEnable n)

/-- PERIOD_HI_WRITE (R405). -/
def execPeriodHiWrite (n v : Nat) (s : State) : Host.Outcome State Fault Refusal := done (s.periodHiWrite n v)

/-- COUNT_HI_WRITE (R406). -/
def execCountHiWrite (n v : Nat) (s : State) : Host.Outcome State Fault Refusal := done (s.countHiWrite n v)

/-- CMP_HI_WRITE (R409). -/
def execCmpHiWrite (n k v : Nat) (s : State) : Host.Outcome State Fault Refusal := done (s.cmpHiWrite n k v)

/-- COUNT_LO_READ (R407). -/
def execCountLoRead (n : Nat) (s : State) : Host.Outcome State Fault Refusal := done (State.answer (s.countRead n))

/-- CAPR_LO_READ (R413). -/
def execCaprLoRead (n : Nat) (s : State) : Host.Outcome State Fault Refusal := done (State.answer (s.caprRead n))

/-- CAPF_LO_READ (R413). -/
def execCapfLoRead (n : Nat) (s : State) : Host.Outcome State Fault Refusal := done (State.answer (s.capfRead n))

end Sys2Proof.Machine
end

