-- ==== Sys2Proof/Machine/CoreBase.lean ====
section
/-! DEFINITION. The control cores (R325-R351): the core map, registers, fetching, entry into exceptions and interrupts,
halt and reset. Times are counted in CCLK cycles since the model began; CCLK is 5/6 of ECLK (R497). -/

namespace Sys2Proof.Machine

/-- The internal state of core `c`. -/
def State.coreS (s : State) (c : Nat) : CoreS := Tbl.get {} s.cores c
def State.modCore (s : State) (c : Nat) (f : CoreS → CoreS) : State := { s with cores := Tbl.put s.cores c (f (s.coreS c)) }

/-! ### Time -/



/-- The cycle of a core's 64-bit counter CYCLE (R351): it counts from reset release and stands while halted. -/
def State.cycle (s : State) (c g : Nat) : Nat :=
  let x := s.coreS c
  if s.on (F.CPUn_STATUS.HALTED c) then x.held else (g - x.base) % 2 ^ 64

/-- A core waits `n` cycles on the fabric or its store buffer (R338). -/
def State.coreWait (s : State) (c n : Nat) : State :=
  (s.incRcBy (F.CPUn_WAIT_CNT.COUNT c) n).modCore c (fun x => { x with next := x.next + n })

/-! ### General registers and the core map -/

/-- Register gj of core `c`: g0 reads as 0. -/
def State.gpr (s : State) (c j : Nat) : Nat := if j = 0 then 0 else (Tbl.get 0#32 (s.coreS c).g j).toNat

/-- A write of register gj: writes to g0 are discarded. -/
def State.setGpr (s : State) (c j v : Nat) : State :=
  if j = 0 then s else s.modCore c (fun x => { x with g := Tbl.set 0#32 x.g j (w32 v) })

/-- Where a core address leads (R325). -/
inductive CoreTgt where
  /-- the core's own memories, at this system address -/
  | own (sys : Nat)
  | fabric (sys : Nat)
  | none
  deriving DecidableEq, Repr

/-- The system address of a core's own SRAM (R259, R325). -/
def ownSys (c a : Nat) : Nat := 0x1040000000 + 0x40000 * c + a

/-- The core map (R325, R326). -/
def State.coreMap (s : State) (c a : Nat) : CoreTgt :=
  if a < 0x40000 then .own (ownSys c a)
  else if Nat.ble 0x10000000 a && Nat.blt a 0x10400000 then .fabric (0x1000000000 + (a - 0x10000000))
  else if Nat.ble 0x14000000 a && Nat.blt a 0x14100000 then .fabric (0x1040000000 + (a - 0x14000000))
  else if Nat.ble 0x20000000 a && Nat.blt a 0x24000000 then .fabric (0x2000000000 + (a - 0x20000000))
  else if Nat.ble 0x80000000 a then
    let w := (Tbl.get 0#32 (s.coreS c).win (a / 2 ^ 28 - 8)).toNat
    if w.testBit 31 then .fabric (bitsOf w 0 12 * 2 ^ 28 + a % 2 ^ 28) else .none
  else .none

/-- The cycles from issue to acknowledgement of a store, without competition (R338). -/
def State.storeWait (s : State) (sys : Option Nat) : Nat :=
  match sys with
  | none => 0
  | some a => match regionOf s.gib a with
    | .sram p => if p = 0 then 8 else 10
    | .regSpace _ => 16
    | .hbm => 20
    | .host => 30
    | .none => 0

/-- The cycles a fabric load adds (R338); a read of host memory takes the time the host takes, a free value below
50 ms (log 8). -/
def State.loadWait (s : State) (a : Nat) : Nat × State :=
  match regionOf s.gib a with
  | .sram p => (if p = 0 then 10 else 14, s)
  | .regSpace _ => (24, s)
  | .hbm => (120, s)
  | .host => let (v, s) := s.free; (v % 25000000, s)
  | .none => (0, s)

/-! ### Fetching (R327, R333, R342-R344) -/

/-- The word at PC address `a`, fetched from the core's instruction SRAM; none: outside it, or uncorrectable. -/
def State.fetchWord (s : State) (c a : Nat) : Option Nat × State :=
  if 0x20000 ≤ a then (none, s)
  else
    let wa := ownSys c (a / 8 * 8)
    match s.peekWord8 wa with
    | none => (none, s)
    | some _ => match s.readWord8 wa (0x20 + c) with
      | (none, s) => (none, s)
      | (some bs, s) => (some (leAt bs (a % 8) 4), s)

/-- The core fetches the instruction at PC and the two that follow it (R333). -/
def State.refetch (s : State) (c : Nat) : State :=
  let pc := (s.coreS c).pc
  let (a, s) := s.fetchWord c pc
  let (b, s) := s.fetchWord c ((pc + 4) % 2 ^ 32)
  let (d, s) := s.fetchWord c ((pc + 8) % 2 ^ 32)
  s.modCore c (fun x => { x with pref := [a, b, d] })

/-- Sequential execution: PC + 4; the third instruction that follows is fetched now. The instruction took `n`
cycles. -/
def State.coreNext (s : State) (c n : Nat) : State :=
  let x := s.coreS c
  let (w, s) := s.fetchWord c ((x.pc + 12) % 2 ^ 32)
  s.modCore c (fun x => { x with
    pc := (x.pc + 4) % 2 ^ 32, pref := x.pref.drop 1 ++ [w], next := x.next + n, waiting := none, prog := 0,
    between := false, part := [] })

/-- A transfer to `a` (R333): both prefetched instructions are discarded. -/
def State.coreJump (s : State) (c a n : Nat) : State :=
  (s.modCore c (fun x => { x with
    pc := a / 4 * 4, next := x.next + n, waiting := none, prog := 0, between := false, part := [] })).refetch c

/-! ### System registers (R351) -/

/-- The reservation of core `c` is cleared (R341). -/
def State.dropResv (s : State) (c : Nat) : State := { s with memc := { s.memc with resv := s.memc.resv.del c } }

/-- MFS: the value of system register `n` in cycle `g`. -/
def State.srRead (s : State) (c n g : Nat) : Nat × State :=
  let x := s.coreS c
  match n with
  | 0 => (x.status, s)
  | 1 => (x.epc, s)
  | 2 => (x.cause, s)
  | 3 => (x.badaddr, s)
  | 4 => (x.vbase, s)
  | 5 => (x.stack.length, s)
  | 6 => (x.scratch0, s)
  | 7 => (x.scratch1, s)
  | 8 => (s.cycle c g % 2 ^ 32, s.modCore c (fun x => { x with cycHi := s.cycle c g / 2 ^ 32 }))
  | 9 => (x.cycHi, s)
  | 10 => (c, s)
  | _ => if Nat.ble 16 n && Nat.ble n 23 then ((Tbl.get 0#32 x.win (n - 16)).toNat, s) else (0, s)

/-- MTS: a write of system register `n`. -/
def State.srWrite (s : State) (c n v : Nat) : State :=
  match n with
  | 0 => s.modCore c (fun x => { x with status := v % 16 + (if x.status.testBit 4 && !v.testBit 4 then 16 else 0) })
  | 1 => s.modCore c (fun x => { x with epc := v % 2 ^ 32 })
  | 4 => s.modCore c (fun x => { x with vbase := v &&& 0x1FF00 })
  | 6 => s.modCore c (fun x => { x with scratch0 := v % 2 ^ 32 })
  | 7 => s.modCore c (fun x => { x with scratch1 := v % 2 ^ 32 })
  | _ => if Nat.ble 16 n && Nat.ble n 23
    then s.modCore c (fun x => { x with win := Tbl.set 0#32 x.win (n - 16) (w32 (v &&& 0x80000FFF)) }) else s

/-- STATUS fields. -/
def State.coreIe (s : State) (c : Nat) : Bool := (s.coreS c).status.testBit 0
def State.coreExc (s : State) (c : Nat) : Bool := (s.coreS c).status.testBit 2

/-! ### Halt and reset (R349, R350) -/

/-- The core halts at this boundary. -/
def State.coreHalt (s : State) (c cause : Nat) : State :=
  let s := s.modCore c (fun x => { x with
    held := (x.next - x.base) % 2 ^ 64, haltReq := 0, waiting := none, prog := 0, between := false, part := [] })
  (((s.dropResv c).wr (F.CPUn_STATUS.HALTED c) 1).wr (F.CPUn_DBG_STATUS.HCAUSE c) cause).tmrFreezeAll

/-- A halted core runs on from its PC (R349): it fetches again, and CYCLE counts on. -/
def State.coreGo (s : State) (c : Nat) : State :=
  let g := cclkAt s.now
  let s := s.modCore c (fun x => { x with next := max x.next g, base := max x.next g - x.held })
  (((s.wr (F.CPUn_STATUS.HALTED c) 0)).tmrFreezeAll).refetch c

/-- The core enters reset (R350). -/
def State.coreResetIn (s : State) (c : Nat) : State :=
  let s := s.modCore c (fun x => { x with
    g := [], status := 0, stack := [], pref := [], waiting := none, prog := 0, between := false, part := [],
    haltReq := 0, held := 0 })
  let s := { s with memc := { s.memc with lateErr := s.memc.lateErr.filter (fun e => e.1 != c) } }
  let s := ((s.dropResv c).wr (F.CPUn_STATUS.IN_RESET c) 1).wr (F.CPUn_STATUS.WFI c) 0
  ((s.wr (F.CPUn_STATUS.HALTED c) 0).wr (F.CPUn_DBG_STATUS.HCAUSE c) 0).tmrFreezeAll

/-- RESET is released: the core starts at BOOT_PC (R350). -/
def State.coreStart (s : State) (c : Nat) : State :=
  let g := cclkAt s.now
  let s := { s with memc := { s.memc with lateErr := s.memc.lateErr.filter (fun e => e.1 != c) } }
  let s := s.modCore c (fun x => { x with pc := 4 * s.rd (F.CPUn_BOOT_PC.PC c), next := g, base := g })
  (s.wr (F.CPUn_STATUS.IN_RESET c) 0).refetch c

/-- No instruction is in progress. -/
def State.coreIdle (s : State) (c : Nat) : Bool := (s.coreS c).waiting.isNone && !s.on (F.CPUn_STATUS.WFI c)

/-- What falls due at an instruction boundary: reset, once the store buffer is empty, or a halt. -/
def State.coreSettle (s : State) (c : Nat) : State :=
  if !s.coreIdle c || s.on (F.CPUn_STATUS.IN_RESET c) then s
  else if s.on (F.CPUn_CTRL.RESET c) then (if (s.coreS c).sb = [] then s.coreResetIn c else s)
  else if (s.coreS c).haltReq ≠ 0 && !s.on (F.CPUn_STATUS.HALTED c) then s.coreHalt c (s.coreS c).haltReq
  else s

/-- A write of CPUn_CTRL (R350). -/
def State.coreCtrlWrite (s : State) (c v : Nat) : State :=
  let s := s.writeByCode (R.CPUn_CTRL c) v
  if v.testBit 0 then s.coreSettle c
  else if s.on (F.CPUn_STATUS.IN_RESET c) then s.coreStart c else s

/-- A store of core `c` has reached memory: its core address is kept while a merge buffer may still refuse it (R345). -/
def State.storeSent (s : State) (c sys n a : Nat) : State :=
  s.modCore c (fun x => { x with sent := (x.sent ++ [(sys, n, a)]).filter (fun e => s.mergeHeld e.1 e.2.1) })

/-- The core has power and is neither in reset nor on the way there. -/
def State.coreLive (s : State) (c : Nat) : Bool :=
  !s.boot.tripped && !s.on (F.CPUn_STATUS.IN_RESET c) && !s.on (F.CPUn_CTRL.RESET c)

/-- An enabled breakpoint names the PC (R349). -/
def State.bpHit (s : State) (c : Nat) : Bool :=
  (List.range 4).any (fun k => s.on (F.CPUn_BPk.EN c k) && (s.coreS c).pc == 4 * s.rd (F.CPUn_BPk.ADDR c k))

/-- A bus error of a posted store waits to be taken (R345). -/
def State.storeErr (s : State) (c : Nat) : Option Nat := (s.memc.lateErr.find? (fun e => e.1 == c)).map (fun e => e.2)

/-- An interrupt would be taken at a boundary (R346). -/
def State.intTaken (s : State) (c : Nat) : Bool := s.coreIe c && !s.coreExc c && s.irqLine c

/-! ### Exceptions and interrupts (R345, R348) -/

/-- CAUSE with a new CODE: TCODE stays that of the last TRAP. -/
def causeWord (old code tcode : Nat) : Nat :=
  code + 256 * (if code = 9 then tcode else bitsOf old 8 5) + (if code = 5 then 65536 else 0)

/-- Entry into an exception or interrupt: the saved registers, STATUS, the reservation, the vector (R345). -/
def State.coreEntry (s : State) (c code epc : Nat) (bad : Option Nat) (tcode vec : Nat) : State :=
  let s := s.modCore c (fun x => { x with
    epc := epc
    badaddr := bad.getD x.badaddr
    cause := causeWord x.cause code tcode
    status := (x.status &&& 0x18) + 2 * bitsOf x.status 0 1 + 4 })
  let s := (s.dropResv c).wr (F.CPUn_STATUS.LAST_CODE c) code
  s.coreJump c ((s.coreS c).vbase + vec) 6

/-- An exception other than INTERRUPT: with EXC = 1 a double fault halts the core (R348). -/
def State.coreExcept (s : State) (c code epc : Nat) (bad : Option Nat) (tcode : Nat) : State :=
  if s.coreExc c then (s.coreHalt c 5).fault 0x30 c else s.coreEntry c code epc bad tcode 0

/-- A precise exception of the instruction at PC. -/
def State.qExc (s : State) (c code : Nat) (bad : Option Nat) : State := s.coreExcept c code (s.coreS c).pc bad 0

end Sys2Proof.Machine
end

