-- ==== Sys2Proof/Machine/Standby.lean ====
section
/-! DEFINITION. Resets, Standby and the wake (20_startup_standby_and_scale.md R451-R459, 23_package_power_and_clocks.md
R491-R502, 14_interrupts.md R360). -/

namespace Sys2Proof.Machine

/-! ### Resets -/

/-- The machine after a reset that keeps the registers at which `keep` holds: the parts outside it, the flash, OTP and the
HBM's cells stay; every on-chip SRAM array reads 0 (R420, R493, R517). -/
def State.afterReset (s : State) (keep : Nat → Bool) : State :=
  let b := s.boot
  let c := s.sec
  { State.reset with
    now := s.now, gib := s.gib, freeCnt := s.freeCnt, sent := s.sent, rdata := s.rdata, pending := s.pending
    regs := s.regs.filter (fun e => keep e.1)
    mem := s.mem.filter (fun e => decide (e.1 < s.gib * 2 ^ 30))
    memc := { hbmErr := s.memc.hbmErr }
    lane := s.lane.filter (fun e => decide (24 ≤ e.1)), tile := s.tile
    tick := { fsLevel := s.tick.pinLevel, fsAccepted := s.tick.pinLevel }
    aud := { last := s.now }
    sec := { devId := c.devId, devPriv := c.devPriv, devPub := c.devPub, otpHash := c.otpHash, revoked := c.revoked, counter := c.counter }
    pin := s.pin.map (fun e => (e.1, { ext := e.2.ext }))
    boot := { flash := b.flash, size := b.size, mode := b.mode, unpow := b.unpow } }

/-- What the part senses after a reset: OTP, the supplies of the GPIO banks, HPD, the pads (R377, R420). -/
def State.sense (s old : State) : State :=
  let s := s.otpRegs
  let s := (List.range 6).foldl (fun s b => s.wr (F.GPIO_BANKb_CFG.VSENSE b) (old.rd (F.GPIO_BANKb_CFG.VSENSE b))) s
  let s := (List.range 2).foldl (fun s n => s.wr (F.PVWn_STATUS.HPD n) (old.rd (F.PVWn_STATUS.HPD n))) s
  s.pinsUpdate ((s.pin.filter (fun e => e.2.ext.isSome)).map (fun e => e.1))

/-- PORST_N is low: every block is reset, the always-on domain and the host port included (R493). -/
def State.powerReset (s : State) : State :=
  (((s.afterReset (fun _ => false)).sense s).modBoot (fun b => { b with porst := true })).emit (.xspiRst false s.now)

/-- The HST block (R512). -/
def isHst (o : Nat) : Bool := decide (0x40000 ≤ o) && decide (o < 0x80000)

/-- The reset of DEVICE_RESET: every block but the host port; the slots become IDLE (R483). The flash is reset too
(R494). -/
def State.deviceReset (s : State) : State :=
  let s1 := (({ s.afterReset isHst with hst := s.hst }).sense s).emit (.xspiRst false s.now)
  (s1.wr F.HST_MB_STATE.STATE 0).modHst (fun h => { h with order := [], exec := none, fw := false, ents := [],
                                                           resetSlot := none, resetOn := none, resetAt := none })

/-- The always-on registers of R512. -/
def isAon (o : Nat) : Bool :=
  o == 0x44 || o == 0x48 || o == 0x201C || (decide (0x3000 ≤ o) && decide (o < 0x4000)) ||
    (decide (0x4400 ≤ o) && decide (o ≤ 0x4484)) || (decide (0x6000 ≤ o) && decide (o < 0x9000))

/-- Every domain but the always-on domain goes off; its task inputs keep their channels until the wake (R376, R453, R458,
R515). -/
def State.domainsOff (s : State) : State :=
  let b := s.boot
  let s1 := { s.afterReset isAon with
    slc := s.slc, pin := s.pin, flt := { errLow := s.flt.errLow }
    aud := { last := s.now, scnt := s.aud.scnt }
    boot := { flash := b.flash, size := b.size, mode := b.mode, unpow := b.unpow, xspiRise := b.xspiRise, wakeBase := b.wakeBase, wakeLen := b.wakeLen
              wakeSecs := b.wakeSecs, wakeSize := b.wakeSize, wakeMem := b.wakeMem, sby := 5, sbyAt := b.sbyAt, wakeT := b.wakeT, rec_ := b.rec_, wakeDue := b.wakeDue } }
  let s1 := { s1 with slc := { s1.slc with due := s1.slc.due.filter (fun e => e.1 == 4) } }
  s1.pinsUpdate (List.range 96)

/-! ### Standby (R451-R453) -/

/-- A write of BOOT_SBY_CTRL (R451, R454). -/
def State.sbyWrite (s : State) (v : Nat) : State :=
  let s := s.showDue
  let ph := s.rd F.BOOT_STATUS.PHASE
  if !v.testBit 0 then s.writeByCode R.BOOT_SBY_CTRL v
  else if 2 ≤ s.boot.sby ∨ (ph ≠ 9 ∧ ph ≠ 10) then s.hwSet F.BOOT_STATUS.SBY_REJECT
  else ((s.writeByCode R.BOOT_SBY_CTRL v).modBoot (fun b => { b with sby := 1 })).noTick

/-- The tile table as it goes into the wake area (R444): for each of 1,536 tiles the words of PLK_TILE, then KEYHASH. -/
def State.tableOut (s : State) : List Byte :=
  (List.range 1536).flatMap (fun k =>
    (List.range 8).flatMap (fun j => leBytes 4 (s.reg (R.PLK_TILE0 k + 4 * j))) ++ beBytes 48 (s.chT k).keyhash)

/-- A lane of the Skokor powers down (R203, R452). -/
def State.lanePowerDown (s : State) (p : Nat) : State :=
  let s := if s.laneSt p = 3 then (s.flag (F.PLKn_LSTAT.DOWN p) (20 + p)).incRc (F.PLKn_RETRAIN.COUNT p) else s
  ((s.setLaneSt p 0).wr (F.PLKn_CTRL.STATE p) 0).modLane p (fun x => ({ delay := x.delay } : LaneS))

/-- The merge buffers are written (R452). -/
def State.mergeFlush (s : State) : State :=
  let s := s.memc.rmw.foldl State.flushRmwE s
  s.memc.merge.foldl State.flushMergeE s

/-- Work in flight in DMA, the blitter, the cores and the loaders stops where it is, and is lost (R452). -/
def State.workStop (s : State) : State :=
  let s := { s with dma := [], blt := {}, cores := [], obj := { s.obj with left := 0 } }
  engines.foldl (fun s n => s.modEng n (fun e => { e with checking := none, live := false })) s

/-- SBY_CUTOFF (R452): T + 1 ms. The wake record takes the hash of what the Skokor has put into the wake area, so that the
wake fails on what any other has written there (R444, R453). -/
def State.sbyCutoff (s : State) : State :=
  if s.boot.sby ≠ 2 then s
  else
    let s := (s.reach (s.boot.sbyAt + msT)).workStop.mergeFlush
    let s := (List.range 24).foldl State.lanePowerDown s
    let s := { s with tile := s.tile.map (fun (e : Nat × TileS) => (e.1, { e.2 with readySent := false })) }
    let s := s.wakePut (s.boot.wakeBase + s.boot.wakeLen) s.tableOut
    let w : WakeRec := { meas := s.sec.meas, sections := s.sec.sections, signer := s.rd F.SEC_STATUS.SIGNER
                         svn := s.rd F.SEC_OTP.SVN, frameCnt := s.tick.frameCnt, hash := sha384 s.wakeBytes }
    s.modBoot (fun b => { b with sby := 3, rec_ := w })

/-- SBY_SELF_REFRESH (R388, R452): T + 1.2 ms. -/
def State.sbySelfRefresh (s : State) : State :=
  if s.boot.sby ≠ 3 then s
  else ((s.reach (s.boot.sbyAt + 720000)).wr F.HBM_STATUS.SELF_REFRESH 1).pinsHold.modBoot (fun b => { b with sby := 4 })

/-! ### The wake (R360, R454-R459) -/

/-- The wake begins: domains power up, PHASE reads WAKING, and the task inputs of the blocks that are reset leave their
channels (R376, R454, R455, R458). -/
def State.wakeBegin (s : State) : State :=
  let w := max s.now (s.boot.wakeT.getD s.now)
  let s := (s.reach w).modBoot (fun b => { b with sby := 6, wakeStep := 0, wakeAt := w, start := some w, did := 0x3FE })
  let s := ((s.wr F.BOOT_STATUS.PHASE 12).inc F.BOOT_WAKE.WAKES).hwSet F.IRQ_WAKE_STATUS.WOKE
  let s := { s with flt := { s.flt with errLow := false, tempAt := w + 2 * msT }, aud := { s.aud with last := w } }
  (((s.slcDisown 1).slcDisown 2).slcDisown 3).sense s

/-- SBY_REACHED (R452, R453): T + 2 ms; an event that came before begins the wake now (R454). -/
def State.sbyReached (s : State) : State :=
  if s.boot.sby ≠ 4 then s
  else
    let s := (s.reach (s.boot.sbyAt + 2 * msT)).domainsOff
    if s.boot.wakeT.isSome then s.wakeBegin else s

/-- The enabled slots of the wake watcher that watch source `n` (R360). -/
def State.wakeSlots (s : State) (n : Nat) : List Nat :=
  (List.range 32).filter (fun k => s.on (F.IRQ_WAKEk.EN k) && s.rd (F.IRQ_WAKEk.SRC k) == n)

/-- WAKE_EVENT (R360, R454): the oldest FCLK cycle in which watched sources produced events sets its HIT bits; the first one
that fires a slot records FIRST, the lowest slot of that cycle, and begins the wake. -/
def State.wakeEvent (s : State) : State :=
  match s.boot.wakeDue with
  | [] => s
  | (_, t) :: _ =>
    let now_ := s.boot.wakeDue.filter (fun e => e.2 / 12 == t / 12)
    let slots := (List.range 32).filter (fun k => now_.any (fun e => (s.wakeSlots e.1).contains k))
    let s := s.modBoot (fun b => { b with wakeDue := b.wakeDue.filter (fun e => e.2 / 12 != t / 12) })
    let s := slots.foldl (fun s k => s.hwSetBit F.IRQ_WAKE_HIT.HIT k) s
    match slots with
    | [] => s
    | k :: _ =>
      if s.boot.sby < 2 then s
      else if s.boot.wakeT.any (fun w => w / 12 == t / 12)
      then s.wr F.IRQ_WAKE_STATUS.FIRST (min k (s.rd F.IRQ_WAKE_STATUS.FIRST))
      else if s.boot.sby = 6 ∨ s.boot.wakeT.isSome then s
      else
        let s := (s.wr F.IRQ_WAKE_STATUS.FIRST k).modBoot (fun b => { b with wakeT := some t })
        if s.boot.sby = 5 then s.wakeBegin else s

/-- The wake is abandoned: a full boot from step 1 (R459). -/
def State.wakeFail (s : State) : State :=
  let s := s.reach (s.boot.wakeAt + 6 * msT)
  let s := ((s.hwSet F.BOOT_STATUS.WAKE_COLD).fault 0x44 0).wr F.HBM_STATUS.TRAINED 0
  (s.wr F.HBM_STATUS.SELF_REFRESH 0).bootStart

/-- WAKE_HBM (R455): the HBM leaves self-refresh and its stored training is restored, or fails to (R459). -/
def State.wakeHbm (s : State) (ok : Bool) : State :=
  if s.boot.sby ≠ 6 ∨ s.boot.wakeStep ≠ 0 then s
  else if !ok then s.wakeFail
  else
    let s := (s.reach (s.boot.wakeAt + 2 * msT)).wr F.HBM_STATUS.SELF_REFRESH 0
    (((s.wr F.HBM_STATUS.TRAINED 1).wr F.HBM_STATUS.HEIGHT (s.gib / 2)).hbmGo).modBoot (fun b => { b with wakeStep := 1 })

/-- The copy number `i` in the wake area: its offset. -/
def wakeOff (l : List (Nat × Nat × Nat)) (i : Nat) : Nat := ((l.take i).map (fun e => e.2.2)).foldl (· + ·) 0

/-- The bytes of a copy of the given type in the wake area. -/
def State.wakeCopy (s : State) (b : List Byte) (t : Nat) : Option (List Byte) :=
  ((List.range s.boot.wakeSecs.length).zip s.boot.wakeSecs).findSome? (fun e =>
    if e.2.1 = t then some ((b.drop (wakeOff s.boot.wakeSecs e.1)).take e.2.2.2) else none)

/-- The tile table is restored (R455, R456): no tile is admitted until it has matched its entry. -/
def State.tableIn (s : State) (b : List Byte) : State :=
  (List.range 1536).foldl (fun s k =>
    let e := (b.drop (80 * k)).take 80
    if leAt e 0 4 % 8 = 0 then s
    else
      let s := (List.range 8).foldl (fun s j => s.setReg (R.PLK_TILE0 k + 4 * j) (leAt e (4 * j) 4)) s
      (s.wr (F.PLK_TILE0.TSTATE k) 0).modCh k (fun c => { c with known := true, woken := true, keyhash := beVal (e.drop 32) })) s

/-- The sections of the wake area are restored: keys, SRAM data; measurements come from the wake record (R455,
R458). -/
def State.sectionsIn (s : State) (b : List Byte) : State :=
  let l := s.boot.wakeSecs
  let s := ((List.range l.length).zip l).foldl (fun s e =>
    let bs := (b.drop (wakeOff l e.1)).take e.2.2.2
    if e.2.1 = 0x10 then (s.busWrite 0x30 e.2.2.1 bs).2
    else if 0x20 ≤ e.2.1 then (s.keySection e.2.1 bs).getD s
    else s) s
  let r := s.boot.rec_
  let s := s.modSec (fun c => { c with meas := r.meas, sections := r.sections })
  (((s.wr F.SEC_STATUS.SIGNER r.signer).wr F.SEC_STATUS.IMG_OK 1).wr F.SEC_OTP.SVN r.svn).modTick (fun t =>
    { t with frameCnt := r.frameCnt })

/-- WAKE_RESTORE (R455, R459): the wake area is hashed; it is restored and the CONFIG list begins, or the wake fails. -/
def State.wakeRestore (s : State) : State :=
  if s.boot.sby ≠ 6 ∨ s.boot.wakeStep ≠ 1 then s
  else
    let s := (s.reach (s.boot.wakeAt + 6 * msT)).modBoot (fun b => { b with wakeStep := 2 })
    match s.busRead 0x30 s.boot.wakeBase s.boot.wakeSize with
    | (.ok b, s) =>
      if sha384 b ≠ s.boot.rec_.hash then s.wakeFail
      else
        let s := (s.sectionsIn b).tableIn (b.drop s.boot.wakeLen)
        (match s.wakeCopy b 1 with
        | some c => s.listBegin 1 c
        | none => s)
    | (_, s) => s.wakeFail

/-- WAKE_PORTS (R455): ports train, and the START list runs. -/
def State.wakePorts (s : State) : State :=
  if s.boot.sby ≠ 6 ∨ s.boot.list.isSome ∨ s.boot.wakeStep ≠ 2 then s
  else
    let s := (s.reach (s.boot.wakeAt + 11 * msT)).modBoot (fun b => { b with wakeStep := 3 })
    match s.busRead 0x30 s.boot.wakeBase s.boot.wakeLen with
    | (.ok b, s) =>
      (match s.wakeCopy b 2 with
      | some c => s.listBegin 2 c
      | none => s)
    | (_, s) => s

/-- WAKE_FIRST_TICK (R457): exactly W + 30 ms, if RUN = 1 was written; the wake ends. -/
def State.wakeFirstTick (s : State) : State :=
  if s.boot.sby ≠ 6 ∨ s.boot.wakeStep ≠ 3 then s
  else
    let s := s.reach (s.boot.wakeAt + 30 * msT)
    let held := s.boot.runHeld
    let s := (s.modBoot (fun b => { b with sby := 0, runHeld := false, wakeT := none, wakeDue := [] })).wr
      F.BOOT_STATUS.PHASE 10
    if held then ((s.setRun true).modTick (fun t => { t with at_ := some s.now })).tickNow
    else s.modAud (fun a => { a with last := s.now })

/-! ### The package (R491-R502) -/



/-- THERMTRIP (R502): ECLK, CCLK and the lane clocks stop; the lanes go down; nothing runs until PORST_N. -/
def State.thermTrip (s : State) : State :=
  let s := s.workStop
  let s := (List.range 24).foldl (fun s p => ((s.setLaneSt p 0).wr (F.PLKn_CTRL.STATE p) 0).modPort p (fun x =>
    { x with idleEnd := none })) s
  let s := (s.modTick (fun t => { t with at_ := none })).wr F.ENG_WARD_STATUS.WSTATE 0
  let s := { s with aud := {}, lane := s.lane.filter (fun e => decide (24 ≤ e.1)) }
  s.modBoot (fun b => { b with tripped := true, secs := [], list := none, waiting := [] })

/-! ### Meanings -/

/-- PORST_N (R493). -/
def execPorstN (s : State) : Host.Outcome State Fault Refusal := done s.powerReset

/-- SBY_ENTER (R451): a write of BOOT_SBY_CTRL with ENTER = 1. -/
def execSbyEnter (v : Nat) (s : State) : Host.Outcome State Fault Refusal := done (s.sbyWrite (v ||| 1))

/-- SBY_CUTOFF (R452). -/
def execSbyCutoff (s : State) : Host.Outcome State Fault Refusal := done s.sbyCutoff

/-- SBY_SELF_REFRESH (R452). -/
def execSbySelfRefresh (s : State) : Host.Outcome State Fault Refusal := done s.sbySelfRefresh

/-- SBY_REACHED (R452). -/
def execSbyReached (s : State) : Host.Outcome State Fault Refusal := done s.sbyReached

/-- WAKE_EVENT (R360). -/
def execWakeEvent (s : State) : Host.Outcome State Fault Refusal := done s.wakeEvent

/-- WAKE_HBM (R455). -/
def execWakeHbm (ok : Bool) (s : State) : Host.Outcome State Fault Refusal := done (s.wakeHbm ok)

/-- WAKE_RESTORE (R455). -/
def execWakeRestore (s : State) : Host.Outcome State Fault Refusal := done s.wakeRestore

/-- WAKE_PORTS (R455). -/
def execWakePorts (s : State) : Host.Outcome State Fault Refusal := done s.wakePorts

/-- WAKE_FIRST_TICK (R457). -/
def execWakeFirstTick (s : State) : Host.Outcome State Fault Refusal := done s.wakeFirstTick



/-- THERMTRIP (R502). -/
def execThermtrip (s : State) : Host.Outcome State Fault Refusal := done s.thermTrip

end Sys2Proof.Machine
end

