-- ==== Sys2Proof/Machine/FaultCmd.lean ====
section
/-! DEFINITION. The fault controller's registers, its timers and the die temperature (21_faults_and_self_management.md
R465-R473). Raising and taking a fault stand in `Ops`. -/

namespace Sys2Proof.Machine

/-- FLT_QUIET.MS in force: 0 acts as 1, values above 60,000 as 60,000 (R469). -/
def State.quietMs (s : State) : Nat := clampN 1 60000 (s.rd F.FLT_QUIET.MS)

/-- The quiet timer: ms since the last fault taken at DEGRADE or above, at most 60,000 (R469). -/
def State.quietTimer (s : State) : Nat := min 60000 ((s.now - s.flt.lastT) / msT)

/-- The device recovers now, unless a fault of this cycle was taken at DEGRADE or CRITICAL (R469); one that is raised
later in the cycle still prevents it (`State.takeSet`). -/
def State.recoverNow (s : State) : State :=
  if s.rd F.FLT_STATUS.STATE = 0 ∨ s.flt.lastT = s.now then s
  else
    let c := s.fltNow.getD s.fltSnap
    let s := s.recover
    { s with flt := { s.flt with cyc := some { c with rec_ := true } } }

/-- Automatic recovery, as AUTO and MS stand now (R469). -/
def State.quietCheck (s : State) : State :=
  if s.on F.FLT_CTRL.AUTO && decide (s.quietMs ≤ s.quietTimer) then s.recoverNow else s

/-- The fault configuration is locked (R472). -/
def State.fltLocked (s : State) : Bool := s.on F.FLT_CTRL.LOCK

/-- A write of FLT_CTRL (R469, R472). -/
def State.fltCtrlWrite (s : State) (v : Nat) : State :=
  let s := if s.fltLocked then s
    else ((s.wrB F.FLT_CTRL.AUTO (v.testBit 0)).wrB F.FLT_CTRL.FREEZE_AUDIO (v.testBit 2)).wr F.FLT_CTRL.IRQ_LEVEL (bitsOf v 4 2)
  let s := if v.testBit 3 then s.wr F.FLT_CTRL.LOCK 1 else s
  if v.testBit 1 then s.recoverNow else s.quietCheck

/-- A write of FLT_QUIET (R469, R472). -/
def State.fltQuietWrite (s : State) (v : Nat) : State :=
  if s.fltLocked then s else (s.writeByCode R.FLT_QUIET v).quietCheck

/-- A write of a register that LOCK locks whole: FLT_SRCs_CFG, FLT_ESC_CAP, FLT_THERM (R472). -/
def State.fltCfgWrite (s : State) (o v : Nat) : State := if s.fltLocked then s else s.writeByCode o v

/-- A write of FLT_PIN: SW applies at once outside a pulse (R465). The faults of the cycle find ERR_N so. -/
def State.fltPinWrite (s : State) (v : Nat) : State :=
  let s := s.writeByCode R.FLT_PIN v
  let s := s.fltBase (fun c => if c.stat.testBit 2 then c else { c with errLow := s.on F.FLT_PIN.SW })
  if s.on F.FLT_STATUS.PULSING then s else { s with flt := { s.flt with errLow := s.on F.FLT_PIN.SW } }

/-- A word of FLT_CLASS with the classes of `v` acknowledged: PEND cleared and LVL 0 (R468). -/
def ackClass (w v : Nat) : Nat :=
  (List.range 8).foldl (fun w c => if v.testBit c then putBits (putBits w c 1 0) (8 + 2 * c) 2 0 else w) w

/-- A write of FLT_ACK (R468). Faults of the same cycle are taken after it (R463). -/
def State.fltAck (s : State) (v : Nat) : State :=
  match s.fltNow with
  | none => s.wr fltCls (ackClass (s.rd fltCls) v)
  | some c =>
    let c := { c with cls := ackClass c.cls v }
    (s.fltBack c).takeSet c

/-- A written 1 clears OVERFLOW of the fault log, which the faults of the cycle then find clear (R18, R473). -/
def State.fltLogStWrite (s : State) (v : Nat) : State :=
  let s := s.writeByCode R.FLT_LOG_STATUS v
  if v.testBit 6 then s.fltBase (fun c => { c with logSt := putBits c.logSt 6 1 0 }) else s

/-- A write of FLT_LOG_POP (R473). It takes effect beside the additions of the same cycle, ahead of them. -/
def State.fltPop (s : State) (v : Nat) : State :=
  if !v.testBit 0 then s
  else match s.fltNow with
    | none =>
      let l := s.flt.log.drop 1
      ({ s with flt := { s.flt with log := l } }).wr F.FLT_LOG_STATUS.COUNT l.length
    | some c =>
      let c := { c with log := c.log.drop 1, logSt := putBits c.logSt 0 6 (c.log.length - 1) }
      (s.fltBack c).takeSet c

/-- FLT_STATUS as it reads: REMAIN follows the quiet timer (R469). -/
def State.fltStatus (s : State) : Nat :=
  let rem := if s.rd F.FLT_STATUS.STATE = 0 then 0 else s.quietMs - s.quietTimer
  putBits (s.reg R.FLT_STATUS) 16 16 rem

/-- FLT_LOG_ENTRY and FLT_LOG_FRAME: the oldest entry (R473); 0 when there is none. -/
def State.fltLogEntry (s : State) : Nat :=
  match s.flt.log with
  | [] => 0
  | e :: _ => e.src + 256 * e.level + 1024 * b2n e.esc + 65536 * e.inst
def State.fltLogFrame (s : State) : Nat :=
  match s.flt.log with
  | [] => 0
  | e :: _ => e.frame

/-- The ERR_N pulse ends (R465). -/
def State.pulseEnd (s : State) : State :=
  if !s.on F.FLT_STATUS.PULSING then s
  else
    let s := (s.reach s.flt.pulseEnd).wr F.FLT_STATUS.PULSING 0
    let s := s.fltBase (fun c => { c with stat := putBits c.stat 2 1 0, errLow := s.on F.FLT_PIN.SW })
    { s with flt := { s.flt with errLow := s.on F.FLT_PIN.SW } }

/-- The quiet period ends (R469). -/
def State.quietExpire (s : State) : State :=
  if s.rd F.FLT_STATUS.STATE = 0 ∨ !s.on F.FLT_CTRL.AUTO then s
  else (s.reach (s.flt.lastT + s.quietMs * msT)).recoverNow

/-- A threshold is crossed by temperature `t`: whether its fault is raised, and whether it is armed afterwards (R471). -/
def crossing (thr t : Nat) (armed : Bool) : Bool × Bool :=
  if sext 16 thr ≤ sext 16 t then (armed, false)
  else (false, armed || decide (sext 16 t ≤ sext 16 thr - 0x500))

/-- The junction temperature is measured, SQ8.8 °C (R471). -/
def State.tempMeasure (s : State) (t : Nat) : State :=
  if s.boot.sby = 5 then s
  else
    let s := (s.reach s.flt.tempAt).wr F.FLT_TEMP.TJ t
    let (hot, ah) := crossing (s.rd F.FLT_THERM.HOT) t s.flt.hotArmed
    let (crit, ac) := crossing (s.rd F.FLT_THERM.CRIT) t s.flt.critArmed
    let s := { s with flt := { s.flt with hotArmed := ah, critArmed := ac, measured := true, tempAt := s.now + msT } }
    let s := if hot then s.fault 0x45 0 else s
    if crit then s.fault 0x46 0 else s

/-! ### Meanings -/

/-- ERR_N_PULSE_END (R465). -/
def execErrNPulseEnd (s : State) : Host.Outcome State Fault Refusal := done s.pulseEnd

/-- QUIET_EXPIRE (R469). -/
def execQuietExpire (s : State) : Host.Outcome State Fault Refusal := done s.quietExpire

/-- FLT_ACK (R468). -/
def execFltAck (v : Nat) (s : State) : Host.Outcome State Fault Refusal := done (s.fltAck v)

/-- FLT_RECOVER (R469): a write of FLT_CTRL with RECOVER = 1. -/
def execFltRecover (v : Nat) (s : State) : Host.Outcome State Fault Refusal := done (s.fltCtrlWrite (v ||| 2))

/-- FLT_AUTO_WRITE (R469): a write of FLT_CTRL with AUTO = 1. -/
def execFltAutoWrite (v : Nat) (s : State) : Host.Outcome State Fault Refusal := done (s.fltCtrlWrite (v ||| 1))

/-- FLT_LOCK (R472): a write of FLT_CTRL with LOCK = 1. -/
def execFltLock (v : Nat) (s : State) : Host.Outcome State Fault Refusal := done (s.fltCtrlWrite (v ||| 8))

/-- FLT_LOG_POP (R473). -/
def execFltLogPop (v : Nat) (s : State) : Host.Outcome State Fault Refusal := done (s.fltPop v)

/-- TEMP_MEASURE (R471). -/
def execTempMeasure (t : Nat) (s : State) : Host.Outcome State Fault Refusal := done (s.tempMeasure t)

end Sys2Proof.Machine
end

