-- ==== Sys2Proof/Machine/Host.lean ====
section
/-! DEFINITION. The host port (22_host_port.md): the link and the function's power state, BAR2, the flash, reset and
firmware commands of the mailbox, completion entries. -/

namespace Sys2Proof.Machine

/-! ### Link, power state, configuration space (R475, R476, R487) -/

/-- What configuration space says of the port: Bus Master Enable, MSI-X enable and function mask (R475). -/
def State.configSpace (s : State) (bme msixEn fmask : Bool) : State :=
  ((s.wrB F.HST_LINK.BME bme).wrB F.HST_LINK.MSIX_EN msixEn).modHst (fun h => { h with fmask := fmask })

/-- Interrupts that were held are sent where nothing holds them any longer (R487). -/
def State.msixAll (s : State) : State := (List.range 4).foldl State.msixTry s

/-- PCIE_LINK_CHANGE (R476): the link comes up or goes down, retrains, or enters or leaves L1. Going down resets
configuration space. -/
def State.linkChange (s : State) (up : Bool) (speed width : Nat) (l1 bme msixEn fmask : Bool) : State :=
  if s.boot.sby = 5 then s
  else
    let was := s.on F.HST_LINK.UP
    let d3 := s.on F.HST_LINK.D3HOT
    let s := if up then (((s.wr F.HST_LINK.SPEED speed).wr F.HST_LINK.WIDTH width).wrB F.HST_LINK.L1 l1).configSpace bme msixEn fmask
      else (((((s.wr F.HST_LINK.SPEED 0).wr F.HST_LINK.WIDTH 0).wr F.HST_LINK.L1 0).wr F.HST_LINK.D3HOT 0).configSpace false false false).modHst
        (fun h => { h with cfg := {} })
    let s := s.wrB F.HST_LINK.UP up
    let s := if was = up then s else s.hstFlag F.HST_STATUS.LINK_CHG
    let s := if !up && d3 then s.hstFlag F.HST_STATUS.PM_CHG else s
    s.msixAll

/-- PM_CHANGE (R487): the function enters D3hot or returns to D0. On the return held entries are written first, in
order, then held interrupts are sent. -/
def State.pmChange (s : State) (d3 bme msixEn fmask : Bool) : State :=
  if !s.on F.HST_LINK.UP then s
  else
    let was := s.on F.HST_LINK.D3HOT
    let s := (s.wrB F.HST_LINK.D3HOT d3).configSpace bme msixEn fmask
    let s := if was = d3 then s else s.hstFlag F.HST_STATUS.PM_CHG
    if d3 then s else ((List.range 8).foldl (fun s _ => s.cqWrite) (if was then s.cqStuck else s)).msixAll

/-! ### BAR accesses (R429, R477, R478) -/

/-- The host's privilege (R429). -/
def State.hostPriv (s : State) : Nat := s.rd F.SEC_STATUS.MAXPRIV

/-- An access is refused: DENIED and SEC_DENY_CNT (R429). -/
def State.deny (s : State) : State := (s.secFlag F.SEC_STATUS.DENIED).incRc F.SEC_DENY_CNT.COUNT

/-- BAR0_BAD_ACCESS (R477). -/
def State.badAccess (s : State) (wr : Bool) : State :=
  let s := s.hstFlag F.HST_STATUS.BAD_ACCESS
  if wr then s else s.hostReply 2 []

/-- A write through BAR2. -/
def State.bar2Write (s : State) (a : Nat) (bs : List Byte) : State :=
  let k := 2 ^ 34 - a
  (s.postWrite 0x86 a (bs.take k)).postWrite 0x86 0 (bs.drop k)

/-- BAR2_ACCESS (R478): a read of `n` bytes or a write of `bs` at window offset `off`. -/
def State.bar2 (s : State) (wr : Bool) (off n : Nat) (bs : List Byte) : State :=
  let a := (s.rd F.HST_BAR2_WIN.BASE * 2 ^ 20 + off) % 2 ^ 34
  if wr then
    if s.hostPriv < 3 then s.deny
    else s.bar2Write a bs
  else if s.hostPriv < 1 then s.deny.hostReply 0 (List.replicate n 0xFF#8)
  else s.bar2Answer a n

/-! ### Flash and reset commands (R482, R483) -/

/-- The host may write offset `o` at privilege `p`: 0 none, 1 VIEW, 2 OPERATE, 3 MAINTAIN (R429, R516). -/
def hostWrites (p o : Nat) : Bool :=
  let slot := Nat.ble 0x50000 o && Nat.blt o 0x52000
  if p = 3 then true
  else if p = 2 then !(Nat.blt o 0x2000 || (Nat.ble 0x10000 o && Nat.blt o 0x14000) || o == 0xA000 ||
    (Nat.ble 0xA120 o && Nat.ble o 0xA128))
  else slot || o == 0x40020

/-- A host's write of the register at offset `o` under the privilege gate: `f` is its effect (R429, R477). -/
def State.hostWrite (s : State) (o : Nat) (f : State → State) : State :=
  if s.boot.sby = 5 then s else if hostWrites s.hostPriv o then f s else s.deny

/-- Flash and reset commands are accepted untagged: in a halted boot, or unprovisioned (R482). -/
def State.flashFree (s : State) : Bool := s.rd F.BOOT_STATUS.PHASE == 11 || !s.provisioned

/-- The boot is reading the flash (R482). -/
def State.flashBusy (s : State) : Bool :=
  decide (1 ≤ s.rd F.BOOT_STATUS.PHASE) && decide (s.rd F.BOOT_STATUS.PHASE ≤ 9)

/-- The range of flash that an erase or a write at offset `o` of `n` bytes may take (R482). -/
def State.flashFits (s : State) (erase : Bool) (o n : Nat) : Bool :=
  !s.flashBusy && decide (o + n ≤ s.flashSize) &&
    (if erase then o % 65536 == 0 && n % 65536 == 0 else n != 0 && decide (n ≤ 960))

/-- OFFSET and SIZE or LEN of a flash command's body. -/
def State.flashArgs (s : State) (k : Nat) : Nat × Nat :=
  let b := s.mbBytes k (s.mbBody k) 8
  (leAt b 0 4, leAt b 4 4)

/-- FLASH_ERASE, once accepted. -/
def State.flashErase (s : State) (k : Nat) (i : Option Nat) : State :=
  let (o, n) := s.flashArgs k
  if !s.flashFits true o n then s.respondTo k i [11#8]
  else
    let keep := fun (e : Nat × Byte) => decide (e.1 < o) || decide (o + n ≤ e.1)
    (s.modBoot (fun b => { b with flash := b.flash.filter keep })).respondTo k i [0#8, 0#8, 0#8, 0#8]

/-- FLASH_WRITE, once accepted. -/
def State.flashWrite (s : State) (k : Nat) (i : Option Nat) : State :=
  let (o, n) := s.flashArgs k
  if !s.flashFits false o n then s.respondTo k i [11#8]
  else
    let b := s.mbBytes k (s.mbBody k + 8) n
    let s := ((List.range n).zip b).foldl (fun (s : State) (e : Nat × Byte) => s.flashPut (o + e.1) e.2) s
    s.respondTo k i [0#8, 0#8, 0#8, 0#8]

/-- FLASH_READ, once accepted. -/
def State.flashRead (s : State) (k : Nat) (i : Option Nat) : State :=
  let (o, n) := s.flashArgs k
  if n == 0 || decide (960 < n) || decide (s.flashSize < o + n) then s.respondTo k i [11#8]
  else s.respondTo k i ([0#8, 0#8, 0#8, 0#8] ++ s.flashBytes o n)

/-- DEVICE_RESET, once accepted: the device resets 1 ms after its interrupt (R483). -/
def State.askReset (s : State) (k : Nat) (i : Option Nat) : State :=
  (s.modHst (fun h => { h with resetSlot := some k })).respondTo k i [0#8, 0#8, 0#8, 0#8]

/-- DEVICE_RESET_EFFECT (R483): every block except the host port acts as at PORST_N, and the boot begins. -/
def State.resetNow (s : State) : State :=
  match s.hst.resetAt with
  | none => s
  | some t => ((s.reach t).deviceReset).flashReset.banksCheck.bootStart

/-- The command in slot `k` would be accepted by the checks of R433, R480 and R482, privilege `priv`. -/
def State.mbPasses (s : State) (k priv : Nat) : Bool :=
  decide (s.mbLen k ≤ 1008) && (if s.mbTagged k then (match s.tagCheck k priv with
    | .inr _ => true
    | .inl _ => false) else s.flashFree)

/-- RAIL_LOSS (R491): HBM and SRAM are lost; the OTP bit under way may be set or not, and the range of an accepted flash
erase or write under way holds anything. -/
def State.railLoss (s : State) : State :=
  let (v, s) := s.showDue.free
  let s := match s.sec.ops with
    | o :: _ => match s.otpNext o with
      | some i => if v % 2 = 1 then s.otpSet o.item i else s
      | none => s
    | [] => s
  let s := match s.mbNext with
    | some k =>
      let (o, n) := s.flashArgs k
      if (s.mbCode k = 0x30 ∨ s.mbCode k = 0x31) ∧ s.mbPasses k 3 ∧ s.flashFits (s.mbCode k = 0x30) o n then
        let (bs, s) := s.freeBytes n
        ((List.range n).zip bs).foldl (fun (s : State) (e : Nat × Byte) => s.flashPut (o + e.1) e.2) s
      else s
    | none => s
  let s := { s with mem := [], memc := {} }
  s.powerReset

/-! ### Firmware commands (R484) -/

/-- The codes the security core executes (R430, R482). -/
def coreCode (c : Nat) : Bool :=
  [1, 2, 0x10, 0x11, 0x12, 0x13, 0x14, 0x15, 0x20, 0x30, 0x31, 0x32, 0x33].contains c

/-- The privilege of a firmware code (R482). -/
def fwPriv (c : Nat) : Nat := if c < 0x50 then 1 else if c < 0x60 then 2 else 3

/-- FW_COMMAND (R480, R482, R484): a firmware code, or a code that nothing knows. -/
def State.fwTake (s : State) (k : Nat) : State :=
  let c := s.mbCode k
  if s.mbNext ≠ some k ∨ coreCode c then s
  else if 1008 < s.mbLen k then s.mbDone k 1 []
  else if c < 0x40 ∨ 0x7F < c ∨ !s.on F.HST_FW_CTRL.READY then s.mbDone k 2 []
  else s.mbTake k (fun _ => true) true (fwPriv c) (fun i s =>
    let j := i.getD 0
    let w := k + 16 * s.rd (F.SEC_SESSs_CTRL.PRIV j) + 64 * j + 256 * c + 65536 * (s.mbLen k - 32)
    ((s.setReg R.HST_FW_CMD w).hstFlag F.HST_STATUS.FW_CMD).modHst (fun h => { h with fw := true }))

/-- A write of HST_FW_DONE (R484). -/
def State.fwDone (s : State) (v : Nat) : State :=
  match s.hst.exec, s.hst.fw with
  | some k, true =>
    let n := min (bitsOf v 0 10) (if s.mbTagged k then 976 else 1008)
    s.respondTo k s.sec.busy (s.mbBytes k (s.mbBody k) n)
  | _, _ => s

/-! ### Meanings -/

/-- PCIE_LINK_CHANGE (R476). -/
def execPcieLinkChange (up : Bool) (speed width : Nat) (l1 bme msixEn fmask : Bool) (s : State) :
    Host.Outcome State Fault Refusal := done (s.linkChange up speed width l1 bme msixEn fmask)

/-- PM_CHANGE (R487). -/
def execPmChange (d3 bme msixEn fmask : Bool) (s : State) : Host.Outcome State Fault Refusal :=
  done (s.pmChange d3 bme msixEn fmask)

/-- BAR0_BAD_ACCESS (R477). -/
def execBar0BadAccess (wr : Bool) (s : State) : Host.Outcome State Fault Refusal := done (s.badAccess wr)

/-- BAR2_ACCESS (R478). -/
def execBar2Access (wr : Bool) (off n : Nat) (bytes : List Nat) (s : State) : Host.Outcome State Fault Refusal :=
  done (s.bar2 wr off n (bytes.map (BitVec.ofNat 8)))

/-- MB_DOORBELL (R481). -/
def execMbDoorbell (v : Nat) (s : State) : Host.Outcome State Fault Refusal := done (s.doorbell v)

/-- FLASH_ERASE (R482): the command in mailbox slot `k`. -/
def execFlashErase (k : Nat) (s : State) : Host.Outcome State Fault Refusal :=
  done (s.showDue.mbTake k (· == 0x30) (!s.flashFree) 3 (fun i s => s.flashErase k i)).sessSettle

/-- FLASH_WRITE (R482). -/
def execFlashWrite (k : Nat) (s : State) : Host.Outcome State Fault Refusal :=
  done (s.showDue.mbTake k (· == 0x31) (!s.flashFree) 3 (fun i s => s.flashWrite k i)).sessSettle

/-- FLASH_READ (R482). -/
def execFlashRead (k : Nat) (s : State) : Host.Outcome State Fault Refusal :=
  done (s.mbTake k (· == 0x32) (!s.flashFree) 1 (fun i s => s.flashRead k i)).sessSettle

/-- DEVICE_RESET (R483). -/
def execDeviceReset (k : Nat) (s : State) : Host.Outcome State Fault Refusal :=
  done (s.mbTake k (· == 0x33) (!s.flashFree) 3 (fun i s => s.askReset k i)).sessSettle

/-- DEVICE_RESET_EFFECT (R483). -/
def execDeviceResetEffect (s : State) : Host.Outcome State Fault Refusal := done s.resetNow

/-- FW_COMMAND (R484). -/
def execFwCommand (k : Nat) (s : State) : Host.Outcome State Fault Refusal := done (s.fwTake k).sessSettle

/-- FW_DONE (R484). -/
def execFwDone (v : Nat) (s : State) : Host.Outcome State Fault Refusal := done (s.fwDone v).sessSettle

/-- CQ_ENTRY_WRITE (R485). -/
def execCqEntryWrite (s : State) : Host.Outcome State Fault Refusal := done s.cqWrite

/-- CQ_HEAD_WRITE (R485), by the host, under the privilege gate (R429). -/
def execCqHeadWrite (q v : Nat) (s : State) : Host.Outcome State Fault Refusal :=
  done (s.hostWrite (R.HST_CQq_HEAD q) (fun s => s.cqHeadWrite q v))

/-- CQ_MOD_TIMER (R486). -/
def execCqModTimer (q : Nat) (s : State) : Host.Outcome State Fault Refusal := done (s.cqTimer q)

/-- MSIX_UNMASK (R487): the host clears the mask bit of a vector, under the privilege gate (R429). -/
def execMsixUnmask (v : Nat) (s : State) : Host.Outcome State Fault Refusal :=
  done (s.hostWrite (0x60000 + 16 * v + 12) (fun s => s.msixWrite (4 * v + 3) 0))

/-- RAIL_LOSS (R491). -/
def execRailLoss (s : State) : Host.Outcome State Fault Refusal := done s.railLoss

end Sys2Proof.Machine
end

