-- ==== Sys2Proof/Machine/RegRead.lean ====
section
/-! DEFINITION. Reads of register space (R13-R18, R429, R515): what a word reads as, and what the read does. -/

namespace Sys2Proof.Machine

/-- `o` is one of `count` registers `stride` apart from `base`: its number. -/
def regIx (base stride count o : Nat) : Option Nat :=
  if Nat.ble base o && (o - base) % stride == 0 && Nat.blt ((o - base) / stride) count then some ((o - base) / stride)
  else none

/-- A read by access code (R17): WO bits read 0, RC fields are cleared by it; an unassigned offset reads 0 (R14). An RC
field that hardware updates in the same cycle reads as before the update and then holds the update (R18). -/
def State.readByCode (s : State) (o : Nat) : Nat × State :=
  match specAt o with
  | none => (0, s)
  | some r =>
    let v := s.reg o &&& (0xFFFFFFFF ^^^ r.wo)
    if r.rc = 0 then (v, s)
    else
      let upd := s.cycNow.rc.filter (fun e => e.1 / 32 == o)
      let s1 := s.setReg o (s.reg o &&& (0xFFFFFFFF ^^^ r.rc))
      upd.foldl (fun (a : Nat × State) e =>
        let (w, old, ev) := e.2
        (putBits a.1 (e.1 % 32) w old,
          (a.2.setReg o (putBits (a.2.reg o) (e.1 % 32) w (min (2 ^ w - 1) ev))).modCyc (fun c =>
            { c with rc := c.rc.put e.1 (w, 0, ev) }))) (v, s1)

/-- Reads of the FLT, IRQ, SLC, GPIO and MEM blocks that are not plain. -/
def State.readSys (s : State) (req o : Nat) : Option (Nat × State) :=
  if o = R.FLT_STATUS then some (s.fltStatus, s)
  else if o = R.FLT_LOG_ENTRY then some (s.fltLogEntry, s)
  else if o = R.FLT_LOG_FRAME then some (s.fltLogFrame, s)
  else if o = R.MEM_LOG_ADDR_LO then some (s.memLogAddr % 2 ^ 32, s)
  else if o = R.MEM_LOG_ADDR_HI then some (s.memLogAddr / 2 ^ 32, s)
  else if o = R.MEM_LOG_INFO then some (s.memLogInfo, s)
  else match regIx (R.IRQ_CLAIMc 0) 0x40 4 o with
  | some c => some (if req = 0x20 + c then s.irqClaim c else (s.irqPeek c, s))
  | none => match regIx (R.IRQ_STATc 0) 0x40 4 o with
  | some c => some (s.irqStat c, s)
  | none => match regIx (R.IRQ_PENDk 0) 4 16 o with
  | some k => some (s.irqPend k, s)
  | none => match regIx (R.SLC_CELLk_STAT 0) 0x10 32 o with
  | some k => some (putBits (s.reg o) 0 1 (b2n (s.slc.q.testBit k)), s)
  | none => match regIx (R.GPIO_OUT_SETb 0) 0x40 6 o with
  | some b => some (s.rd (F.GPIO_OUTb.OUT b), s)
  | none => match regIx (R.GPIO_OUT_CLRb 0) 0x40 6 o with
  | some b => some (s.rd (F.GPIO_OUTb.OUT b), s)
  | none => none

/-- DEVICE_ID, public key, slot hashes, measurements and idle times of the security core (R420, R434, R436). -/
def State.readSec (s : State) (o : Nat) : Option Nat :=
  if o = R.SEC_DEVID_LO then some (bitsOf s.sec.devId 0 32)
  else if o = R.SEC_DEVID_HI then some (bitsOf s.sec.devId 32 32)
  else if Nat.ble 0x1100 o && Nat.blt o 0x1160 then
    some (leVal ((List.range 4).map (fun i => BitVec.ofNat 8 (bitsOf s.sec.devPub (8 * (95 - (o - 0x1100 + i))) 8))))
  else if Nat.ble 0x1200 o && Nat.blt o 0x1300 && decide ((o - 0x1200) % 0x40 < 0x30) then
    let h := s.otpHash ((o - 0x1200) / 0x40)
    some (leVal ((List.range 4).map (fun i => BitVec.ofNat 8 (bitsOf h (8 * (47 - ((o - 0x1200) % 0x40 + i))) 8))))
  else if Nat.ble 0x1800 o && Nat.blt o 0x1900 && decide ((o - 0x1800) % 0x40 < 0x30) then
    let h := Tbl.get 0 s.sec.meas ((o - 0x1800) / 0x40)
    some (leVal ((List.range 4).map (fun i => BitVec.ofNat 8 (bitsOf h (8 * (47 - ((o - 0x1800) % 0x40 + i))) 8))))
  else match regIx (R.SEC_SESSs_IDLE 0) 0x10 4 o with
  | some i =>
    if s.on (F.SEC_SESSs_CTRL.OPEN i) && s.sec.busy != some i
    then some ((s.now - Tbl.get 0 s.sec.idleT i) / (1000 * msT)) else some 0
  | none => none

/-- Reads of the CPUn blocks (R349): general and system registers only while halted. -/
def State.readCpu (s : State) (o : Nat) : Option (Nat × State) :=
  if !(Nat.ble 0x10000 o && Nat.blt o 0x14000) then none
  else
    let c := (o - 0x10000) / 0x1000
    let r := o % 0x1000
    let halted := s.on (F.CPUn_STATUS.HALTED c)
    if r = 0x18 then some ((s.coreS c).pc, s)
    else if r = 0x20 then some (if halted then s.srRead c (s.rd (F.CPUn_DBG_SR_SEL.SR c)) (cclkAt s.now) else (0, s))
    else if Nat.ble 0x80 r && Nat.blt r 0x100 && r % 4 == 0 then
      some (if halted then s.gpr c ((r - 0x80) / 4) else 0, s)
    else none

/-- Reads of timers, Clove engines and sound that are not plain. -/
def State.readUnit (s : State) (req o : Nat) : Option (Nat × State) :=
  if Nat.ble 0x30000 o && Nat.blt o 0x40000 then
    let n := (o - 0x30000) / 0x1000
    let t := s.tmrS n
    match o % 0x1000 with
    | 0x08 => some (s.countRead n)
    | 0x0C => some (t.countLatch, s)
    | 0x40 => some (s.caprRead n)
    | 0x44 => some (t.caprLatch, s)
    | 0x48 => some (s.capfRead n)
    | 0x4C => some (t.capfLatch, s)
    | _ => none
  else if Nat.ble 0x20000 o && Nat.blt o 0x30000 && o % 0x1000 == 0x1C then
    some (s.clvRx ((o - 0x20000) / 0x1000) (Nat.ble 0x20 req && Nat.blt req 0x24))
  else if o = R.AUD_SCNT_LO then some s.scntRead
  else if o = R.AUD_SCNT_HI then some (s.aud.scntHi, s)
  else match regIx (R.AUD_Vv_POS 0) 0x40 384 o with
  | some v => some ((s.voiceS v).pos / 65536 % 2 ^ 32, s)
  | none => none

/-- Reads of the picture blocks that are not plain. -/
def State.readPicture (s : State) (o : Nat) : Option (Nat × State) :=
  if o = R.ENG_FRAME_CNT_LO then some s.frameCntRead
  else if Nat.ble 0x9400 o && Nat.blt o 0x9500 then some (s.bltTo.bltSettleAll.readByCode o)
  else if Nat.ble 0x180000 o && Nat.blt o 0x200000 && o % 4 == 0 then
    some (s.objRead ((o - 0x180000) / 32) ((o - 0x180000) / 4 % 8), s)
  else if Nat.ble 0x300000 o && Nat.blt o 0x410000 then
    let n := (o - 0x300000) / 0x10000
    match o % 0x10000 with
    | 0x14 => some (s.creditsRead n, s)
    | 0x108 => some (s.fsStatus n, s)
    | 0x84 => some (s.palData0Read n)
    | 0x88 => some (s.palData1Read n)
    | _ => none
  else if Nat.ble 0x600000 o && Nat.blt o 0x780000 then
    let p := (o - 0x600000) / 0x10000
    match o % 0x10000 with
    | 0x808 => some (s.lutData0Read p)
    | 0x80C => some (s.lutData1Read p)
    | _ => none
  else match regIx (R.PLK_TILE5 0) 0x20 1536 o with
  | some k => some (putBits (s.reg o) 16 16 (s.tileAge k), s)
  | none => none

/-- Reads of the mailbox and the MSI-X structures (R475, R480, R487). -/
def State.readHst (s : State) (o : Nat) : Option Nat :=
  if Nat.ble 0x50000 o && Nat.blt o 0x52000 && o % 4 == 0 then some (s.mbWord ((o - 0x50000) / 4))
  else if Nat.ble 0x60000 o && Nat.blt o 0x60400 && o % 4 == 0 then some (s.msixWord ((o - 0x60000) / 4))
  else if o = 0x61000 ∨ o = 0x61004 then
    let b := (o - 0x61000) * 8
    some ((List.range 32).foldl (fun a i => if Tbl.get false s.hst.pba (b + i) then a + 2 ^ i else a) 0)
  else none

/-- What a read of the word at register-space offset `o` by `req` returns and does. -/
def State.readAt (s : State) (req o : Nat) : Nat × State :=
  let s := if Nat.blt o 0x1000 then s.showDue
    else if Nat.ble 0x3000 o && Nat.blt o 0x6000 then s.slcUpTo s.now
    else if Nat.ble 0x6000 o && Nat.blt o 0x9000 then s.pinsDue
    else if Nat.ble 0x80000 o && Nat.blt o 0x100000 then s.recoverDue
    else if Nat.ble 0xD000 o && Nat.blt o 0xE000 then s.dmaDue ((o - 0xD000) / 0x40)
    else if Nat.ble 0x20000 o && Nat.blt o 0x30000 then s.clvFollow ((o - 0x20000) / 0x1000)
    else if Nat.ble 0x30000 o && Nat.blt o 0x40000 then s.tmrFollow ((o - 0x30000) / 0x1000) else s
  match s.readSys req o with
  | some r => r
  | none => match s.readSec o with
  | some v => (v, s)
  | none => match s.readCpu o with
  | some r => r
  | none => match s.readUnit req o with
  | some r => r
  | none => match s.readPicture o with
  | some r => r
  | none => match s.readHst o with
  | some v => (v, s)
  | none => s.readByCode o

/-- Offsets the host reads below VIEW (R429, R516). -/
def hostReads (o : Nat) : Bool :=
  Nat.blt o 0x2000 || o == 0x40000 || o == 0x40004 || o == 0x40024 || (Nat.ble 0x50000 o && Nat.blt o 0x52000)

/-- A read of the aligned word at register-space offset `o` by `req` (R13-R18, R429, R515). -/
def State.regRead (s : State) (req o : Nat) : Nat × State :=
  if s.boot.sby = 5 then (0, s)
  else if req = 0x86 && s.hostPriv == 0 && !hostReads o then (0xFFFFFFFF, s.deny)
  else s.readAt req o

end Sys2Proof.Machine
end

