-- ==== Sys2Proof/Machine/Qc32.lean ====
section
/-! DEFINITION. QC32 (R331-R344): one function per instruction, on core `c` and the instruction word `w`. The core's
`next` is the cycle at which the instruction starts; each function adds the cycles it takes. An instruction that waits
leaves `waiting` set; the same function runs again when what it waits for may have come. -/

namespace Sys2Proof.Machine

/-! ### Arithmetic -/

/-- An instruction that writes rd with `v` in `n` cycles. -/
def State.qSet (s : State) (c w v n : Nat) : State := (s.setGpr c (qRd w) v).coreNext c n

def State.qAdd (s : State) (c w : Nat) : State := s.qSet c w (qAddV (s.gpr c (qRa w)) (s.gpr c (qRb w))) 1
def State.qSub (s : State) (c w : Nat) : State := s.qSet c w (qSubV (s.gpr c (qRa w)) (s.gpr c (qRb w))) 1
def State.qAnd (s : State) (c w : Nat) : State := s.qSet c w (s.gpr c (qRa w) &&& s.gpr c (qRb w)) 1
def State.qOr (s : State) (c w : Nat) : State := s.qSet c w (s.gpr c (qRa w) ||| s.gpr c (qRb w)) 1
def State.qXor (s : State) (c w : Nat) : State := s.qSet c w (s.gpr c (qRa w) ^^^ s.gpr c (qRb w)) 1
def State.qNor (s : State) (c w : Nat) : State := s.qSet c w (qNorV (s.gpr c (qRa w)) (s.gpr c (qRb w))) 1
def State.qSlt (s : State) (c w : Nat) : State := s.qSet c w (qSltV (s.gpr c (qRa w)) (s.gpr c (qRb w))) 1
def State.qSltu (s : State) (c w : Nat) : State := s.qSet c w (qSltuV (s.gpr c (qRa w)) (s.gpr c (qRb w))) 1
def State.qSll (s : State) (c w : Nat) : State := s.qSet c w (qSllV (s.gpr c (qRa w)) (s.gpr c (qRb w))) 1
def State.qSrl (s : State) (c w : Nat) : State := s.qSet c w (qSrlV (s.gpr c (qRa w)) (s.gpr c (qRb w))) 1
def State.qSra (s : State) (c w : Nat) : State := s.qSet c w (qSraV (s.gpr c (qRa w)) (s.gpr c (qRb w))) 1
def State.qSlli (s : State) (c w : Nat) : State := s.qSet c w (qSllV (s.gpr c (qRa w)) (qRb w)) 1
def State.qSrli (s : State) (c w : Nat) : State := s.qSet c w (qSrlV (s.gpr c (qRa w)) (qRb w)) 1
def State.qSrai (s : State) (c w : Nat) : State := s.qSet c w (qSraV (s.gpr c (qRa w)) (qRb w)) 1
def State.qMin (s : State) (c w : Nat) : State := s.qSet c w (qMinV (s.gpr c (qRa w)) (s.gpr c (qRb w))) 1
def State.qMax (s : State) (c w : Nat) : State := s.qSet c w (qMaxV (s.gpr c (qRa w)) (s.gpr c (qRb w))) 1
def State.qMinu (s : State) (c w : Nat) : State := s.qSet c w (min (s.gpr c (qRa w)) (s.gpr c (qRb w))) 1
def State.qMaxu (s : State) (c w : Nat) : State := s.qSet c w (max (s.gpr c (qRa w)) (s.gpr c (qRb w))) 1
def State.qClz (s : State) (c w : Nat) : State := s.qSet c w (qClzV (s.gpr c (qRa w))) 1
def State.qMul (s : State) (c w : Nat) : State := s.qSet c w (qMulV (s.gpr c (qRa w)) (s.gpr c (qRb w))) 2
def State.qMulh (s : State) (c w : Nat) : State := s.qSet c w (qMulhV (s.gpr c (qRa w)) (s.gpr c (qRb w))) 2
def State.qMulhu (s : State) (c w : Nat) : State := s.qSet c w (qMulhuV (s.gpr c (qRa w)) (s.gpr c (qRb w))) 2
def State.qDiv (s : State) (c w : Nat) : State := s.qSet c w (qDivV (s.gpr c (qRa w)) (s.gpr c (qRb w))) 20
def State.qDivu (s : State) (c w : Nat) : State := s.qSet c w (qDivuV (s.gpr c (qRa w)) (s.gpr c (qRb w))) 20
def State.qRem (s : State) (c w : Nat) : State := s.qSet c w (qRemV (s.gpr c (qRa w)) (s.gpr c (qRb w))) 20
def State.qRemu (s : State) (c w : Nat) : State := s.qSet c w (qRemuV (s.gpr c (qRa w)) (s.gpr c (qRb w))) 20
def State.qAddi (s : State) (c w : Nat) : State := s.qSet c w (qAddV (s.gpr c (qRa w)) (qSimm w)) 1
def State.qSlti (s : State) (c w : Nat) : State := s.qSet c w (qSltV (s.gpr c (qRa w)) (qSimm w)) 1
def State.qSltiu (s : State) (c w : Nat) : State := s.qSet c w (qSltuV (s.gpr c (qRa w)) (qSimm w)) 1
def State.qAndi (s : State) (c w : Nat) : State := s.qSet c w (s.gpr c (qRa w) &&& qImm w) 1
def State.qOri (s : State) (c w : Nat) : State := s.qSet c w (s.gpr c (qRa w) ||| qImm w) 1
def State.qXori (s : State) (c w : Nat) : State := s.qSet c w (s.gpr c (qRa w) ^^^ qImm w) 1
def State.qLui (s : State) (c w : Nat) : State := s.qSet c w (qImm w * 65536) 1

/-! ### Transfers (R333, R334) -/

/-- A branch: 3 cycles whether it is taken or not, and both prefetched instructions are discarded. -/
def State.qBranch (s : State) (c : Nat) (taken : Bool) (target : Nat) : State :=
  s.coreJump c (if taken then target else ((s.coreS c).pc + 4) % 2 ^ 32) 3

/-- A branch of format I on a comparison of ra with rd. -/
def State.qBranchI (s : State) (c w : Nat) (p : Nat → Nat → Bool) : State :=
  s.qBranch c (p (s.gpr c (qRa w)) (s.gpr c (qRd w))) (qTargetI (s.coreS c).pc w)

/-- A branch of format J on ra. -/
def State.qBranchJ (s : State) (c w : Nat) (p : Nat → Bool) : State :=
  s.qBranch c (p (s.gpr c (qJa w))) (qTargetJ (s.coreS c).pc w)

def State.qBeq (s : State) (c w : Nat) : State := s.qBranchI c w (fun a b => a == b)
def State.qBne (s : State) (c w : Nat) : State := s.qBranchI c w (fun a b => a != b)
def State.qBlt (s : State) (c w : Nat) : State := s.qBranchI c w (fun a b => decide (s32 a < s32 b))
def State.qBge (s : State) (c w : Nat) : State := s.qBranchI c w (fun a b => decide (s32 b ≤ s32 a))
def State.qBltu (s : State) (c w : Nat) : State := s.qBranchI c w (fun a b => decide (a < b))
def State.qBgeu (s : State) (c w : Nat) : State := s.qBranchI c w (fun a b => decide (b ≤ a))
def State.qBeqz (s : State) (c w : Nat) : State := s.qBranchJ c w (fun a => a == 0)
def State.qBnez (s : State) (c w : Nat) : State := s.qBranchJ c w (fun a => a != 0)
def State.qBltz (s : State) (c w : Nat) : State := s.qBranchJ c w (fun a => decide (s32 a < 0))
def State.qBgez (s : State) (c w : Nat) : State := s.qBranchJ c w (fun a => decide (0 ≤ s32 a))
def State.qJmp (s : State) (c w : Nat) : State := s.qBranch c true (qTargetJ (s.coreS c).pc w)

/-- JR: a misaligned target is an ALIGN exception (R345). -/
def State.qJr (s : State) (c w : Nat) : State :=
  let a := s.gpr c (qRa w)
  if a % 4 ≠ 0 then s.qExc c 2 (some a) else s.coreJump c a 3

/-- A call to `target` (R334): PC + 4 is pushed; at depth 16 it traps, or wraps with RS_WRAP = 1. -/
def State.qCallTo (s : State) (c target : Nat) : State :=
  let x := s.coreS c
  let ret := (x.pc + 4) % 2 ^ 32
  if x.stack.length < 16 then (s.modCore c (fun x => { x with stack := x.stack ++ [ret] })).coreJump c target 3
  else if x.status.testBit 3 then
    (s.modCore c (fun x => { x with stack := x.stack.drop 1 ++ [ret], status := x.status ||| 16 })).coreJump c target 3
  else s.qExc c 7 none

def State.qCall (s : State) (c w : Nat) : State := s.qCallTo c (qTargetJ (s.coreS c).pc w)

/-- CALLR: the alignment of the target is judged first (DEDUCED, log 60). -/
def State.qCallr (s : State) (c w : Nat) : State :=
  let a := s.gpr c (qRa w)
  if a % 4 ≠ 0 then s.qExc c 2 (some a) else s.qCallTo c a

/-- RET: the newest return address is popped; at depth 0 it traps, whatever RS_WRAP holds (R334). -/
def State.qRet (s : State) (c _w : Nat) : State :=
  match (s.coreS c).stack.getLast? with
  | none => s.qExc c 8 none
  | some a => (s.modCore c (fun x => { x with stack := x.stack.dropLast })).coreJump c a 3

/-! ### Memory (R335-R339) -/

/-- The instruction waits from its start cycle on. -/
def State.qWait (s : State) (c w : Nat) : State := s.modCore c (fun x => { x with waiting := some (w, x.next) })

/-- Byte ranges of core addresses overlap. -/
def overlaps (a n b m : Nat) : Bool := decide (a < b + m) && decide (b < a + n)

/-- A load of part (`a`, `n`) must wait: for posted stores that it overlaps, or in register space for all (R339). -/
def State.loadHeld (s : State) (c : Nat) (p : Nat × Nat) : Bool :=
  let sb := (s.coreS c).sb
  sb.any (fun e => overlaps p.1 p.2 e.addr e.bytes.length) ||
  (match s.coreMap c p.1 with
   | .fabric a => (match regionOf s.gib a with
     | .regSpace _ => sb != []
     | _ => false)
   | _ => false)

/-- A read of `n` bytes at core address `a` through the core map; `whole` says that the access is an aligned word,
which alone register space accepts (R336). A fabric access adds its wait (R338). -/
def State.coreRead (s : State) (c a n : Nat) (whole : Bool) : BusRes × State :=
  match s.coreMap c a with
  | .none => (.decode, s.decodeErr a (0x20 + c))
  | .own x => s.busRead (0x20 + c) x n
  | .fabric x => match regionOf s.gib x with
    | .regSpace o =>
      if whole then
        let (v, s) := s.regRead (0x20 + c) o
        (.ok (leBytes 4 v), s.coreWait c 24)
      else (.decode, (s.decodeErr x (0x20 + c)).coreWait c 24)
    | _ => match s.busRead (0x20 + c) x n with
      | (.wait, s) => (.wait, s)
      | (r, s) =>
        let (t, s) := s.loadWait x
        (r, s.coreWait c t)

/-- A part of a split access is done, `bs` read so far: the next part is made when the row runs again, so that another
requester may see or change memory between them (R335). -/
def State.qSplit (s : State) (c w : Nat) (bs : List Byte) : State :=
  s.modCore c (fun x => { x with waiting := some (w, x.next), prog := x.prog + 1, between := true, part := bs })

/-- The next part of a load of `n` bytes at `a` (R335-R339): `k` takes the value once all are read; it waits, or takes
LOAD_BUS. -/
def State.qLoadAt (s : State) (c w a n : Nat) (k : Nat → State → State) : State :=
  let ps := qParts a n
  let x := s.coreS c
  match ps.drop x.prog with
  | [] => s
  | p :: rest =>
    if ps.any (s.loadHeld c) then s.qWait c w
    else match s.coreRead c p.1 p.2 (n == 4 && a % 4 == 0) with
      | (.ok bs, s') => if rest = [] then k (leVal (x.part ++ bs)) s' else s'.qSplit c w (x.part ++ bs)
      | (.wait, _) => s.qWait c w
      | (_, s') => s'.qExc c 4 (some a)

/-- LD and LDU. -/
def State.qLoad (s : State) (c w : Nat) (signed : Bool) : State :=
  s.qLoadAt c w (qEa (s.gpr c (qRa w)) w) (qSize w) (fun v s => s.qSet c w (qExtend signed (qSize w) v) 2)

def State.qLd (s : State) (c w : Nat) : State := s.qLoad c w true
def State.qLdu (s : State) (c w : Nat) : State := s.qLoad c w false

/-- A store of bytes at core address `a`: local memory is written, anything else is posted (R337). `none`: the store
buffer is full. -/
def State.coreStore (s : State) (c a : Nat) (bs : List Byte) : Option State :=
  let post := fun (sys : Option Nat) =>
    if 4 ≤ (s.coreS c).sb.length then none
    else some (s.modCore c (fun x => { x with
      sb := x.sb ++ [({ addr := a, sys := sys, bytes := bs, issued := if x.sb = [] then some (x.next + 2) else none } : SbEntry)] }))
  match s.coreMap c a with
  | .own x => some ((s.sramWrite (0x20 + c) 0 x bs).storeSent c x bs.length a)
  | .fabric x => post (some x)
  | .none => post none

/-- The parts of a store from the first one not yet done; true: all are done (R335). -/
def State.coreStores (s : State) (c : Nat) : List (Nat × List Byte) → Bool × State
  | [] => (true, s)
  | p :: t => match s.coreStore c p.1 p.2 with
    | none => (false, s)
    | some s => State.coreStores (s.modCore c (fun x => { x with prog := x.prog + 1 })) c t

/-- Stores of `bs` cut into the given parts; `k` runs when all are done, else the instruction waits. -/
def State.qStoreAt (s : State) (c w : Nat) (l : List (Nat × List Byte)) (k : State → State) : State :=
  match s.coreStores c (l.drop (s.coreS c).prog) with
  | (true, s) => k s
  | (false, s) => s.qWait c w

/-- Bytes of a store as its parts. -/
def storeParts (a n v : Nat) : List (Nat × List Byte) :=
  let f := if a % n = 0 then n else n - a % n
  (qParts a n).map (fun p => (p.1, if p.1 = a then (leBytes n v).take f else (leBytes n v).drop f))

/-- ST: one part at a time (R335). -/
def State.qSt (s : State) (c w : Nat) : State :=
  match (storeParts (qEa (s.gpr c (qRa w)) w) (qSize w) (s.gpr c (qRd w))).drop (s.coreS c).prog with
  | [] => s
  | p :: rest => match s.coreStore c p.1 p.2 with
    | none => s.qWait c w
    | some s => if rest = [] then s.coreNext c 2 else s.qSplit c w []

/-! ### Atomics (R340, R341) -/

/-- Where LR, SC and TAS are valid: the local SRAMs, locally or through 0x1400_0000, and shared SRAM. -/
def State.atomicAt (s : State) (c a : Nat) : Option (Nat × Bool) :=
  match s.coreMap c a with
  | .own x => some (x, false)
  | .fabric x => match regionOf s.gib x with
    | .sram p => if p = 0 ∨ a < 0x80000000 then some (x, true) else none
    | _ => none
  | .none => none

/-- What LR, SC and TAS share: alignment, validity, the empty store buffer. -/
def State.qAtomic (s : State) (c w : Nat) (k : Nat → Nat → Bool → State → State) : State :=
  let a := qEa (s.gpr c (qRa w)) w
  if a % 4 ≠ 0 then s.qExc c 2 (some a)
  else match s.atomicAt c a with
    | none => s.qExc c 6 (some a)
    | some (x, fab) => if (s.coreS c).sb ≠ [] then s.qWait c w else k a x fab s

/-- The port on which SC and TAS reach the word at `x`: the fabric's, or the core's own (R327). -/
def State.atomicPort (s : State) (x : Nat) (fab : Bool) : Nat :=
  match fab, regionOf s.gib x with
  | true, .sram p => sramPort p
  | _, _ => 0

/-- What SC and TAS write to the word at `x`. -/
def State.atomicPut (s : State) (c x : Nat) (fab : Bool) (a v : Nat) : State :=
  (s.sramWrite (0x20 + c) (s.atomicPort x fab) x (leBytes 4 v)).storeSent c x 4 a

/-- The record of a store-conditional of core `c` to `x`, before it writes (R341). -/
def State.scNote (s : State) (c x : Nat) (fab : Bool) (rd : Nat) : State :=
  let r : ScRec := { core := c, cyc := cclkAt s.now, addr := x, port := s.atomicPort x fab, rd := rd
                     old := (List.range 4).map (fun i => s.lastByte (x + i)) }
  { s with memc := { s.memc with sc := r :: s.memc.sc.filter (fun e => e.cyc == cclkAt s.now) } }

/-- LR. -/
def State.qLr (s : State) (c w : Nat) : State :=
  s.qAtomic c w (fun a x fab s =>
    match s.busRead (0x20 + c) x 4 with
    | (.ok bs, s) =>
      let s := if fab then s.coreWait c (s.loadWait x).1 else s
      ({ s with memc := { s.memc with resv := s.memc.resv.put c (x / 8 * 8) } }).qSet c w (leVal bs) 2
    | (_, s) => s.qExc c 4 (some a))

/-- SC: it succeeds only with a reservation that covers its address; either way the reservation is cleared. An
uncorrectable word, which its write could not be merged into, is a precise bus error (R270, R278, R345). -/
def State.qSc (s : State) (c w : Nat) : State :=
  s.qAtomic c w (fun a x fab s =>
    let held := Tbl.find s.memc.resv c == some (x / 8 * 8)
    if held then
      match s.readWord8 (x / 8 * 8) (0x20 + c) with
      | (none, s) => s.qExc c 4 (some a)
      | (some _, _) =>
        let s := (s.scNote c x fab (qRd w)).atomicPut c x fab a (s.gpr c (qRd w))
        ((s.coreWait c (if fab then s.storeWait (some x) else 0)).dropResv c).qSet c w 0 2
    else (s.dropResv c).qSet c w 1 2)

/-- TAS. -/
def State.qTas (s : State) (c w : Nat) : State :=
  s.qAtomic c w (fun a x fab s =>
    match s.busRead (0x20 + c) x 4 with
    | (.ok bs, s) =>
      let s := s.atomicPut c x fab a 1
      (s.coreWait c (if fab then (s.loadWait x).1 + s.storeWait (some x) else 0)).qSet c w (leVal bs) 3
    | (_, s) => s.qExc c 4 (some a))

/-! ### System instructions -/

/-- MFS. -/
def State.qMfs (s : State) (c w : Nat) : State :=
  let (v, s) := s.srRead c (qSr w) (s.coreS c).next
  s.qSet c w v 1

/-- MTS, after the store buffer is empty (R339). -/
def State.qMts (s : State) (c w : Nat) : State :=
  if (s.coreS c).sb ≠ [] then s.qWait c w else (s.srWrite c (qSr w) (s.gpr c (qRa w))).coreNext c 2

/-- ERET (R345). -/
def State.qEret (s : State) (c _w : Nat) : State :=
  let s := s.modCore c (fun x => { x with status := (x.status &&& 0x1A) + bitsOf x.status 1 1 })
  (s.dropResv c).coreJump c (s.coreS c).epc 3

/-- TRAP: a TRAP exception with code SR; its EPC is the next instruction (R345). -/
def State.qTrap (s : State) (c w : Nat) : State :=
  let next := ((s.coreS c).pc + 4) % 2 ^ 32
  (s.modCore c (fun x => { x with next := x.next + 1 })).coreExcept c 9 next none (qSr w)

/-- BRK: a debug halt, or a BREAK exception (R349). -/
def State.qBrk (s : State) (c _w : Nat) : State :=
  if s.on (F.CPUn_DBG_CTRL.BRK_HALT c) then (s.coreNext c 1).coreHalt c 4 else s.qExc c 0xA none

/-- SYNC.I (R344). -/
def State.qSync (s : State) (c _w : Nat) : State := s.coreJump c (((s.coreS c).pc + 4) % 2 ^ 32) 4

/-- DRAIN (R339). -/
def State.qDrain (s : State) (c w : Nat) : State := if (s.coreS c).sb ≠ [] then s.qWait c w else s.coreNext c 2

/-- STKSAVE (R334): the depth, then the positions from the oldest on; then the stack is empty. -/
def State.qStksave (s : State) (c w : Nat) : State :=
  let a := s.gpr c (qRa w)
  let st := (s.coreS c).stack
  if a % 4 ≠ 0 then s.qExc c 2 (some a)
  else
    let l := (st.length :: (List.range 16).map (fun i => st.getD i 0))
    let ps := (List.range 17).map (fun (i : Nat) => ((a + 4 * i) % 2 ^ 32, leBytes 4 (l.getD i 0)))
    s.qStoreAt c w ps (fun s => (s.modCore c (fun x => { x with stack := [] })).coreNext c 19)

/-- The words of STKLOAD, in order; an error names its address. -/
def State.stkWords (s : State) (c : Nat) : List Nat → (List Nat × Option Nat × Bool) × State
  | [] => (([], none, false), s)
  | a :: t => match s.coreRead c a 4 true with
    | (.ok bs, s) =>
      let (r, s) := State.stkWords s c t
      ((leVal bs :: r.1, r.2), s)
    | (.wait, s) => (([], none, true), s)
    | (_, s) => (([], some a, false), s)

/-- STKLOAD (R334). -/
def State.qStkload (s : State) (c w : Nat) : State :=
  let a := s.gpr c (qRa w)
  if a % 4 ≠ 0 then s.qExc c 2 (some a)
  else
    let as := (List.range 17).map (fun (i : Nat) => (a + 4 * i) % 2 ^ 32)
    if as.any (fun b => s.loadHeld c (b, 4)) then s.qWait c w
    else match s.stkWords c as with
      | ((_, _, true), _) => s.qWait c w
      | ((_, some b, _), s') => s'.qExc c 4 (some b)
      | ((l, none, false), s') =>
        let n := min 16 (l.headD 0 % 32)
        (s'.modCore c (fun x => { x with stack := ((l.drop 1).take n).map (fun v => v / 4 * 4) })).coreNext c 19

/-- WFI (R347): it completes when the request line is active. -/
def State.qWfi (s : State) (c _w : Nat) : State :=
  if s.irqLine c then (s.wr (F.CPUn_STATUS.WFI c) 0).coreNext c 1 else s.wr (F.CPUn_STATUS.WFI c) 1

/-! ### Running an instruction -/

/-- The instruction `op` of word `w`. -/
def State.qRun (s : State) (c : Nat) (op : QOp) (w : Nat) : State :=
  match op with
  | .add => s.qAdd c w
  | .sub => s.qSub c w
  | .and => s.qAnd c w
  | .or => s.qOr c w
  | .xor => s.qXor c w
  | .nor => s.qNor c w
  | .slt => s.qSlt c w
  | .sltu => s.qSltu c w
  | .sll => s.qSll c w
  | .srl => s.qSrl c w
  | .sra => s.qSra c w
  | .slli => s.qSlli c w
  | .srli => s.qSrli c w
  | .srai => s.qSrai c w
  | .min => s.qMin c w
  | .max => s.qMax c w
  | .minu => s.qMinu c w
  | .maxu => s.qMaxu c w
  | .clz => s.qClz c w
  | .mul => s.qMul c w
  | .mulh => s.qMulh c w
  | .mulhu => s.qMulhu c w
  | .div => s.qDiv c w
  | .divu => s.qDivu c w
  | .rem => s.qRem c w
  | .remu => s.qRemu c w
  | .jr => s.qJr c w
  | .callr => s.qCallr c w
  | .ret => s.qRet c w
  | .addi => s.qAddi c w
  | .slti => s.qSlti c w
  | .sltiu => s.qSltiu c w
  | .andi => s.qAndi c w
  | .ori => s.qOri c w
  | .xori => s.qXori c w
  | .lui => s.qLui c w
  | .beq => s.qBeq c w
  | .bne => s.qBne c w
  | .blt => s.qBlt c w
  | .bge => s.qBge c w
  | .bltu => s.qBltu c w
  | .bgeu => s.qBgeu c w
  | .ld => s.qLd c w
  | .ldu => s.qLdu c w
  | .st => s.qSt c w
  | .lr => s.qLr c w
  | .sc => s.qSc c w
  | .tas => s.qTas c w
  | .jmp => s.qJmp c w
  | .call => s.qCall c w
  | .beqz => s.qBeqz c w
  | .bnez => s.qBnez c w
  | .bltz => s.qBltz c w
  | .bgez => s.qBgez c w
  | .mfs => s.qMfs c w
  | .mts => s.qMts c w
  | .eret => s.qEret c w
  | .trap => s.qTrap c w
  | .brk => s.qBrk c w
  | .syncI => s.qSync c w
  | .drain => s.qDrain c w
  | .stksave => s.qStksave c w
  | .stkload => s.qStkload c w
  | .wfi => s.qWfi c w

/-- The clock stands at least at the cycle at which the core's next instruction starts; a core that a command reaches
later starts then. -/
def State.coreReach (s : State) (c : Nat) : State :=
  let s := s.reach (eclkOf (s.coreS c).next)
  s.modCore c (fun x => { x with next := max x.next (cclkAt s.now) })

/-- A waiting instruction tries again in cycle `g`: the cycles since it began to wait count in WAIT_CNT (R338). -/
def State.qRetry (s : State) (c g : Nat) : State :=
  match (s.coreS c).waiting with
  | none => s
  | some (w, t) => match qMnem w with
    | none => s
    | some op =>
      if (s.coreS c).between then s else
      let g := max g t
      let s := s.incRcBy (F.CPUn_WAIT_CNT.COUNT c) (g - t)
      (s.modCore c (fun x => { x with next := g, waiting := none })).qRun c op w

/-- The word the core executes at this boundary, if nothing else comes first there: a halt, reset, a store's bus
error, an interrupt (R345, R346, R349). -/
def State.coreWord (s : State) (c : Nat) : Option Nat :=
  if s.coreLive c && !s.on (F.CPUn_STATUS.HALTED c) && s.coreIdle c && !s.bpHit c && (s.storeErr c).isNone && !s.intTaken c
  then (match (s.coreS c).pref.head? with
    | some (some w) => some w
    | _ => none)
  else none

/-- Core `c` executes its next instruction, if that is `op`; an instruction that waits for memory, or in WFI, is
tried again, and a split access makes its next part. -/
def State.qRow (s : State) (c : Nat) (op : QOp) : State :=
  match (s.coreS c).waiting with
  | some (w, _) =>
    if qMnem w = some op && !s.boot.tripped then
      (if (s.coreS c).between then
        (((s.coreReach c).modCore c (fun x => { x with waiting := none, between := false })).qRun c op w).coreSettle c
      else (s.qRetry c (cclkAt s.now)).coreSettle c)
    else s
  | none =>
    if s.on (F.CPUn_STATUS.WFI c) then
      (if op = .wfi && s.irqLine c && !s.boot.tripped then ((s.coreReach c).qWfi c 0).coreSettle c else s)
    else match s.coreWord c with
      | none => s
      | some w => if qMnem w = some op then ((s.coreReach c).qRun c op w).coreSettle c else s

/-- A taken exception or interrupt at a boundary: STORE_BUS first, then an interrupt, then what the fetched word is. -/
def State.storeBus (s : State) (c : Nat) : State :=
  match s.storeErr c with
  | none => s
  | some a =>
    let s := { s with memc := { s.memc with lateErr := s.memc.lateErr.eraseP (fun e => e.1 == c) } }
    s.coreExcept c 5 (s.coreS c).pc (some (a % 2 ^ 32)) 0

/-- The FETCH exception at PC (R328, R345); an uncorrectable word raises its memory fault (R278). -/
def State.fetchExc (s : State) (c : Nat) : State :=
  let pc := (s.coreS c).pc
  let s := if pc < 0x20000
    then ((s.incRc F.MEM_SRAM_UE_CNT.COUNT).memLog 2 (ownSys c (pc / 8 * 8)) (0x20 + c) 0).memFault 0x20 (0x20 + c) else s
  s.coreExcept c 3 pc (some pc) 0

/-- The interrupt is entered (R346). -/
def State.intEntry (s : State) (c : Nat) : State := s.coreEntry c 0x10 (s.coreS c).pc none 0 0x80

/-- A step (R349): one exception or interrupt entry, or one instruction; then the core halts. -/
def State.qStep (s : State) (c : Nat) : State :=
  let s := (s.coreGo c).modCore c (fun x => { x with haltReq := 2 })
  let s := if (s.storeErr c).isSome then s.storeBus c
    else if s.on (F.CPUn_DBG_CTRL.STEP_IRQ c) && s.intTaken c then s.intEntry c
    else match (s.coreS c).pref.head? with
      | some (some w) => (match qMnem w with
        | some op => s.qRun c op w
        | none => s.qExc c 1 none)
      | _ => s.fetchExc c
  s.coreSettle c

/-! ### Debug registers (R349, R350) -/

/-- A write of CPUn_DBG_CTRL: its settings, then RESUME, STEP and HALT in this order. -/
def State.dbgCtrlWrite (s : State) (c v : Nat) : State :=
  let s := s.writeByCode (R.CPUn_DBG_CTRL c) v
  let halted := s.on (F.CPUn_STATUS.HALTED c)
  let s := if halted && v.testBit 1 then s.coreGo c else s
  let s := if halted && v.testBit 2 && !v.testBit 1 then s.qStep c else s
  if v.testBit 0 && !s.on (F.CPUn_STATUS.HALTED c) && !s.on (F.CPUn_STATUS.IN_RESET c)
  then (s.modCore c (fun x => { x with haltReq := 1 })).coreSettle c else s

/-- CPUn_STATUS.CFG_REJECT. -/
def State.cpuReject (s : State) (c : Nat) : State := s.hwSet (F.CPUn_STATUS.CFG_REJECT c)

/-- A write of a word of block CPUn at offset `r` of the block. -/
def State.cpuWrite (s : State) (c r v : Nat) : State :=
  let halted := s.on (F.CPUn_STATUS.HALTED c)
  if r = 0x00 then s.coreCtrlWrite c v
  else if r = 0x04 then (if s.on (F.CPUn_CTRL.RESET c) then s.writeByCode (R.CPUn_BOOT_PC c) v else s.cpuReject c)
  else if r = 0x10 then s.dbgCtrlWrite c v
  else if r = 0x18 then
    (if halted then s.modCore c (fun x => { x with pc := v % 2 ^ 32 / 4 * 4 }) else s.cpuReject c)
  else if r = 0x20 then (if halted then s.srWrite c (s.rd (F.CPUn_DBG_SR_SEL.SR c)) v else s.cpuReject c)
  else if Nat.ble 0x80 r && Nat.blt r 0x100 && r % 4 == 0 then
    (if halted then s.setGpr c ((r - 0x80) / 4) v else s.cpuReject c)
  else s.writeByCode (0x10000 + 0x1000 * c + r) v

end Sys2Proof.Machine
end

