-- ==== Sys2Proof/Machine/RegWrite.lean ====
section
/-! DEFINITION. Writes of register space: each register's own effect where its chapter gives it one, its access code
otherwise (R13-R19, R24, R172, R429, R515). -/

namespace Sys2Proof.Machine

/-- A write in block ENG at offset `o` of register space. -/
def State.writeEng (s : State) (o v : Nat) : State :=
  if o = R.ENG_TICK_CTRL then (s.recoverDue.tickCtrlWrite v).noTick
  else if o = R.ENG_TICK_PERIOD then s.periodWrite v
  else if o = R.ENG_TICK_FRAC then s.fracWrite v
  else if o = R.ENG_WARD_CTRL then
    let s := s.writeByCode o v
    if v.testBit 2 then s.wardRelease else s
  else if o = R.ENG_WARD_FENCE then s.wardFenceClear v
  else match regIx (R.ENG_VPLLk_MULT 0) 8 4 o with
  | some k => s.vpllMultWrite k v
  | none => match regIx (R.ENG_VPLLk_CTRL 0) 8 4 o with
  | some k => s.vpllCtrlWrite k v
  | none => s.writeByCode o v

/-- A write of FS_BASE0 or FS_BASE1, which EW stores where TARGET accepts it (R165, R172). -/
def State.fsBasePut (s : State) (n b v : Nat) : State :=
  s.mirrorIf n (s.engState n == 0) (fun i s => s.fsBaseWrite i b v)

/-- A write at offset `r` of block ENGn that any engine takes. -/
def State.writeEngn (s : State) (n r v : Nat) : State :=
  let o := 0x300000 + 0x10000 * n + r
  match r with
  | 0x1C => let s := s.writeByCode o v; if s.running then s else s.spillOff n
  | 0x84 => s.palData0Write n v
  | 0x88 => s.palData1Write n v
  | 0x90 => if v.testBit 0 then s.tcInvalidate n else s
  | 0xB0 => if v.testBit 0 then s.ocInvalidate n else s
  | 0xC0 => s.flipWrite n 0 v
  | 0xC8 => s.flipWrite n 1 v
  | 0xC4 => s.flipValWrite n 0 v
  | 0xCC => s.flipValWrite n 1 v
  | _ => (if s.running then s else s.compTouch n).writeByCode o v

/-- A write in an ENGn block; what TARGET accepts is applied to EW as well (R172). -/
def State.writeEngine (s : State) (o v : Nat) : State :=
  let n := (o - 0x300000) / 0x10000
  let r := o % 0x10000
  match r with
  | 0x00 => s.engWrite n v
  | 0x04 => s.rasterPut n 0 v
  | 0x08 => s.rasterPut n 1 v
  | 0x0C => s.rasterPut n 2 v
  | 0x10 => s.rasterPut n 3 v
  | 0x48 => s.schedWrite n v
  | 0x100 => s.fsBasePut n 0 v
  | 0x104 => s.fsBasePut n 1 v
  | _ => s.mirror n (fun i s => s.writeEngn i r v)

/-- A write in blocks OBJ and PLD. -/
def State.writePool (s : State) (o v : Nat) : State :=
  if o = R.OBJ_CTRL then
    let s := s.objMark.writeByCode o v
    let s := if s.arrived 7 0 then s.wr F.OBJ_CTRL.HOLD 1 else s
    if v.testBit 1 then s.objDiscard else s
  else if o = R.OBJ_LOAD_CTRL then
    (if v.testBit 31 then s.objLoadStart (bitsOf v 0 14) (bitsOf v 16 14) else s.writeByCode o v)
  else if Nat.ble 0x180000 o && Nat.blt o 0x200000 then s.objPoolWrite ((o - 0x180000) / 32) ((o - 0x180000) / 4 % 8) v
  else if o = R.PLD_CTRL then
    let s := s.writeByCode o v
    let s := if v.testBit 1 then s.pldCheck else s
    let s := if v.testBit 2 then { s with pld := { s.pld with refresh := true } } else s
    if s.running then s else s.bankTick
  else if Nat.ble 0xA0000 o && Nat.blt o 0xE0000 then
    let i := (o - 0xA0000) / 4
    s.pldTblWrite (i / 32768) (i / 8 % 4096) (i % 8) v
  else s.writeByCode o v

/-- A write in blocks PVWn, PLK and PLKn. -/
def State.writeOut (s : State) (o v : Nat) : State :=
  if o = R.PLK_PRES then s.presWrite v
  else if Nat.blt o 0x10000 then
    let n := (o - 0xE000) / 0x1000
    match o % 0x1000 with
    | 0x00 => s.pvwCtrlWrite n v
    | 0x08 => s.pvwLimit n o v
    | 0x0C => s.pvwLimit n o v
    | 0x10 => s.pvwLimit n o v
    | 0x20 => s.auxGo n v
    | _ => s.writeByCode o v
  else if Nat.ble 0x600000 o then
    let p := (o - 0x600000) / 0x10000
    match o % 0x10000 with
    | 0x000 => s.portCtrlWrite p v
    | 0x100 => s.ringWrite p v
    | 0x110 => let s := s.writeByCode o v; if v.testBit 16 then s.cascadeStart p else s
    | 0x808 => s.lutData0Write p v
    | 0x80C => s.lutData1Write p v
    | _ => s.writeByCode o v
  else s.writeByCode o v

/-- A write in blocks BLT, MEM, HBM and DMA. -/
def State.writeMover (s : State) (o v : Nat) : State :=
  if o = R.MEM_LOG_POP then s.memPop v
  else if o = R.MEM_SCRUB_CTRL then s.scrubCtrlWrite v
  else if o = R.DMA_ABORT0 then s.dmaAbortWrite false v
  else if o = R.DMA_ABORT1 then s.dmaAbortWrite true v
  else if Nat.ble 0x9100 o && Nat.blt o 0x9200 && o % 4 == 0 then s.fenceWrite ((o - 0x9100) / 4) v
  else if Nat.ble 0x9400 o && Nat.blt o 0x9500 then
    let q := (o - 0x9400) / 0x40
    match o % 0x40 with
    | 0x00 => s.bltCtrlWrite q v
    | 0x0C => s.bltOffWrite q o v
    | 0x10 => s.bltOffWrite q o v
    | 0x14 => s.bltTail q v
    | _ => s.writeByCode o v
  else if Nat.ble 0xD000 o && Nat.blt o 0xE000 then
    let n := (o - 0xD000) / 0x40
    let s := s.dmaDue n
    match o % 0x40 with
    | 0x00 => s.dmaCtrlWrite n v
    | 0x08 => s.dmaDescWrite n o v
    | 0x0C => s.dmaDescWrite n o v
    | 0x28 => s.dmaTrigWrite n v
    | _ => s.writeByCode o v
  else match regIx (R.MEM_ARB_MINk 0) 4 5 o with
  | some k => s.arbMinWrite k v
  | none => s.writeByCode o v

/-- A write in blocks BOOT, SEC, FLT, SLC and IRQ. -/
def State.writeCtl (s : State) (req o v : Nat) : State :=
  if o = R.BOOT_SBY_CTRL then s.sbyWrite v
  else if o = R.SEC_CTRL then (if v.testBit 0 then (s.advance req).sessSettle else s)
  else if o = R.FLT_CTRL then s.fltCtrlWrite v
  else if o = R.FLT_QUIET then s.fltQuietWrite v
  else if o = R.FLT_PIN then s.fltPinWrite v
  else if o = R.FLT_ACK then s.fltAck v
  else if o = R.FLT_LOG_POP then s.fltPop v
  else if o = R.FLT_LOG_STATUS then s.fltLogStWrite v
  else if o = R.FLT_ESC_CAP ∨ o = R.FLT_THERM then s.fltCfgWrite o v
  else if o = R.SLC_COMMIT then s.slcGo v
  else if o = R.SLC_SWEV then s.slcSoft v
  else if o = R.IRQ_SWI then s.irqSwi v
  else match fltCfgSrc o with
  | some n => if (faultInfo n).isSome then s.fltCfgWrite o v else s
  | none => match regIx (R.SEC_SESSs_CTRL 0) 0x10 4 o with
  | some i => if v.testBit 8 then s.sessAskClose i else s
  | none => match regIx (R.SLC_CHn_CFG 0) 8 64 o with
  | some n => s.slcChWrite n v
  | none => match regIx (R.IRQ_EOIc 0) 0x40 4 o with
  | some c => s.irqEoi c
  | none => match regIx (R.IRQ_SRCs 1) 4 512 o with
  | some n => s.irqSrcWrite (n + 1) v
  | none => s.writeByCode o v

/-- A write in blocks GPIO and PMX. -/
def State.writePins (s : State) (o v : Nat) : State :=
  let s := s.pinsDue
  if o = R.GPIO_SBY_CTRL then s.gpioRelease v
  else if Nat.blt o 0x6180 then
    let b := (o - 0x6000) / 0x40
    match o % 0x40 with
    | 0x00 => s.gpioSetOut b 0xFFFF v
    | 0x04 => s.gpioSetOut b v v
    | 0x08 => s.gpioSetOut b v 0
    | 0x0C => (s.writeByCode o v).pinsUpdate (bankPins b)
    | 0x18 => s.flagWrite b v
    | 0x1C => s.bankWrite b v
    | _ => s.writeByCode o v
  else if Nat.ble 0x7000 o && Nat.blt o 0x7600 then
    let p := (o - 0x7000) / 0x10
    match o % 0x10 with
    | 0x4 => s.pinIrqWrite p v
    | 0x8 => s.pinTaskWrite p v
    | _ => (s.writeByCode o v).pinUpdate p
  else match regIx (R.PMX_PINp 0) 4 96 o with
  | some p => s.pmxWrite p v
  | none => s.writeByCode o v

/-- A write in a CLVn block. -/
def State.writeClv (s : State) (o v : Nat) : State :=
  let n := (o - 0x20000) / 0x1000
  let r := o % 0x1000
  match r with
  | 0x00 => s.clvCtrlWrite n v
  | 0x08 => s.clvPinsWrite n v
  | 0x14 => s.clvTaskWrite n v
  | 0x18 => s.clvTx n v
  | 0x24 => s.clvOffWrite n o v
  | _ => if Nat.ble 0x100 r && Nat.blt r 0x200 then s.clvProg n ((r - 0x100) / 8) (r % 8 == 4) v
    else (s.clvFollow n).writeByCode o v

/-- A write in a TMRn block. -/
def State.writeTmr (s : State) (o v : Nat) : State :=
  let n := (o - 0x30000) / 0x1000
  match o % 0x1000 with
  | 0x00 => s.tmrCtrlWrite n v
  | 0x08 => s.countLoWrite n v
  | 0x0C => s.countHiWrite n v
  | 0x14 => s.periodHiWrite n v
  | 0x24 => s.cmpHiWrite n 0 v
  | 0x2C => s.cmpHiWrite n 1 v
  | 0x34 => s.cmpHiWrite n 2 v
  | 0x3C => s.cmpHiWrite n 3 v
  | 0x54 => s.tmrOutWrite n v
  | 0x58 => s.tmrTaskWrite n v
  | _ => s.writeByCode o v

/-- A write in block HST. -/
def State.writeHst (s : State) (req o v : Nat) : State :=
  if o = R.HST_MB_DOORBELL then s.doorbell v
  else if o = R.HST_FW_DONE then (s.fwDone v).sessSettle
  else if Nat.ble 0x40100 o && Nat.blt o 0x40180 then
    let q := (o - 0x40100) / 0x20
    match o % 0x20 with
    | 0x00 => s.cqBaseWrite q o v
    | 0x04 => s.cqBaseWrite q o v
    | 0x08 => s.cqCfgWrite q v
    | 0x10 => s.cqHeadWrite q v
    | _ => s.writeByCode o v
  else if Nat.ble 0x50000 o && Nat.blt o 0x52000 then s.mbRegWrite (req == 0x86) ((o - 0x50000) / 4) v
  else if Nat.ble 0x60000 o && Nat.blt o 0x60400 then s.msixWrite ((o - 0x60000) / 4) v
  else s.writeByCode o v

/-- A write in block AUD. -/
def State.writeAud (s : State) (o v : Nat) : State :=
  if o = R.AUD_SPF then s.spfWrite v
  else if o = R.AUD_CTRL then
    let s := s.writeByCode o v
    if s.func 36 = 4 then s.pinUpdate 36 else s
  else if o = R.AUD_TRIG then s.audTrig v
  else if Nat.ble 0x801000 o && Nat.blt o 0x802000 then
    let c := (o - 0x801000) / 0x40
    match o % 0x40 with
    | 0x00 => s.toneCtrlWrite c v
    | 0x10 => s.gainChange c (fun s => s.writeByCode o v)
    | _ => s.writeByCode o v
  else if Nat.ble 0x804000 o && Nat.blt o 0x80A000 then
    let i := (o - 0x804000) / 0x40
    match o % 0x40 with
    | 0x00 => s.voiceCtrlWrite i v
    | 0x04 => s.voiceOffWrite i o v
    | 0x08 => s.voiceOffWrite i o v
    | 0x0C => s.voiceOffWrite i o v
    | 0x1C => s.gainChange (64 + i) (fun s => s.writeByCode o v)
    | _ => s.writeByCode o v
  else if Nat.ble 0x810000 o && Nat.blt o 0x814400 && Nat.blt (o % 0x20) 0x10 then
    s.sendWrite ((o - 0x810000) / 0x20) (o % 0x20 / 4) v
  else if Nat.ble 0x820000 o && Nat.blt o 0x822000 then
    let b := (o - 0x820000) / 0x100
    match o % 0x100 with
    | 0x00 => s.busCtrlWrite b v
    | 0x04 => s.gainChange (512 + b) (fun s => s.writeByCode o v)
    | 0x08 => s.dlyBaseWrite b v
    | 0x0C => s.dlyWrite b v
    | _ => s.writeByCode o v
  else if Nat.ble 0x830000 o && Nat.blt o 0x830800 then
    let p := (o - 0x830000) / 0x100
    let r := o % 0x100
    if r = 0x00 then s.outCtrlWrite p v
    else if r = 0x04 then s.tdmFmtWrite o v (F.AUD_Op_CTRL.STATE p) (F.AUD_Op_CTRL.CFG_REJECT p)
    else if Nat.ble 0x40 r && Nat.blt r 0x80 then
      let j := (r - 0x40) / 4
      let old := s.act (F.AUD_Op_SLOTj.BUS p j)
      let s := s.writeByCode o v
      if s.running then s else s.slotTick p j old (s.now + 1)
    else s.writeByCode o v
  else if Nat.ble 0x831000 o && Nat.blt o 0x831400 then
    let i := (o - 0x831000) / 0x100
    match o % 0x100 with
    | 0x00 => s.inCtrlWrite i v
    | 0x04 => s.tdmFmtWrite o v (F.AUD_Ip_CTRL.STATE i) (F.AUD_Ip_CTRL.CFG_REJECT i)
    | _ => s.writeByCode o v
  else s.writeByCode o v

/-- A write of `v` to the word at register-space offset `o` by `req`, once the privilege gate has let it pass. -/
def State.writeAt (s : State) (req o v : Nat) : State :=
  if Nat.blt o 0x6000 then s.writeCtl req o v
  else if Nat.blt o 0x9000 then s.writePins o v
  else if Nat.blt o 0xE000 then s.writeMover o v
  else if Nat.blt o 0x10000 then s.writeOut o v
  else if Nat.blt o 0x14000 then s.cpuWrite ((o - 0x10000) / 0x1000) (o % 0x1000) v
  else if Nat.blt o 0x20000 then s
  else if Nat.blt o 0x30000 then s.writeClv o v
  else if Nat.blt o 0x40000 then s.writeTmr o v
  else if Nat.blt o 0x80000 then s.writeHst req o v
  else if Nat.blt o 0x200000 then s.writePool o v
  else if Nat.blt o 0x210000 then s.writeEng o v
  else if Nat.blt o 0x300000 then s
  else if Nat.blt o 0x410000 then s.writeEngine o v
  else if Nat.blt o 0x500000 then s
  else if Nat.blt o 0x780000 then s.writeOut o v
  else if Nat.blt o 0x800000 then s
  else s.writeAud o v

/-- A write of the aligned word at register-space offset `o` by `req`. -/
def State.regWrite (s : State) (req o v : Nat) : State :=
  if s.boot.sby = 5 then s
  else if req = 0x86 && !hostWrites s.hostPriv o then s.deny
  else s.writeAt req o (v % 2 ^ 32)

end Sys2Proof.Machine
end

