-- ==== Sys2Proof/Machine/CoreCmd.lean ====
section
/-! DEFINITION. The commands of the cores beside their instructions (R328-R350), REG_WRITE (R17), the entries of the
boot lists (R445) and OUTBOUND_TIMEOUT (R479). -/

namespace Sys2Proof.Machine

/-! ### The store buffer (R337) -/

/-- A posted store reaches its target: the bus error it returns, if any; none at all: the target makes it wait. -/
def State.storeArrive (s : State) (c : Nat) (e : SbEntry) : Option (Bool × State) :=
  match e.sys with
  | none => some (true, s.decodeErr e.addr (0x20 + c))
  | some a => match regionOf s.gib a with
    | .regSpace o =>
      if o % 4 = 0 ∧ e.bytes.length = 4 then some (false, s.regWrite (0x20 + c) o (leVal e.bytes))
      else some (true, s.decodeErr a (0x20 + c))
    | _ => match s.busWrite (0x20 + c) a e.bytes with
      | (.ok _, s) => some (false, s.storeSent c a e.bytes.length e.addr)
      | (.wait, _) => none
      | (_, s) => some (true, s)

/-- The oldest entry is acknowledged and freed; the next one is issued; an instruction that waited tries again. -/
def State.storeAck (s : State) (c : Nat) : State :=
  match (s.coreS c).sb with
  | [] => s
  | e :: _ =>
    if s.boot.tripped then s
    else
      let s := s.reach (eclkOf (e.issued.getD 0 + s.storeWait e.sys))
      let g := max (e.issued.getD 0 + s.storeWait e.sys) (cclkAt s.now)
      let popped := s.modCore c (fun x => { x with
        sb := match x.sb.drop 1 with
          | [] => []
          | f :: t => { f with issued := some g } :: t })
      match popped.storeArrive c e with
      | none => s
      | some (err, s) =>
        let s := if err then { s with memc := { s.memc with lateErr := s.memc.lateErr ++ [(c, e.addr)] } } else s
        (s.qRetry c g).coreSettle c

/-- STORE_ACK (R337). -/
def execStoreAck (c : Nat) (s : State) : Host.Outcome State Fault Refusal := done (s.storeAck c)

/-! ### Boundaries (R328, R330, R345, R346, R349) -/

/-- Core `c` stands at a boundary at which neither a halt nor reset comes first. -/
def State.coreFree (s : State) (c : Nat) : Bool :=
  s.coreLive c && !s.on (F.CPUn_STATUS.HALTED c) && s.coreIdle c && !s.bpHit c

/-- STORE_BUS (R345): ahead of any interrupt at the boundary. -/
def execStoreBus (c : Nat) (s : State) : Host.Outcome State Fault Refusal :=
  done (if s.coreFree c && (s.storeErr c).isSome then ((s.coreReach c).storeBus c).coreSettle c else s)

/-- INTERRUPT_ENTRY (R346, R347): WFI, where the core waits in it, completes first. -/
def execInterruptEntry (c : Nat) (s : State) : Host.Outcome State Fault Refusal :=
  let s := if s.on (F.CPUn_STATUS.WFI c) then s.qRow c .wfi else s
  done (if s.coreFree c && (s.storeErr c).isNone && s.intTaken c then ((s.coreReach c).intEntry c).coreSettle c else s)

/-- BREAKPOINT (R349). -/
def execBreakpoint (c : Nat) (s : State) : Host.Outcome State Fault Refusal :=
  done (if s.coreLive c && !s.on (F.CPUn_STATUS.HALTED c) && s.coreIdle c && s.bpHit c
    then (s.coreReach c).coreHalt c 3 else s)

/-- ILLEGAL (R330). -/
def execIllegal (c : Nat) (s : State) : Host.Outcome State Fault Refusal :=
  done (match s.coreWord c with
    | none => s
    | some w => if (qMnem w).isNone then ((s.coreReach c).qExc c 1 none).coreSettle c else s)

/-- FETCH_EXCEPTION (R328): no word could be fetched for the PC. -/
def execFetchException (c : Nat) (s : State) : Host.Outcome State Fault Refusal :=
  done (if s.coreFree c && (s.storeErr c).isNone && !s.intTaken c && (s.coreS c).pref.head? == some none
    then ((s.coreReach c).fetchExc c).coreSettle c else s)

/-! ### Debug and reset (R349, R350) -/

/-- A write of CPUn_DBG_CTRL with one of its actions, its settings as they stand. -/
def State.dbgAct (s : State) (c bit : Nat) : State := s.dbgCtrlWrite c (putBits (s.reg (R.CPUn_DBG_CTRL c)) 0 3 (2 ^ bit))

/-- DBG_HALT (R349). -/
def execDbgHalt (c : Nat) (s : State) : Host.Outcome State Fault Refusal := done (s.dbgAct c 0)

/-- DBG_RESUME (R349). -/
def execDbgResume (c : Nat) (s : State) : Host.Outcome State Fault Refusal := done (s.dbgAct c 1)

/-- DBG_STEP (R349). -/
def execDbgStep (c : Nat) (s : State) : Host.Outcome State Fault Refusal := done (s.dbgAct c 2)

/-- CORE_RESET (R350): a write of CPUn_CTRL. -/
def execCoreReset (c v : Nat) (s : State) : Host.Outcome State Fault Refusal := done (s.coreCtrlWrite c v)

/-! ### Registers -/

/-- An aligned read by `req`, for which the table has no row of its own: what it returns goes to `rdata`, and to the host in a
completion (R429, R477). -/
def State.regLook (s : State) (req off : Nat) : State :=
  let s := State.answer (s.regRead req off)
  if req = 0x86 then s.hostReply 0 (leBytes 4 s.rdata) else s

/-- REG_WRITE (R13-R19): an access by `req` to the aligned word at register-space offset `off`: a write of a value, or, with
none, a read (log 76). A misaligned one is a decode error of the fabric. Through BAR0 it is no single DW: it is refused with
BAD_ACCESS (R477). -/
def execRegWrite (req off : Nat) (val : Option Nat) (s : State) : Host.Outcome State Fault Refusal :=
  done (if off % 4 = 0 then (match val with
      | some v => s.regWrite req off v
      | none => s.regLook req off)
    else if req = 0x86 then s.badAccess val.isSome else s.decodeErr (0x2000000000 + off) req)

/-! ### Register lists (R445) -/

/-- The list in execution stands at an entry of operation `op`: it and the entry. -/
def State.listEntry (s : State) (op : Nat) : Option ListRun :=
  match s.boot.list with
  | none => none
  | some r => if r.word 0 = op && s.boot.sby ≠ 5 && !s.boot.tripped then some r else none

/-- LIST_WRITE: VALUE goes to ADDR; a write that its target refuses does what its block says, and the list goes on. -/
def execListWrite (s : State) : Host.Outcome State Fault Refusal :=
  done (match s.listEntry 0 with
    | none => s
    | some r =>
      let s := if r.word 1 % 4 = 0 then s.regWrite 0x30 (r.word 1) (r.word 2)
        else s.decodeErr (0x2000000000 + r.word 1) 0x30
      if s.boot.list = some r then s.listAt r (r.ix + 1) else s)

/-- LIST_WAIT: ADDR is read; the list goes on once (word & ARG) = VALUE. -/
def execListWait (s : State) : Host.Outcome State Fault Refusal :=
  done (match s.listEntry 1 with
    | none => s
    | some r =>
      let x := if r.word 1 % 4 = 0 then s.regRead 0x30 (r.word 1) else (0, s.decodeErr (0x2000000000 + r.word 1) 0x30)
      if r.word 1 % 4 = 0 && (x.1 &&& r.word 3) == r.word 2 then x.2.listAt r (r.ix + 1) else x.2)

/-- LIST_WAIT_TIMEOUT: 50 ms have passed at a WAIT. -/
def execListWaitTimeout (s : State) : Host.Outcome State Fault Refusal :=
  done (match s.listEntry 1 with
    | none => s
    | some r => (s.reach (r.t + 50 * msT)).listStop)

/-- LIST_DELAY: ARG µs, at most 100,000. -/
def execListDelay (s : State) : Host.Outcome State Fault Refusal :=
  done (match s.listEntry 2 with
    | none => s
    | some r => (s.reach (r.t + min 100000 (r.word 3) * usT)).listAt r (r.ix + 1))

/-- LIST_END. -/
def execListEnd (s : State) : Host.Outcome State Fault Refusal :=
  done (match s.listEntry 3 with
    | none => s
    | some _ => s.listDone)

/-! ### Reads of host memory that fail (R479) -/

/-- A system address of the host's range. -/
def hostAddr (a : Nat) : Bool := Nat.ble 0x8000000000 a && Nat.blt a 0x10000000000

/-- The first host address that the load or STKLOAD `w` of core `c` reads. -/
def State.hostLoad (s : State) (c w : Nat) : Option Nat :=
  let hit := fun (a : Nat) => match s.coreMap c a with
    | .fabric x => hostAddr x
    | _ => false
  let ra := s.gpr c (qRa w)
  let part := ((qParts (qEa ra w) (qSize w)).drop (s.coreS c).prog).any (fun p => hit p.1)
  match qMnem w with
  | some .ld => if part then some (qEa ra w) else none
  | some .ldu => if part then some (qEa ra w) else none
  | some .stkload => ((List.range 17).map (fun i => (ra + 4 * i) % 2 ^ 32)).find? hit
  | _ => none

/-- The bus error of a failed outbound read raises MEM_DECODE for its requester (R278, R479). -/
def State.outErr (s : State) (req : Nat) : State := s.memFault 0x23 req

/-- The word of the load that core `c` makes now: the next instruction, or one that stands between its parts (R335). -/
def State.loadWord (s : State) (c : Nat) : Option Nat :=
  match (s.coreS c).waiting with
  | some (w, _) => if (s.coreS c).between && !s.boot.tripped then some w else none
  | none => s.coreWord c

/-- A core's load from host memory fails: LOAD_BUS, after the cycles it waited (R338): a free number, at most the 50 ms
(25,000,000 CCLK) of the timeout (log 8). -/
def State.outCore (s : State) (c : Nat) : State :=
  match s.loadWord c with
  | none => s
  | some w => match s.hostLoad c w with
    | none => s
    | some a =>
      let (v, s) := (s.coreReach c).free
      (((s.coreWait c (v % 25000001)).outErr (0x20 + c)).qExc c 4 (some a)).coreSettle c

/-- A DMA channel's read of a descriptor or of data fails (R289). -/
def State.outDma (s : State) (n : Nat) : State :=
  match (s.dmaS n).phase with
  | .fetch => if hostAddr (s.dmaDesc n) then (s.outErr (0x40 + n)).dmaFail n 4 else s
  | .move => if hostAddr ((s.dmaS n).desc.srcAt (s.dmaS n).pos)
    then (s.outErr (0x40 + n)).modDma n (fun x => { x with phase := .error }) else s
  | _ => s

/-- The blitter's read fails: the rows completed so far stay (R257). -/
def State.outBlt (s : State) : State :=
  let s := s.bltTo
  match s.blt.run with
  | none => s
  | some b =>
    if b.rows < b.height ∧ (hostAddr (bltSrc b.words) || hostAddr (bltDst b.words))
    then (s.outErr 0x80).bltRun (fun r => { r with err := true }) else s

/-- A schedule check's read fails (R60). Which block of the schedule it was is free (log 8). -/
def State.outSched (s : State) : State :=
  match engines.find? (fun n => match (s.engS n).checking with
    | some b => hostAddr b
    | none => false) with
  | none => s
  | some n =>
    let (x, s) := (s.outErr 0x82).free
    s.schedFail n 0x12 (32 * x - ((s.engS n).checking.getD 0) % 32)

/-- A fetch of engine `n` for a line not yet output fails (R49, R278). Which line it was for is free (log 53). -/
def State.outEng (s : State) (n : Nat) : State :=
  let e := s.engS n
  if e.live ∧ e.linesOut < s.vActive n then
    let (x, s) := (s.outErr n).free
    s.poisonLine n (e.linesOut + x % (s.vActive n - e.linesOut))
  else s

/-- The sound unit's reads in host memory that may be under way: presets, then voices' samples, then buses' delay lines. -/
def State.outAudList (s : State) : List (Nat × Nat) :=
  let preset := s.aud.trig.any TrigS.open_ && hostAddr (s.reg R.AUD_PRESET_BASE * 256 % 2 ^ 40)
  let voice := (s.aud.voice.filter (fun e => e.2.buf.any (fun b => hostAddr (32 * b.1)))).map (fun e => (1, e.1))
  let bus := (List.range 32).filter (fun b => s.on (F.AUD_Bb_CTRL.DLY_EN b) && hostAddr (s.reg (R.AUD_Bb_DLY_BASE b) * 256))
  (if preset then [(0, 0)] else []) ++ voice ++ bus.map (fun b => (2, b))

/-- A read of the sound unit fails: a preset start is dropped (R307), a voice has zeros in place of 32 bytes, a delay line
gives 0 (R278). Which of the reads it was is free (log 53). -/
def State.outAud (s : State) : State :=
  let l := s.outAudList
  if l = [] then s
  else
    let (x, s) := (s.outErr 0x83).free
    match l[x % l.length]? with
    | some (0, _) => s.presetFail
    | some (1, v) => s.modVoice v (fun w => match (w.buf.filter (fun b => hostAddr (32 * b.1))).getLast? with
        | some b => { w with buf := Tbl.put w.buf b.1 [] }
        | none => w)
    | some (_, b) => s.modBus b (fun u => { u with dlyBad := true })
    | none => s

/-- Does a frame-store buffer lie in host memory (R162, R479)? -/
def State.fsHost (s : State) : Bool :=
  engines.any (fun n => hostAddr (s.fsAddr n 0 0) || hostAddr (s.fsAddr n 1 0))

/-- An outbound read of requester `req` ends in an error or a timeout. -/
def State.outFail (s : State) (req : Nat) : State :=
  if !s.hostUp || s.boot.tripped then s
  else if Nat.ble 0x20 req && Nat.blt req 0x24 then s.outCore (req - 0x20)
  else if Nat.ble 0x40 req && Nat.blt req 0x80 then s.outDma (req - 0x40)
  else if req = 0x80 then s.outBlt
  else if req = 0x81 then (if s.obj.left ≠ 0 && hostAddr s.obj.src then (s.outErr 0x81).objLoadStop else s)
  else if req = 0x82 then s.outSched
  else if req = 0x83 then s.outAud
  else if req = 0x84 then (if s.fsHost then s.outErr 0x84 else s)
  else if req ≤ 0x10 then s.outEng req
  else s

/-- OUTBOUND_TIMEOUT (R479). -/
def execOutboundTimeout (req : Nat) (s : State) : Host.Outcome State Fault Refusal := done (s.outFail req)

end Sys2Proof.Machine
end

