-- ==== Sys2Proof/Machine/Qc32Cmd.lean ====
section
/-! DEFINITION. The instructions of QC32 as commands: core `c` executes its next instruction, if the word it has fetched
is that instruction and nothing else comes first at the boundary. -/

namespace Sys2Proof.Machine

/-- ADD (R331). -/
def execAdd (c : Nat) (s : State) : Host.Outcome State Fault Refusal := done (s.qRow c .add)

/-- SUB (R331). -/
def execSub (c : Nat) (s : State) : Host.Outcome State Fault Refusal := done (s.qRow c .sub)

/-- AND (R331). -/
def execAnd (c : Nat) (s : State) : Host.Outcome State Fault Refusal := done (s.qRow c .and)

/-- OR (R331). -/
def execOr (c : Nat) (s : State) : Host.Outcome State Fault Refusal := done (s.qRow c .or)

/-- XOR (R331). -/
def execXor (c : Nat) (s : State) : Host.Outcome State Fault Refusal := done (s.qRow c .xor)

/-- NOR (R331). -/
def execNor (c : Nat) (s : State) : Host.Outcome State Fault Refusal := done (s.qRow c .nor)

/-- SLT (R331). -/
def execSlt (c : Nat) (s : State) : Host.Outcome State Fault Refusal := done (s.qRow c .slt)

/-- SLTU (R331). -/
def execSltu (c : Nat) (s : State) : Host.Outcome State Fault Refusal := done (s.qRow c .sltu)

/-- SLL (R331). -/
def execSll (c : Nat) (s : State) : Host.Outcome State Fault Refusal := done (s.qRow c .sll)

/-- SRL (R331). -/
def execSrl (c : Nat) (s : State) : Host.Outcome State Fault Refusal := done (s.qRow c .srl)

/-- SRA (R331). -/
def execSra (c : Nat) (s : State) : Host.Outcome State Fault Refusal := done (s.qRow c .sra)

/-- SLLI (R331). -/
def execSlli (c : Nat) (s : State) : Host.Outcome State Fault Refusal := done (s.qRow c .slli)

/-- SRLI (R331). -/
def execSrli (c : Nat) (s : State) : Host.Outcome State Fault Refusal := done (s.qRow c .srli)

/-- SRAI (R331). -/
def execSrai (c : Nat) (s : State) : Host.Outcome State Fault Refusal := done (s.qRow c .srai)

/-- MIN (R331). -/
def execMin (c : Nat) (s : State) : Host.Outcome State Fault Refusal := done (s.qRow c .min)

/-- MAX (R331). -/
def execMax (c : Nat) (s : State) : Host.Outcome State Fault Refusal := done (s.qRow c .max)

/-- MINU (R331). -/
def execMinu (c : Nat) (s : State) : Host.Outcome State Fault Refusal := done (s.qRow c .minu)

/-- MAXU (R331). -/
def execMaxu (c : Nat) (s : State) : Host.Outcome State Fault Refusal := done (s.qRow c .maxu)

/-- CLZ (R331). -/
def execClz (c : Nat) (s : State) : Host.Outcome State Fault Refusal := done (s.qRow c .clz)

/-- MUL (R331). -/
def execMul (c : Nat) (s : State) : Host.Outcome State Fault Refusal := done (s.qRow c .mul)

/-- MULH (R331). -/
def execMulh (c : Nat) (s : State) : Host.Outcome State Fault Refusal := done (s.qRow c .mulh)

/-- MULHU (R331). -/
def execMulhu (c : Nat) (s : State) : Host.Outcome State Fault Refusal := done (s.qRow c .mulhu)

/-- DIV (R332). -/
def execDiv (c : Nat) (s : State) : Host.Outcome State Fault Refusal := done (s.qRow c .div)

/-- DIVU (R332). -/
def execDivu (c : Nat) (s : State) : Host.Outcome State Fault Refusal := done (s.qRow c .divu)

/-- REM (R332). -/
def execRem (c : Nat) (s : State) : Host.Outcome State Fault Refusal := done (s.qRow c .rem)

/-- REMU (R332). -/
def execRemu (c : Nat) (s : State) : Host.Outcome State Fault Refusal := done (s.qRow c .remu)

/-- JR (R333). -/
def execJr (c : Nat) (s : State) : Host.Outcome State Fault Refusal := done (s.qRow c .jr)

/-- CALLR (R334). -/
def execCallr (c : Nat) (s : State) : Host.Outcome State Fault Refusal := done (s.qRow c .callr)

/-- RET (R334). -/
def execRet (c : Nat) (s : State) : Host.Outcome State Fault Refusal := done (s.qRow c .ret)

/-- ADDI (R331). -/
def execAddi (c : Nat) (s : State) : Host.Outcome State Fault Refusal := done (s.qRow c .addi)

/-- SLTI (R331). -/
def execSlti (c : Nat) (s : State) : Host.Outcome State Fault Refusal := done (s.qRow c .slti)

/-- SLTIU (R331). -/
def execSltiu (c : Nat) (s : State) : Host.Outcome State Fault Refusal := done (s.qRow c .sltiu)

/-- ANDI (R331). -/
def execAndi (c : Nat) (s : State) : Host.Outcome State Fault Refusal := done (s.qRow c .andi)

/-- ORI (R331). -/
def execOri (c : Nat) (s : State) : Host.Outcome State Fault Refusal := done (s.qRow c .ori)

/-- XORI (R331). -/
def execXori (c : Nat) (s : State) : Host.Outcome State Fault Refusal := done (s.qRow c .xori)

/-- LUI (R331). -/
def execLui (c : Nat) (s : State) : Host.Outcome State Fault Refusal := done (s.qRow c .lui)

/-- BEQ (R333). -/
def execBeq (c : Nat) (s : State) : Host.Outcome State Fault Refusal := done (s.qRow c .beq)

/-- BNE (R333). -/
def execBne (c : Nat) (s : State) : Host.Outcome State Fault Refusal := done (s.qRow c .bne)

/-- BLT (R333). -/
def execBlt (c : Nat) (s : State) : Host.Outcome State Fault Refusal := done (s.qRow c .blt)

/-- BGE (R333). -/
def execBge (c : Nat) (s : State) : Host.Outcome State Fault Refusal := done (s.qRow c .bge)

/-- BLTU (R333). -/
def execBltu (c : Nat) (s : State) : Host.Outcome State Fault Refusal := done (s.qRow c .bltu)

/-- BGEU (R333). -/
def execBgeu (c : Nat) (s : State) : Host.Outcome State Fault Refusal := done (s.qRow c .bgeu)

/-- LD (R335). -/
def execLd (c : Nat) (s : State) : Host.Outcome State Fault Refusal := done (s.qRow c .ld)

/-- LDU (R335). -/
def execLdu (c : Nat) (s : State) : Host.Outcome State Fault Refusal := done (s.qRow c .ldu)

/-- ST (R337). -/
def execSt (c : Nat) (s : State) : Host.Outcome State Fault Refusal := done (s.qRow c .st)

/-- LR (R341). -/
def execLr (c : Nat) (s : State) : Host.Outcome State Fault Refusal := done (s.qRow c .lr)

/-- SC (R341). -/
def execSc (c : Nat) (s : State) : Host.Outcome State Fault Refusal := done (s.qRow c .sc)

/-- TAS (R340). -/
def execTas (c : Nat) (s : State) : Host.Outcome State Fault Refusal := done (s.qRow c .tas)

/-- JMP (R333). -/
def execJmp (c : Nat) (s : State) : Host.Outcome State Fault Refusal := done (s.qRow c .jmp)

/-- CALL (R334). -/
def execCall (c : Nat) (s : State) : Host.Outcome State Fault Refusal := done (s.qRow c .call)

/-- BEQZ (R333). -/
def execBeqz (c : Nat) (s : State) : Host.Outcome State Fault Refusal := done (s.qRow c .beqz)

/-- BNEZ (R333). -/
def execBnez (c : Nat) (s : State) : Host.Outcome State Fault Refusal := done (s.qRow c .bnez)

/-- BLTZ (R333). -/
def execBltz (c : Nat) (s : State) : Host.Outcome State Fault Refusal := done (s.qRow c .bltz)

/-- BGEZ (R333). -/
def execBgez (c : Nat) (s : State) : Host.Outcome State Fault Refusal := done (s.qRow c .bgez)

/-- MFS (R351). -/
def execMfs (c : Nat) (s : State) : Host.Outcome State Fault Refusal := done (s.qRow c .mfs)

/-- MTS (R351). -/
def execMts (c : Nat) (s : State) : Host.Outcome State Fault Refusal := done (s.qRow c .mts)

/-- ERET (R345). -/
def execEret (c : Nat) (s : State) : Host.Outcome State Fault Refusal := done (s.qRow c .eret)

/-- TRAP (R345). -/
def execTrap (c : Nat) (s : State) : Host.Outcome State Fault Refusal := done (s.qRow c .trap)

/-- BRK (R349). -/
def execBrk (c : Nat) (s : State) : Host.Outcome State Fault Refusal := done (s.qRow c .brk)

/-- SYNC_I (R344). -/
def execSyncI (c : Nat) (s : State) : Host.Outcome State Fault Refusal := done (s.qRow c .syncI)

/-- DRAIN (R339). -/
def execDrain (c : Nat) (s : State) : Host.Outcome State Fault Refusal := done (s.qRow c .drain)

/-- STKSAVE (R334). -/
def execStksave (c : Nat) (s : State) : Host.Outcome State Fault Refusal := done (s.qRow c .stksave)

/-- STKLOAD (R334). -/
def execStkload (c : Nat) (s : State) : Host.Outcome State Fault Refusal := done (s.qRow c .stkload)

/-- WFI (R347). -/
def execWfi (c : Nat) (s : State) : Host.Outcome State Fault Refusal := done (s.qRow c .wfi)

end Sys2Proof.Machine
end

