-- ==== Sys2Proof/Machine/Dispatch.lean ====
section
/-! DEFINITION. The dispatch: one arm per command. -/

namespace Sys2Proof.Machine

/-- The effect of a command on everything but the queue. -/
def exec (i : Instr) (s : State) : Host.Outcome State Fault Refusal :=
  match i with
  | .frameTick => Sys2Proof.Machine.execFrameTick s
  | .fsyncInChange change => Sys2Proof.Machine.execFsyncInChange change s
  | .genlockEdge => Sys2Proof.Machine.execGenlockEdge s
  | .genlockHoldover => Sys2Proof.Machine.execGenlockHoldover s
  | .tickRun run => Sys2Proof.Machine.execTickRun run s
  | .tickSrc src => Sys2Proof.Machine.execTickSrc src s
  | .resync => Sys2Proof.Machine.execResync s
  | .tickPeriodWrite frac v => Sys2Proof.Machine.execTickPeriodWrite frac v s
  | .lineTick n => Sys2Proof.Machine.execLineTick n s
  | .vpllLock k => Sys2Proof.Machine.execVpllLock k s
  | .vpllUnlock k => Sys2Proof.Machine.execVpllUnlock k s
  | .vpllMultWrite k v => Sys2Proof.Machine.execVpllMultWrite k v s
  | .vpllCtrlWrite k v => Sys2Proof.Machine.execVpllCtrlWrite k v s
  | .engineEnable n v => Sys2Proof.Machine.execEngineEnable n v s
  | .rasterWrite n r v => Sys2Proof.Machine.execRasterWrite n r v s
  | .composeStart n => Sys2Proof.Machine.execComposeStart n s
  | .lineComplete n => Sys2Proof.Machine.execLineComplete n s
  | .spillRelax n => Sys2Proof.Machine.execSpillRelax n s
  | .schedLoad n => Sys2Proof.Machine.execSchedLoad n s
  | .schedCommit n => Sys2Proof.Machine.execSchedCommit n s
  | .schedDrop n => Sys2Proof.Machine.execSchedDrop n s
  | .schedCheckDone n => Sys2Proof.Machine.execSchedCheckDone n s
  | .llEnd n => Sys2Proof.Machine.execLlEnd n s
  | .llLine n k => Sys2Proof.Machine.execLlLine n k s
  | .llWreg n off v => Sys2Proof.Machine.execLlWreg n off v s
  | .llWblk n off vals => Sys2Proof.Machine.execLlWblk n off vals s
  | .llPal n p first cnt addr => Sys2Proof.Machine.execLlPal n p first cnt addr s
  | .llScroll n t wx wy x y => Sys2Proof.Machine.execLlScroll n t wx wy x y s
  | .llAffine n t a b c d x0 y0 => Sys2Proof.Machine.execLlAffine n t a b c d x0 y0 s
  | .llOrder n j => Sys2Proof.Machine.execLlOrder n j s
  | .llSndStart n voice preset => Sys2Proof.Machine.execLlSndStart n voice preset s
  | .llSndRelease n voice => Sys2Proof.Machine.execLlSndRelease n voice s
  | .llSndStop n voice => Sys2Proof.Machine.execLlSndStop n voice s
  | .llSig n j => Sys2Proof.Machine.execLlSig n j s
  | .llWaitx n x => Sys2Proof.Machine.execLlWaitx n x s
  | .llNop n => Sys2Proof.Machine.execLlNop n s
  | .llReadError n cause => Sys2Proof.Machine.execLlReadError n cause s
  | .fetchPoison n k e => Sys2Proof.Machine.execFetchPoison n k e s
  | .palData0Write n v => Sys2Proof.Machine.execPalData0Write n v s
  | .palData0Read n => Sys2Proof.Machine.execPalData0Read n s
  | .palData1Write n v => Sys2Proof.Machine.execPalData1Write n v s
  | .palData1Read n => Sys2Proof.Machine.execPalData1Read n s
  | .tcInvalidate n => Sys2Proof.Machine.execTcInvalidate n s
  | .ocInvalidate n => Sys2Proof.Machine.execOcInvalidate n s
  | .objPoolWrite ix w v => Sys2Proof.Machine.execObjPoolWrite ix w v s
  | .objLoadStart first countM1 => Sys2Proof.Machine.execObjLoadStart first countM1 s
  | .objLoadWrite => Sys2Proof.Machine.execObjLoadWrite s
  | .objLoadError cause => Sys2Proof.Machine.execObjLoadError cause s
  | .objDiscard => Sys2Proof.Machine.execObjDiscard s
  | .objLineStart n => Sys2Proof.Machine.execObjLineStart n s
  | .objLineDone n => Sys2Proof.Machine.execObjLineDone n s
  | .objSourcePoison n e => Sys2Proof.Machine.execObjSourcePoison n e s
  | .flipReq n b v => Sys2Proof.Machine.execFlipReq n b v s
  | .flipCancel n b => Sys2Proof.Machine.execFlipCancel n b s
  | .flipStall n b => Sys2Proof.Machine.execFlipStall n b s
  | .lutData0Write p v => Sys2Proof.Machine.execLutData0Write p v s
  | .lutData0Read p => Sys2Proof.Machine.execLutData0Read p s
  | .lutData1Write p v => Sys2Proof.Machine.execLutData1Write p v s
  | .lutData1Read p => Sys2Proof.Machine.execLutData1Read p s
  | .pldTblWrite b ix w v => Sys2Proof.Machine.execPldTblWrite b ix w v s
  | .pldCheck => Sys2Proof.Machine.execPldCheck s
  | .pldCheckDone => Sys2Proof.Machine.execPldCheckDone s
  | .pldRefreshAll => Sys2Proof.Machine.execPldRefreshAll s
  | .polderFreeze ix => Sys2Proof.Machine.execPolderFreeze ix s
  | .staticEnter ix => Sys2Proof.Machine.execStaticEnter ix s
  | .staticRefresh ix => Sys2Proof.Machine.execStaticRefresh ix s
  | .wardEnable en => Sys2Proof.Machine.execWardEnable en s
  | .watchEnd => Sys2Proof.Machine.execWatchEnd s
  | .wardenConfirm => Sys2Proof.Machine.execWardenConfirm s
  | .wardRelease => Sys2Proof.Machine.execWardRelease s
  | .wardFenceClear mask => Sys2Proof.Machine.execWardFenceClear mask s
  | .pvwEnable n en => Sys2Proof.Machine.execPvwEnable n en s
  | .hpdPlug n => Sys2Proof.Machine.execHpdPlug n s
  | .hpdLowTimeout n => Sys2Proof.Machine.execHpdLowTimeout n s
  | .irqHpd n lockLost => Sys2Proof.Machine.execIrqHpd n lockLost s
  | .dpTrainDone n ok rate lanes => Sys2Proof.Machine.execDpTrainDone n ok rate lanes s
  | .dpTrainRetry n => Sys2Proof.Machine.execDpTrainRetry n s
  | .auxGo n v => Sys2Proof.Machine.execAuxGo n v s
  | .auxDone n result bytes => Sys2Proof.Machine.execAuxDone n result bytes s
  | .blockLock l => Sys2Proof.Machine.execBlockLock l s
  | .blockLockLoss l => Sys2Proof.Machine.execBlockLockLoss l s
  | .trainSend l => Sys2Proof.Machine.execTrainSend l s
  | .train l locked seen version => Sys2Proof.Machine.execTrain l locked seen version s
  | .idle l => Sys2Proof.Machine.execIdle l s
  | .sor l => Sys2Proof.Machine.execSor l s
  | .ack l next => Sys2Proof.Machine.execAck l next s
  | .nak l next => Sys2Proof.Machine.execNak l next s
  | .flow l stop => Sys2Proof.Machine.execFlow l stop s
  | .echoReq l tag => Sys2Proof.Machine.execEchoReq l tag s
  | .echoRsp l tag turn => Sys2Proof.Machine.execEchoRsp l tag turn s
  | .lcbErr l => Sys2Proof.Machine.execLcbErr l s
  | .badCell l cut => Sys2Proof.Machine.execBadCell l cut s
  | .cellPixel l seq mode addr w1 w2 w3 pay => Sys2Proof.Machine.execCellPixel l seq mode addr w1 w2 w3 pay s
  | .cellTick l seq mode addr w1 w2 w3 pay => Sys2Proof.Machine.execCellTick l seq mode addr w1 w2 w3 pay s
  | .cellCfgWr l seq mode addr w1 w2 w3 pay => Sys2Proof.Machine.execCellCfgWr l seq mode addr w1 w2 w3 pay s
  | .cellCfgRd l seq mode addr w1 w2 w3 pay => Sys2Proof.Machine.execCellCfgRd l seq mode addr w1 w2 w3 pay s
  | .cellCfgRsp l seq mode addr w1 w2 w3 pay => Sys2Proof.Machine.execCellCfgRsp l seq mode addr w1 w2 w3 pay s
  | .cellDisc l seq mode addr w1 w2 w3 pay => Sys2Proof.Machine.execCellDisc l seq mode addr w1 w2 w3 pay s
  | .cellDiscRsp l seq mode addr w1 w2 w3 pay => Sys2Proof.Machine.execCellDiscRsp l seq mode addr w1 w2 w3 pay s
  | .cellTelem l seq mode addr w1 w2 w3 pay => Sys2Proof.Machine.execCellTelem l seq mode addr w1 w2 w3 pay s
  | .cellAuth l seq mode addr w1 w2 w3 pay => Sys2Proof.Machine.execCellAuth l seq mode addr w1 w2 w3 pay s
  | .cellAuthRsp l seq mode addr w1 w2 w3 pay => Sys2Proof.Machine.execCellAuthRsp l seq mode addr w1 w2 w3 pay s
  | .cellNote l seq mode addr w1 w2 w3 pay => Sys2Proof.Machine.execCellNote l seq mode addr w1 w2 w3 pay s
  | .retryTimeout l => Sys2Proof.Machine.execRetryTimeout l s
  | .nakRepeat l => Sys2Proof.Machine.execNakRepeat l s
  | .ackTimer l => Sys2Proof.Machine.execAckTimer l s
  | .flowRepeat l => Sys2Proof.Machine.execFlowRepeat l s
  | .flowTimeout l => Sys2Proof.Machine.execFlowTimeout l s
  | .echoPeriod l => Sys2Proof.Machine.execEchoPeriod l s
  | .cellSend l => Sys2Proof.Machine.execCellSend l s
  | .pixelHoldEnd p => Sys2Proof.Machine.execPixelHoldEnd p s
  | .retrain p => Sys2Proof.Machine.execRetrain p s
  | .portEnable p en => Sys2Proof.Machine.execPortEnable p en s
  | .portStopDone p => Sys2Proof.Machine.execPortStopDone p s
  | .plkPresWrite v => Sys2Proof.Machine.execPlkPresWrite v s
  | .tilePresent k => Sys2Proof.Machine.execTilePresent k s
  | .tileReady k => Sys2Proof.Machine.execTileReady k s
  | .telemSend k => Sys2Proof.Machine.execTelemSend k s
  | .discTimeout p => Sys2Proof.Machine.execDiscTimeout p s
  | .readyTimeout p => Sys2Proof.Machine.execReadyTimeout p s
  | .patrol p => Sys2Proof.Machine.execPatrol p s
  | .redisc p => Sys2Proof.Machine.execRedisc p s
  | .challengeTimeout k => Sys2Proof.Machine.execChallengeTimeout k s
  | .verifyDone => Sys2Proof.Machine.execVerifyDone s
  | .signDone => Sys2Proof.Machine.execSignDone s
  | .rebalance a => Sys2Proof.Machine.execRebalance a s
  | .telemStale k => Sys2Proof.Machine.execTelemStale k s
  | .bltQEnable q v => Sys2Proof.Machine.execBltQEnable q v s
  | .bltTailWrite q v => Sys2Proof.Machine.execBltTailWrite q v s
  | .bltNop q => Sys2Proof.Machine.execBltNop q s
  | .bltDraw q => Sys2Proof.Machine.execBltDraw q s
  | .bltWaitFence q => Sys2Proof.Machine.execBltWaitFence q s
  | .fenceWaitDone q => Sys2Proof.Machine.execFenceWaitDone q s
  | .bltWaitTick q => Sys2Proof.Machine.execBltWaitTick q s
  | .bltFence q => Sys2Proof.Machine.execBltFence q s
  | .bltDone => Sys2Proof.Machine.execBltDone s
  | .watermark => Sys2Proof.Machine.execWatermark s
  | .bltExecError => Sys2Proof.Machine.execBltExecError s
  | .sramWriteback a => Sys2Proof.Machine.execSramWriteback a s
  | .sramMergeFlush a => Sys2Proof.Machine.execSramMergeFlush a s
  | .hbmRmwFlush a => Sys2Proof.Machine.execHbmRmwFlush a s
  | .scrubBlock => Sys2Proof.Machine.execScrubBlock s
  | .scrubWindow => Sys2Proof.Machine.execScrubWindow s
  | .memLogPop v => Sys2Proof.Machine.execMemLogPop v s
  | .dmaEnable n v => Sys2Proof.Machine.execDmaEnable n v s
  | .dmaDescFetch n => Sys2Proof.Machine.execDmaDescFetch n s
  | .dmaTrigger n => Sys2Proof.Machine.execDmaTrigger n s
  | .dmaBurst => Sys2Proof.Machine.execDmaBurst s
  | .dmaDescDone n abort => Sys2Proof.Machine.execDmaDescDone n abort s
  | .dmaPause n pause => Sys2Proof.Machine.execDmaPause n pause s
  | .dmaPauseDrained n => Sys2Proof.Machine.execDmaPauseDrained n s
  | .dmaAbort hi v => Sys2Proof.Machine.execDmaAbort hi v s
  | .dmaError n => Sys2Proof.Machine.execDmaError n s
  | .sampleBoundary late => Sys2Proof.Machine.execSampleBoundary late s
  | .voiceEnable v w => Sys2Proof.Machine.execVoiceEnable v w s
  | .voiceKill v => Sys2Proof.Machine.execVoiceKill v s
  | .toneEnable c v => Sys2Proof.Machine.execToneEnable c v s
  | .toneKill c => Sys2Proof.Machine.execToneKill c s
  | .presetRead => Sys2Proof.Machine.execPresetRead s
  | .audTrigStart voice preset => Sys2Proof.Machine.execAudTrigStart voice preset s
  | .audTrigRelease voice => Sys2Proof.Machine.execAudTrigRelease voice s
  | .audTrigStop voice => Sys2Proof.Machine.execAudTrigStop voice s
  | .sendWrite src k v => Sys2Proof.Machine.execSendWrite src k v s
  | .eqApply b mask => Sys2Proof.Machine.execEqApply b mask s
  | .tdmOutEnable p v => Sys2Proof.Machine.execTdmOutEnable p v s
  | .tdmInEnable ix v => Sys2Proof.Machine.execTdmInEnable ix v s
  | .tdmInFrame ix vals => Sys2Proof.Machine.execTdmInFrame ix vals s
  | .tdmInLock ix => Sys2Proof.Machine.execTdmInLock ix s
  | .inUnlock ix => Sys2Proof.Machine.execInUnlock ix s
  | .add c => Sys2Proof.Machine.execAdd c s
  | .sub c => Sys2Proof.Machine.execSub c s
  | .and c => Sys2Proof.Machine.execAnd c s
  | .or c => Sys2Proof.Machine.execOr c s
  | .xor c => Sys2Proof.Machine.execXor c s
  | .nor c => Sys2Proof.Machine.execNor c s
  | .slt c => Sys2Proof.Machine.execSlt c s
  | .sltu c => Sys2Proof.Machine.execSltu c s
  | .sll c => Sys2Proof.Machine.execSll c s
  | .srl c => Sys2Proof.Machine.execSrl c s
  | .sra c => Sys2Proof.Machine.execSra c s
  | .slli c => Sys2Proof.Machine.execSlli c s
  | .srli c => Sys2Proof.Machine.execSrli c s
  | .srai c => Sys2Proof.Machine.execSrai c s
  | .min c => Sys2Proof.Machine.execMin c s
  | .max c => Sys2Proof.Machine.execMax c s
  | .minu c => Sys2Proof.Machine.execMinu c s
  | .maxu c => Sys2Proof.Machine.execMaxu c s
  | .clz c => Sys2Proof.Machine.execClz c s
  | .mul c => Sys2Proof.Machine.execMul c s
  | .mulh c => Sys2Proof.Machine.execMulh c s
  | .mulhu c => Sys2Proof.Machine.execMulhu c s
  | .div c => Sys2Proof.Machine.execDiv c s
  | .divu c => Sys2Proof.Machine.execDivu c s
  | .rem c => Sys2Proof.Machine.execRem c s
  | .remu c => Sys2Proof.Machine.execRemu c s
  | .jr c => Sys2Proof.Machine.execJr c s
  | .callr c => Sys2Proof.Machine.execCallr c s
  | .ret c => Sys2Proof.Machine.execRet c s
  | .addi c => Sys2Proof.Machine.execAddi c s
  | .slti c => Sys2Proof.Machine.execSlti c s
  | .sltiu c => Sys2Proof.Machine.execSltiu c s
  | .andi c => Sys2Proof.Machine.execAndi c s
  | .ori c => Sys2Proof.Machine.execOri c s
  | .xori c => Sys2Proof.Machine.execXori c s
  | .lui c => Sys2Proof.Machine.execLui c s
  | .beq c => Sys2Proof.Machine.execBeq c s
  | .bne c => Sys2Proof.Machine.execBne c s
  | .blt c => Sys2Proof.Machine.execBlt c s
  | .bge c => Sys2Proof.Machine.execBge c s
  | .bltu c => Sys2Proof.Machine.execBltu c s
  | .bgeu c => Sys2Proof.Machine.execBgeu c s
  | .ld c => Sys2Proof.Machine.execLd c s
  | .ldu c => Sys2Proof.Machine.execLdu c s
  | .st c => Sys2Proof.Machine.execSt c s
  | .lr c => Sys2Proof.Machine.execLr c s
  | .sc c => Sys2Proof.Machine.execSc c s
  | .tas c => Sys2Proof.Machine.execTas c s
  | .jmp c => Sys2Proof.Machine.execJmp c s
  | .call c => Sys2Proof.Machine.execCall c s
  | .beqz c => Sys2Proof.Machine.execBeqz c s
  | .bnez c => Sys2Proof.Machine.execBnez c s
  | .bltz c => Sys2Proof.Machine.execBltz c s
  | .bgez c => Sys2Proof.Machine.execBgez c s
  | .mfs c => Sys2Proof.Machine.execMfs c s
  | .mts c => Sys2Proof.Machine.execMts c s
  | .eret c => Sys2Proof.Machine.execEret c s
  | .trap c => Sys2Proof.Machine.execTrap c s
  | .brk c => Sys2Proof.Machine.execBrk c s
  | .syncI c => Sys2Proof.Machine.execSyncI c s
  | .drain c => Sys2Proof.Machine.execDrain c s
  | .stksave c => Sys2Proof.Machine.execStksave c s
  | .stkload c => Sys2Proof.Machine.execStkload c s
  | .wfi c => Sys2Proof.Machine.execWfi c s
  | .interruptEntry c => Sys2Proof.Machine.execInterruptEntry c s
  | .storeAck c => Sys2Proof.Machine.execStoreAck c s
  | .storeBus c => Sys2Proof.Machine.execStoreBus c s
  | .dbgHalt c => Sys2Proof.Machine.execDbgHalt c s
  | .dbgResume c => Sys2Proof.Machine.execDbgResume c s
  | .dbgStep c => Sys2Proof.Machine.execDbgStep c s
  | .breakpoint c => Sys2Proof.Machine.execBreakpoint c s
  | .coreReset c v => Sys2Proof.Machine.execCoreReset c v s
  | .irqClaim c => Sys2Proof.Machine.execIrqClaim c s
  | .irqPeek c => Sys2Proof.Machine.execIrqPeek c s
  | .irqEoi c => Sys2Proof.Machine.execIrqEoi c s
  | .irqSwi v => Sys2Proof.Machine.execIrqSwi v s
  | .irqClr n => Sys2Proof.Machine.execIrqClr n s
  | .wakeEvent => Sys2Proof.Machine.execWakeEvent s
  | .slcCommit v => Sys2Proof.Machine.execSlcCommit v s
  | .slcCheckDone => Sys2Proof.Machine.execSlcCheckDone s
  | .slcSwev v => Sys2Proof.Machine.execSlcSwev v s
  | .slcLock n v => Sys2Proof.Machine.execSlcLock n v s
  | .pmxWrite p v => Sys2Proof.Machine.execPmxWrite p v s
  | .pinChange p d => Sys2Proof.Machine.execPinChange p d s
  | .pinFilterExpire p => Sys2Proof.Machine.execPinFilterExpire p s
  | .gpioFlagClear b v => Sys2Proof.Machine.execGpioFlagClear b v s
  | .gpioTask p => Sys2Proof.Machine.execGpioTask p s
  | .bankSense b v33 => Sys2Proof.Machine.execBankSense b v33 s
  | .gpioRelease v => Sys2Proof.Machine.execGpioRelease v s
  | .clvEnable n v => Sys2Proof.Machine.execClvEnable n v s
  | .clvRestart n => Sys2Proof.Machine.execClvRestart n s
  | .clvCycle n => Sys2Proof.Machine.execClvCycle n s
  | .clvNop n => Sys2Proof.Machine.execClvNop n s
  | .emit n => Sys2Proof.Machine.execEmit n s
  | .sample n => Sys2Proof.Machine.execSample n s
  | .fetch n => Sys2Proof.Machine.execFetch n s
  | .deposit n => Sys2Proof.Machine.execDeposit n s
  | .ldca n => Sys2Proof.Machine.execLdca n s
  | .ldcb n => Sys2Proof.Machine.execLdcb n s
  | .decc n => Sys2Proof.Machine.execDecc n s
  | .clvTxdata n v => Sys2Proof.Machine.execClvTxdata n v s
  | .clvRxdataRead n core => Sys2Proof.Machine.execClvRxdataRead n core s
  | .clvTrigger n => Sys2Proof.Machine.execClvTrigger n s
  | .clvProgWrite n ix hi v => Sys2Proof.Machine.execClvProgWrite n ix hi v s
  | .tmrEnable n v => Sys2Proof.Machine.execTmrEnable n v s
  | .countClock n => Sys2Proof.Machine.execCountClock n s
  | .periodEvent n => Sys2Proof.Machine.execPeriodEvent n s
  | .compareMatch n k => Sys2Proof.Machine.execCompareMatch n k s
  | .captureRise n => Sys2Proof.Machine.execCaptureRise n s
  | .captureFall n => Sys2Proof.Machine.execCaptureFall n s
  | .tmrTaskClear n => Sys2Proof.Machine.execTmrTaskClear n s
  | .tmrTaskEnable n => Sys2Proof.Machine.execTmrTaskEnable n s
  | .periodHiWrite n v => Sys2Proof.Machine.execPeriodHiWrite n v s
  | .countHiWrite n v => Sys2Proof.Machine.execCountHiWrite n v s
  | .cmpHiWrite n k v => Sys2Proof.Machine.execCmpHiWrite n k v s
  | .countLoRead n => Sys2Proof.Machine.execCountLoRead n s
  | .caprLoRead n => Sys2Proof.Machine.execCaprLoRead n s
  | .capfLoRead n => Sys2Proof.Machine.execCapfLoRead n s
  | .nonceReq k => Sys2Proof.Machine.execNonceReq k s
  | .open k => Sys2Proof.Machine.execOpen k s
  | .close k => Sys2Proof.Machine.execClose k s
  | .ping k => Sys2Proof.Machine.execPing k s
  | .attest k => Sys2Proof.Machine.execAttest k s
  | .otpProgram k => Sys2Proof.Machine.execOtpProgram k s
  | .otpRevoke k => Sys2Proof.Machine.execOtpRevoke k s
  | .rollback k => Sys2Proof.Machine.execRollback k s
  | .provision k => Sys2Proof.Machine.execProvision k s
  | .advance req => Sys2Proof.Machine.execAdvance req s
  | .otpBitDone fails => Sys2Proof.Machine.execOtpBitDone fails s
  | .trngFail => Sys2Proof.Machine.execTrngFail s
  | .trngRetest pass => Sys2Proof.Machine.execTrngRetest pass s
  | .sessionTimeout ix => Sys2Proof.Machine.execSessionTimeout ix s
  | .sessClose ix => Sys2Proof.Machine.execSessClose ix s
  | .nonceExpire => Sys2Proof.Machine.execNonceExpire s
  | .porstN => Sys2Proof.Machine.execPorstN s
  | .porstRelease size mode => Sys2Proof.Machine.execPorstRelease size mode s
  | .hbmTrainDone height => Sys2Proof.Machine.execHbmTrainDone height s
  | .sectionLoaded => Sys2Proof.Machine.execSectionLoaded s
  | .listWrite => Sys2Proof.Machine.execListWrite s
  | .listWait => Sys2Proof.Machine.execListWait s
  | .listWaitTimeout => Sys2Proof.Machine.execListWaitTimeout s
  | .listDelay => Sys2Proof.Machine.execListDelay s
  | .listEnd => Sys2Proof.Machine.execListEnd s
  | .sbyEnter v => Sys2Proof.Machine.execSbyEnter v s
  | .sbyCutoff => Sys2Proof.Machine.execSbyCutoff s
  | .sbySelfRefresh => Sys2Proof.Machine.execSbySelfRefresh s
  | .sbyReached => Sys2Proof.Machine.execSbyReached s
  | .wakeHbm ok => Sys2Proof.Machine.execWakeHbm ok s
  | .wakeRestore => Sys2Proof.Machine.execWakeRestore s
  | .wakePorts => Sys2Proof.Machine.execWakePorts s
  | .wakeFirstTick => Sys2Proof.Machine.execWakeFirstTick s
  | .errNPulseEnd => Sys2Proof.Machine.execErrNPulseEnd s
  | .quietExpire => Sys2Proof.Machine.execQuietExpire s
  | .fltAck v => Sys2Proof.Machine.execFltAck v s
  | .fltRecover v => Sys2Proof.Machine.execFltRecover v s
  | .fltAutoWrite v => Sys2Proof.Machine.execFltAutoWrite v s
  | .fltLock v => Sys2Proof.Machine.execFltLock v s
  | .fltLogPop v => Sys2Proof.Machine.execFltLogPop v s
  | .tempMeasure t => Sys2Proof.Machine.execTempMeasure t s
  | .thermtrip => Sys2Proof.Machine.execThermtrip s
  | .pcieLinkChange up speed width l1 bme msixEn fmask => Sys2Proof.Machine.execPcieLinkChange up speed width l1 bme msixEn fmask s
  | .pmChange d3 bme msixEn fmask => Sys2Proof.Machine.execPmChange d3 bme msixEn fmask s
  | .bar0BadAccess wr => Sys2Proof.Machine.execBar0BadAccess wr s
  | .bar2Access wr off n bytes => Sys2Proof.Machine.execBar2Access wr off n bytes s
  | .mbDoorbell v => Sys2Proof.Machine.execMbDoorbell v s
  | .flashErase k => Sys2Proof.Machine.execFlashErase k s
  | .flashWrite k => Sys2Proof.Machine.execFlashWrite k s
  | .flashRead k => Sys2Proof.Machine.execFlashRead k s
  | .deviceReset k => Sys2Proof.Machine.execDeviceReset k s
  | .deviceResetEffect => Sys2Proof.Machine.execDeviceResetEffect s
  | .fwCommand k => Sys2Proof.Machine.execFwCommand k s
  | .fwDone v => Sys2Proof.Machine.execFwDone v s
  | .cqEntryWrite => Sys2Proof.Machine.execCqEntryWrite s
  | .cqHeadWrite q v => Sys2Proof.Machine.execCqHeadWrite q v s
  | .cqModTimer q => Sys2Proof.Machine.execCqModTimer q s
  | .msixUnmask v => Sys2Proof.Machine.execMsixUnmask v s
  | .outboundTimeout req => Sys2Proof.Machine.execOutboundTimeout req s
  | .regWrite req off val => Sys2Proof.Machine.execRegWrite req off val s
  | .cellClockEdge => Sys2Proof.Machine.execCellClockEdge s
  | .tickOutEnd => Sys2Proof.Machine.execTickOutEnd s
  | .hpdLow n => Sys2Proof.Machine.execHpdLow n s
  | .railLoss => Sys2Proof.Machine.execRailLoss s
  | .illegal c => Sys2Proof.Machine.execIllegal c s
  | .fetchException c => Sys2Proof.Machine.execFetchException c s

end Sys2Proof.Machine
end

