-- ==== Sys2Proof/Machine/Step.lean ====
section
/-! DEFINITION. The step: the command at the front of the queue runs; on an empty queue one ECLK cycle passes
(log 2). -/

namespace Sys2Proof.Machine

/-- The state after an idle ECLK cycle (log 2): the Sluice follows the clock (R371). -/
def State.idleCycle (s : State) : State := ({ s with now := s.now + 1 } : State).settle

/-- Take the command at the front of the queue and run it with the queue's rest; idle where none waits. -/
def step (s : State) : Host.Outcome State Fault Refusal :=
  match s.pending with
  | [] => .next s.idleCycle
  | c :: rest => exec c { s with pending := rest }

/-- The state with the command that a table word spells in front of the queue; unchanged where it spells none. -/
def State.withFetchWord (s : State) (nbits w : Nat) : State :=
  match Sys2Proof.decodeTableWord nbits w with
  | some c => { s with pending := c :: s.pending }
  | none => s

end Sys2Proof.Machine
end

