-- ==== Sys2Proof/Safety.lean ====
section
/-! DEFINITION. What counts as a safe run, in the terms the statements use: which effect a command leaves, and what the
end of every command may add to it. -/

namespace Sys2Proof.Machine

/-- Memory keeps its canonical form: rising addresses, no entry equal to what an unlisted address reads as. -/
abbrev Memory.wf (m : List Host.Cell) : Bool := Tbl.wf (0#8) m

/-- The entries of a merge buffer of `w`-byte blocks: per port distinct aligned addresses, no byte held for two ports, and
fewer than `w` bytes each, by rising place in the block (R269, R274, R327). -/
def mergeOk (w : Nat) (l : List MergeE) : Prop :=
  (l.map (fun e => (e.addr, e.port))).Nodup ∧
    (∀ e ∈ l, ∀ d ∈ l, e.addr = d.addr → e.port ≠ d.port → ∀ x ∈ e.bytes, ∀ y ∈ d.bytes, x.1 ≠ y.1) ∧
    ∀ e ∈ l, e.addr % w = 0 ∧ Tbl.rising e.bytes = true ∧ e.bytes.length < w ∧ ∀ x ∈ e.bytes, x.1 < w

/-- Both merge buffers are as writes leave them, each over its own memory, and no stored symbol is wrong nor is one about to
be made wrong (R271, R268, R281). -/
def State.CleanMemory (s : State) : Prop :=
  mergeOk 32 s.memc.rmw ∧ mergeOk 8 s.memc.merge ∧ (∀ e ∈ s.memc.rmw, regionOf s.gib e.addr = .hbm) ∧
    (∀ e ∈ s.memc.merge, ∃ p, regionOf s.gib e.addr = .sram p) ∧ s.memc.hbmErr = [] ∧ s.memc.sramErr = [] ∧
    s.on F.MEM_INJ_CTRL.ARM = false

/-- The address names HBM that answers, or on-chip SRAM (R259, R517). -/
def State.Stores (s : State) (a : Nat) : Prop :=
  (regionOf s.gib a = .hbm ∧ s.hbmOpen = true) ∨ ∃ p, regionOf s.gib a = .sram p

/-- No fault waits to be taken, no Sluice pulse waits to rise, and nothing in a configured fabric is due: how every command
leaves the state (R362, R371, R463). -/
def State.Calm (s : State) : Prop :=
  s.raised = [] ∧ s.slc.pulse = [] ∧ (s.slc.act = [] ∨ s.slcNext.all (fun u => decide (s.now < u)) = true)

/-- The registers that hold COUNT of an interrupt source (R353), COLLIDE of a Sluice channel (R368), the fault unit's
state, class, log and counts (R461-R466, R473), and FLT_RECOV, where a fault of the same cycle undoes a recovery (R469). -/
def quietOff (o : Nat) : Bool :=
  (decide (0x5004 ≤ o) && decide (o ≤ 0x5548)) || (decide (0x3104 ≤ o) && decide (o ≤ 0x32FC)) || o == 0x2004 || o == 0x2010 || o == 0x2040 || o == 0x201C ||
    (decide (0x2404 ≤ o) && decide (o ≤ 0x2634) && decide ((o - 0x2404) % 8 = 0))

/-- The bits of them that interrupts, channels and faults change. -/
def quietBit (o i : Nat) : Bool :=
  ((decide (0x5004 ≤ o) && decide (o ≤ 0x5548)) && (decide (8 ≤ i) && decide (i < 16))) ||
    ((decide (0x3104 ≤ o) && decide (o ≤ 0x32FC)) && i == 16) ||
    (o == 0x2004 && decide (i < 3)) || (o == 0x2010 && decide (i < 24)) || (o == 0x2040 && decide (i < 7)) || (o == 0x201C && decide (i < 16)) ||
    ((decide (0x2404 ≤ o) && decide (o ≤ 0x2634) && decide ((o - 0x2404) % 8 = 0)) && decide (i < 8))

/-- `t` differs from `s` at most in what interrupts, the Sluice and the taking of faults change: COUNT of the interrupt
sources, COLLIDE, the Sluice's own state, the fault unit, and the wake watcher's list. -/
structure State.Quiet (s t : State) : Prop where
  now : t.now = s.now
  gib : t.gib = s.gib
  ovr : t.ovr = s.ovr
  mem : t.mem = s.mem
  freeCnt : t.freeCnt = s.freeCnt
  sent : t.sent = s.sent
  tick : t.tick = s.tick
  eng : t.eng = s.eng
  obj : t.obj = s.obj
  pld : t.pld = s.pld
  ward : t.ward = s.ward
  pvw : t.pvw = s.pvw
  lane : t.lane = s.lane
  port : t.port = s.port
  tile : t.tile = s.tile
  chain : t.chain = s.chain
  sec : t.sec = s.sec
  memc : t.memc = s.memc
  blt : t.blt = s.blt
  dma : t.dma = s.dma
  dmaServed : t.dmaServed = s.dmaServed
  cores : t.cores = s.cores
  irqStk : t.irqStk = s.irqStk
  pin : t.pin = s.pin
  tickOut : t.tickOut = s.tickOut
  clv : t.clv = s.clv
  tmr : t.tmr = s.tmr
  aud : t.aud = s.aud
  hst : t.hst = s.hst
  rdata : t.rdata = s.rdata
  pending : t.pending = s.pending
  boot : ∃ w, t.boot = { s.boot with wakeDue := w }
  reg : ∀ o, quietOff o = false → t.reg o = s.reg o
  bit : ∀ o i, i < 32 → quietBit o i = false → (t.reg o).testBit i = (s.reg o).testBit i

/-- Every register outside `ex` reads as before, up to what interrupts, the Sluice and the taking of faults change. -/
def RegsKept (s t : State) (ex : List Nat) : Prop := ∀ o, o ∉ ex → quietOff o = false → t.reg o = s.reg o

/-- The command runs, and a fact holds of the next state. -/
def Runs (c : Instr) (s : State) (P : State → Prop) : Prop := ∃ t, exec c s = .next t ∧ P t

/-- The command runs, and leaves `u` up to what interrupts, the Sluice and the taking of faults change. -/
def Leaves (c : Instr) (s u : State) : Prop := Runs c s (fun t => u.Quiet t)

/-! ### Cores -/

/-- The system registers of a core but for its return stack are those it had (R351). -/
def CoreS.Kept (x y : CoreS) : Prop :=
  y.status = x.status ∧ y.epc = x.epc ∧ y.cause = x.cause ∧ y.badaddr = x.badaddr ∧ y.vbase = x.vbase ∧
    y.scratch0 = x.scratch0 ∧ y.scratch1 = x.scratch1 ∧ y.win = x.win

/-- The cycle at which the instruction of core `c` starts that a command runs now (log 2). -/
def State.start (s : State) (c : Nat) : Nat := ((s.coreReach c).coreS c).next

/-- Every core but `c` is as it was. -/
def OthersKept (s t : State) (c : Nat) : Prop := ∀ d, d ≠ c → t.coreS d = s.coreS d

/-- Core `c` writes rd of word `w` with `v` and goes on at PC + 4 after `n` cycles; nothing else of the core changes but
what it has fetched (R331). -/
def Sets (i : Instr) (s : State) (c w v n : Nat) : Prop := Runs i s (fun t =>
  (∀ j, t.gpr c j = if j = qRd w ∧ j ≠ 0 then v else s.gpr c j) ∧
  (t.coreS c).pc = ((s.coreS c).pc + 4) % 2 ^ 32 ∧ (t.coreS c).next = s.start c + n ∧ (s.coreS c).Kept (t.coreS c) ∧
  (t.coreS c).stack = (s.coreS c).stack ∧ (t.coreS c).sb = (s.coreS c).sb ∧ OthersKept s t c ∧ t.mem = s.mem)

/-- Core `c` transfers to `a` in `n` cycles with return stack `st`; nothing else of the core changes but what it has
fetched (R333, R334). -/
def Goes (i : Instr) (s : State) (c a n : Nat) (st : List Nat) : Prop := Runs i s (fun t =>
  (∀ j, t.gpr c j = s.gpr c j) ∧ (t.coreS c).pc = a / 4 * 4 ∧ (t.coreS c).next = s.start c + n ∧
  (s.coreS c).Kept (t.coreS c) ∧ (t.coreS c).stack = st ∧ (t.coreS c).sb = (s.coreS c).sb ∧ OthersKept s t c ∧
  t.mem = s.mem)

/-- Core `c` enters an exception or interrupt (R345): `code`, the saved PC, BADADDR where the exception sets it, the
vector's offset. -/
def Enters (i : Instr) (s : State) (c code epc : Nat) (bad : Option Nat) (vec : Nat) : Prop := Runs i s (fun t =>
  (t.coreS c).epc = epc ∧ (t.coreS c).cause % 256 = code ∧ t.rd (F.CPUn_STATUS.LAST_CODE c) = code ∧
  (t.coreS c).badaddr = bad.getD (s.coreS c).badaddr ∧
  (t.coreS c).status.testBit 0 = false ∧ (t.coreS c).status.testBit 1 = (s.coreS c).status.testBit 0 ∧
  (t.coreS c).status.testBit 2 = true ∧ (t.coreS c).status.testBit 3 = (s.coreS c).status.testBit 3 ∧
  (t.coreS c).status.testBit 4 = (s.coreS c).status.testBit 4 ∧
  (t.coreS c).pc = ((s.coreS c).vbase + vec) / 4 * 4 ∧ Tbl.find t.memc.resv c = none ∧ (∀ j, t.gpr c j = s.gpr c j) ∧
  (t.coreS c).stack = (s.coreS c).stack ∧ (t.coreS c).vbase = (s.coreS c).vbase ∧ OthersKept s t c ∧ t.mem = s.mem)

/-- Core `c` halts on a double fault (R348). -/
def DoubleFaults (i : Instr) (s : State) (c : Nat) : Prop := Runs i s (fun t =>
  t.on (F.CPUn_STATUS.HALTED c) = true ∧ t.rd (F.CPUn_DBG_STATUS.HCAUSE c) = 5 ∧ (t.coreS c).pc = (s.coreS c).pc ∧
  (∀ j, t.gpr c j = s.gpr c j) ∧ (s.coreS c).Kept (t.coreS c) ∧ OthersKept s t c ∧ t.mem = s.mem)

/-! ### The command mailbox -/

/-- Between `s` and `t` the command in mailbox slot `k` was completed with RESULT DONE and the response `b`, envelope
included (R480, R481): the slot waits for its completion entry, or is DONE where its queue is disabled. -/
def State.Answered (s t : State) (k : Nat) (b : List Byte) : Prop :=
  t.mbBytes k 0x10 b.length = b ∧
  t.mbBytes k 4 4 = [0#8, 0#8, BitVec.ofNat 8 b.length, BitVec.ofNat 8 (b.length / 256)] ∧
  t.slotSt k = (if s.on (F.HST_CQq_CFG.EN (s.mbQueue k)) then 2 else 3) ∧ t.hst.exec = none ∧
  (∀ i, i / 256 ≠ k → t.mbWord i = s.mbWord i) ∧ t.mem = s.mem ∧ t.cores = s.cores

end Sys2Proof.Machine
end

