-- ==== Sys2Proof/Certificates/Slice0/Obligations.lean ====
section
/-! DEFINITION. The statements for the provers. Each is about commands as `exec` runs them; `Runs`, `Leaves` and their
like (Sys2Proof/Safety.lean) conclude that the command answers a next state. -/

open Sys2Proof Sys2Proof.Machine

/-- FSYNC_IN changes at the pin (R25): the synchroniser shows the new level 3 cycles later, or 3 or 4 where the change
falls within the sampling aperture; nothing else changes. A loop in LOCKED that has seen HOLD_N frames (0 acts as 1)
without an accepted edge enters HOLDOVER (R26). The filter of FSYNC_IN (R25) accepts a level FILT cycles after the
synchroniser first showed it, and its edge is stamped with that cycle. Where the edge is of the selected polarity
and SRC = 1 it reaches the loop (R26, R27): HOLDOVER becomes ACQUIRE with the edge beginning an interval; in ACQUIRE
it ends one, and four that qualify lock the loop at their mean; in LOCKED an edge is a MISS, or it is the expected
tick's and sets the phase error. The source of ticks (R21, R26, R28): SRC written 1 from 0 puts the loop into
ACQUIRE with its interval history cleared, SRC written 0 from 1 puts it into FREE, and RESYNC with SRC = 1 puts it
into ACQUIRE; with SRC = 0 RESYNC has no effect. -/
def Obligations.GenlockInput : Prop :=
  ((∀ (s : State) (level : Bool), s.tick.pinLevel ≠ level →
      Leaves (.fsyncInChange ⟨level, false⟩) s { s with tick := { s.tick with fsPipe := s.tick.fsPipe ++ [(s.now + 3, level)] } } ∧
      Runs (.fsyncInChange ⟨level, true⟩) s (fun t => t.regs = s.regs ∧ t.mem = s.mem ∧ t.cores = s.cores ∧
      t.eng = s.eng ∧
        (t.tick = { s.tick with fsPipe := s.tick.fsPipe ++ [(s.now + 3, level)] } ∨
          t.tick = { s.tick with fsPipe := s.tick.fsPipe ++ [(s.now + 4, level)] }))) ∧
    (∀ (s : State) (level aperture : Bool), s.tick.pinLevel = level → Leaves (.fsyncInChange ⟨level, aperture⟩) s s) ∧
    (∀ s : State, Leaves .genlockHoldover s
      (if s.rd F.ENG_TICK_STATUS.GLK_STATE = 2 ∧ max 1 (s.rd F.ENG_TICK_CTRL.HOLD_N) ≤ s.tick.framesNoEdge
       then s.wr F.ENG_TICK_STATUS.GLK_STATE 3 else s))) ∧
  (∀ s : State,
      let f := fsAccept (s.rd F.ENG_TICK_CTRL.FILT) s.tick.fsAccepted s.tick.fsPipe s.tick.fsLevel s.tick.fsChange
      (s.tick.fsPipe = [] → s.tick.fsLevel ≠ s.tick.fsAccepted → f = (some (s.tick.fsChange, s.tick.fsLevel), [])) ∧
      (f.1 = none → Leaves .genlockEdge s s) ∧
      (∀ e, f.1 = some e → Runs .genlockEdge s (fun t => t.tick.fsAccepted = e.2 ∧ t.tick.fsLevel = e.2 ∧
      t.tick.fsPipe = f.2 ∧
        t.now = max s.now (e.1 + s.rd F.ENG_TICK_CTRL.FILT) ∧ t.tick.frameCnt = s.tick.frameCnt ∧ t.mem = s.mem ∧
        t.cores = s.cores ∧
        (s.on F.ENG_TICK_CTRL.SRC = false ∨ e.2 = s.on F.ENG_TICK_CTRL.EDGE →
          t.rd F.ENG_TICK_STATUS.GLK_STATE = s.rd F.ENG_TICK_STATUS.GLK_STATE ∧ t.tick.hist = s.tick.hist ∧
          t.tick.lastEdge = s.tick.lastEdge ∧ t.tick.at_ = s.tick.at_) ∧
        (s.on F.ENG_TICK_CTRL.SRC = true → e.2 ≠ s.on F.ENG_TICK_CTRL.EDGE →
          (s.rd F.ENG_TICK_STATUS.GLK_STATE = 3 →
            t.rd F.ENG_TICK_STATUS.GLK_STATE = 1 ∧ t.tick.hist = [] ∧ t.tick.lastEdge = some (e.1, none)) ∧
          (s.rd F.ENG_TICK_STATUS.GLK_STATE = 1 → s.tick.lastEdge = none →
            t.rd F.ENG_TICK_STATUS.GLK_STATE = 1 ∧ t.tick.lastEdge = some (e.1, none)) ∧
          (s.rd F.ENG_TICK_STATUS.GLK_STATE = 1 → ∀ p, s.tick.lastEdge = some p →
            let h := ((e.1 - p.1) :: s.tick.hist).take 4
            t.tick.hist = h ∧ (s.boot.sby ≠ 6 → qualifies (s.rd F.ENG_GLK_WIN.WIN) h = true →
              t.rd F.ENG_TICK_STATUS.GLK_STATE = 2 ∧ t.rd F.ENG_GLK_PERIOD.PERIOD = mean h) ∧
            (s.boot.sby = 6 ∨ qualifies (s.rd F.ENG_GLK_WIN.WIN) h = false → t.rd F.ENG_TICK_STATUS.GLK_STATE = 1)) ∧
          (s.rd F.ENG_TICK_STATUS.GLK_STATE = 2 → t.rd F.ENG_TICK_STATUS.GLK_STATE = 2 ∧
            ∀ x, s.expected (e.1 + s.rd F.ENG_GLK_DELAY.DELAY) = some x →
              let target := e.1 + s.rd F.ENG_GLK_DELAY.DELAY
              let win := s.rd F.ENG_GLK_WIN.WIN
              (s.tick.takenFor = some x.1 ∨ target + win < x.2 ∨ x.2 + win < target →
                t.on F.ENG_TICK_STATUS.MISS = true ∧ t.tick.lastEdge = s.tick.lastEdge ∧
                t.rd F.ENG_TICK_STATUS.MISS_CNT = min 255 (s.rd F.ENG_TICK_STATUS.MISS_CNT + 1)) ∧
              (s.tick.takenFor ≠ some x.1 → x.2 ≤ target + win → target ≤ x.2 + win →
                t.rd F.ENG_GLK_PHASE.ERR = wrapNat 32 ((target : Int) - (x.2 : Int)) ∧ t.tick.takenFor = some x.1 ∧
                t.tick.lastEdge = some (e.1, some x.1) ∧ t.tick.framesNoEdge = 0)))))) ∧
  ((∀ (s : State) (v : Bool), Runs (.tickSrc v) s (fun t => t.on F.ENG_TICK_CTRL.SRC = v ∧
      (s.on F.ENG_TICK_CTRL.SRC = v → s.Quiet t) ∧
      (s.on F.ENG_TICK_CTRL.SRC ≠ v → t.rd F.ENG_TICK_STATUS.GLK_STATE = (if v then 1 else 0) ∧
        (v = true → t.tick.hist = [] ∧ t.tick.lastEdge = none)) ∧
      t.on F.ENG_TICK_CTRL.RUN = s.on F.ENG_TICK_CTRL.RUN ∧ t.mem = s.mem ∧ t.cores = s.cores)) ∧
    (∀ s : State, s.on F.ENG_TICK_CTRL.SRC = true → Runs .resync s (fun t =>
      t.rd F.ENG_TICK_STATUS.GLK_STATE = 1 ∧ t.tick.hist = [] ∧ t.tick.lastEdge = none ∧
      t.tick.frameCnt = s.tick.frameCnt ∧ t.tick.acc = s.tick.acc ∧ t.mem = s.mem ∧ t.cores = s.cores)) ∧
    (∀ s : State, s.on F.ENG_TICK_CTRL.SRC = false → Leaves .resync s s))

/-- The frame length (R22, R23): a PERIOD from 2,500,000 to 25,025,000 is taken and any other sets CFG_REJECT and
changes nothing; a FRAC whose NUM is not below a DEN other than 0 likewise, and a changed FRAC clears acc, for the
ticks after its own cycle (R18). While RUN = 0 both copies of PERIOD change at once (R24). -/
def Obligations.FrameLengthWrites : Prop :=
  (∀ (s : State) (v : Nat), 2500000 ≤ bitsOf v 0 25 → bitsOf v 0 25 ≤ 25025000 →
    Runs (.tickPeriodWrite false v) s (fun t => t.rd F.ENG_TICK_PERIOD.PERIOD = bitsOf v 0 25 ∧
      (s.on F.ENG_TICK_CTRL.RUN = false → t.act F.ENG_TICK_PERIOD.PERIOD = bitsOf v 0 25) ∧ t.tick = s.tick ∧
      t.mem = s.mem ∧ t.cores = s.cores ∧ RegsKept s t [R.ENG_TICK_PERIOD])) ∧
  (∀ (s : State) (v : Nat), bitsOf v 0 25 < 2500000 ∨ 25025000 < bitsOf v 0 25 →
    Leaves (.tickPeriodWrite false v) s (s.wr F.ENG_TICK_STATUS.CFG_REJECT 1)) ∧
  (∀ (s : State) (v : Nat), bitsOf v 0 16 ≠ 0 → bitsOf v 0 16 ≤ bitsOf v 16 16 →
    Leaves (.tickPeriodWrite true v) s (s.wr F.ENG_TICK_STATUS.CFG_REJECT 1)) ∧
  (∀ (s : State) (v : Nat), v < 2 ^ 32 → (bitsOf v 0 16 = 0 ∨ bitsOf v 16 16 < bitsOf v 0 16) →
    Runs (.tickPeriodWrite true v) s (fun t => t.rd F.ENG_TICK_FRAC.DEN = bitsOf v 0 16 ∧
      t.rd F.ENG_TICK_FRAC.NUM = bitsOf v 16 16 ∧
      t.tick = { s.tick with
        acc := if s.reg R.ENG_TICK_FRAC = v then s.tick.acc else 0, accOld := t.tick.accOld } ∧
      t.accTick = s.accTick ∧ t.mem = s.mem ∧ t.cores = s.cores ∧ RegsKept s t [R.ENG_TICK_FRAC]))

/-- Ticks are started and stopped (R24, R518): outside a wake RUN reads what was written; during one the write is held
(R457). Ticks that start in FREE or ACQUIRE come first one active PERIOD later; ticks that stop in FREE or ACQUIRE
are no longer scheduled. -/
def Obligations.TicksStartAndStop : Prop :=
  (∀ (s : State) (r : Bool), s.boot.sby ≠ 6 → Runs (.tickRun r) s (fun t => t.on F.ENG_TICK_CTRL.RUN = r)) ∧
  (∀ (s : State) (r : Bool), s.boot.sby = 6 → s.flt.recovered = false →
    Leaves (.tickRun r) s { s with boot := { s.boot with runHeld := r } }) ∧
  (∀ s : State, s.boot.sby = 0 → s.on F.ENG_TICK_CTRL.RUN = false → s.rd F.ENG_TICK_STATUS.GLK_STATE ≤ 1 →
    s.flt.recovered = false →
    Runs (.tickRun true) s (fun t => t.tick = { s.tick with at_ := some (s.now + s.act F.ENG_TICK_PERIOD.PERIOD) } ∧
      t.mem = s.mem ∧ t.cores = s.cores ∧ RegsKept s t [R.ENG_TICK_CTRL])) ∧
  (∀ s : State, s.boot.sby = 0 → s.on F.ENG_TICK_CTRL.RUN = true → s.rd F.ENG_TICK_STATUS.GLK_STATE ≤ 1 →
    s.flt.recovered = false →
    Runs (.tickRun false) s (fun t => t.tick = { s.tick with at_ := none } ∧
      t.mem = s.mem ∧ t.cores = s.cores ∧ RegsKept s t [R.ENG_TICK_CTRL]))

/-- The frame tick (R20, R22, R24, R31, R35, R451). At its scheduled time a tick passes: it is the last tick, it is
numbered, the next one is placed, and while ticks are generated the frame counter counts it, modulo 2^48, and every
engine's raster begins again with nothing composed; with RUN = 0 the sequence goes on unseen and changes nothing
else. The tick at which Standby is entered is the last and leaves no engine live. Without a scheduled tick, and in
Standby, nothing happens. -/
def Obligations.FrameTickPasses : Prop :=
  (∀ s : State, s.tick.at_ = none ∨ 2 ≤ s.boot.sby → Leaves .frameTick s s) ∧
  (∀ s : State, s.boot.sby ≤ 1 → ∀ t0, s.tick.at_ = some t0 →
    (s.running = false → Runs .frameTick s (fun t =>
      t.now = max s.now t0 ∧ t.tick.last = some t0 ∧ t.tick.seq = s.tick.seq + 1 ∧ t.tick.frameCnt = s.tick.frameCnt ∧
      t.tick.phase = 0 ∧ t.tick.edgeSince = false ∧
      (s.glk = 3 → t.tick.at_ = some (t0 + max 2500000 (s.rd F.ENG_GLK_PERIOD.PERIOD)) ∧ t.tick.acc = s.tick.acc) ∧
      (s.glk = 2 → (∃ len, 2500000 ≤ len ∧ t.tick.at_ = some (t0 + len)) ∧ t.tick.acc = s.tick.acc) ∧
      (s.glk ≠ 2 → s.glk ≠ 3 → t.tick.at_ = some (t0 + s.act F.ENG_TICK_PERIOD.PERIOD +
        (if s.act F.ENG_TICK_FRAC.DEN ≠ 0 ∧
            s.act F.ENG_TICK_FRAC.DEN ≤ (s.reach t0).accTick + s.act F.ENG_TICK_FRAC.NUM then 1 else 0))) ∧
      RegsKept s t [] ∧ t.eng = s.eng ∧ t.mem = s.mem ∧ t.cores = s.cores)) ∧
    (s.running = true → Runs .frameTick s (fun t =>
      t.now = max s.now t0 ∧ t.tick.last = some t.now ∧ t.tick.seq = s.tick.seq + 1 ∧
      t.tick.frameCnt = (s.tick.frameCnt + 1) % 2 ^ 48 ∧ t.tick.cntAt = some t.now ∧
      (∀ n, n < 17 → (t.engS n).rline = 0 ∧ (t.engS n).tStart = t.now ∧ (t.engS n).nextLine = 0 ∧
      (t.engS n).comp = none ∧
        (t.engS n).fifo = [] ∧ (t.engS n).linesOut = 0 ∧ (t.engS n).substCnt = 0 ∧ (t.engS n).objNext = 0) ∧
      (s.boot.sby = 0 → ∃ len, t.tick.at_ = some (t.now + len)) ∧
      (s.boot.sby = 1 → t.tick.at_ = none ∧ t.boot.sby = 2 ∧ ∀ n, n < 17 → (t.engS n).live = false) ∧
      t.cores = s.cores)))

/-- The video PLLs (R38-R40). A powered VPLL whose settings are in range locks; a lock lost is fault 0x02, counted in
its register; MULT outside 48.0-96.0, or written while an engine other than OFF selects the VPLL, is refused with
REJECT and taken otherwise, and the lock is dropped with it. A write of ENG_VPLLk_CTRL (R38, R39) acts field by
field: POSTDIV outside 2-192, a changed POSTDIV or a PWR taken away while an engine other than OFF selects the VPLL
keep their value; TRACK is always taken. -/
def Obligations.VideoPlls : Prop :=
  (∀ (s : State) (k : Nat), k < 4 →
      Leaves (.vpllLock k) s
        (if s.on (F.ENG_VPLLk_CTRL.PWR k) = true ∧ s.on (F.ENG_VPLLk_CTRL.RANGE k) = false
         then s.wr (F.ENG_VPLLk_CTRL.LOCKED k) 1 else s) ∧
      Leaves (.vpllUnlock k) s
        (if s.on (F.ENG_VPLLk_CTRL.LOCKED k) = true then s.wr (F.ENG_VPLLk_CTRL.LOCKED k) 0 else s) ∧
      (s.Calm → s.on (F.ENG_VPLLk_CTRL.LOCKED k) = true → Runs (.vpllUnlock k) s (fun t =>
        t.rd (F.FLT_SRCs_CNT.COUNT 0x02) = min 255 (s.rd (F.FLT_SRCs_CNT.COUNT 0x02) + 1))) ∧
      (∀ v, v < 2 ^ 32 → v ≠ s.rd (F.ENG_VPLLk_MULT.MULT k) →
        (48 * 2 ^ 24 ≤ v ∧ v ≤ 96 * 2 ^ 24 ∧ s.vpllUsed k = false → Runs (.vpllMultWrite k v) s (fun t =>
          t.rd (F.ENG_VPLLk_MULT.MULT k) = v ∧ t.on (F.ENG_VPLLk_CTRL.LOCKED k) = false ∧
          t.on (F.ENG_VPLLk_CTRL.RANGE k) = vclkOut v (s.rd (F.ENG_VPLLk_CTRL.POSTDIV k)) ∧
          t.rd (F.ENG_VPLLk_CTRL.POSTDIV k) = s.rd (F.ENG_VPLLk_CTRL.POSTDIV k) ∧
          t.mem = s.mem ∧ t.cores = s.cores ∧ t.eng = s.eng)) ∧
        (v < 48 * 2 ^ 24 ∨ 96 * 2 ^ 24 < v ∨ s.vpllUsed k = true →
          Leaves (.vpllMultWrite k v) s (s.wr (F.ENG_VPLLk_CTRL.REJECT k) 1)))) ∧
  (∀ (s : State) (k v : Nat), k < 4 → Runs (.vpllCtrlWrite k v) s (fun t =>
      t.rd (F.ENG_VPLLk_CTRL.POSTDIV k) =
        (if s.vpllUsed k = true ∨ bitsOf v 0 8 < 2 ∨ 192 < bitsOf v 0 8 then s.rd (F.ENG_VPLLk_CTRL.POSTDIV k)
         else bitsOf v 0 8) ∧
      t.on (F.ENG_VPLLk_CTRL.PWR k) = (v.testBit 8 || (s.on (F.ENG_VPLLk_CTRL.PWR k) && s.vpllUsed k)) ∧
      t.on (F.ENG_VPLLk_CTRL.TRACK k) = v.testBit 9 ∧
      t.reg (R.ENG_VPLLk_MULT k) = s.reg (R.ENG_VPLLk_MULT k) ∧ t.mem = s.mem ∧ t.cores = s.cores))

/-- Engine control (R37, R39, R52-R54, R175), of an engine that EW does not shadow. An engine in OFF that is enabled
enters STARTING with its frame-store buffers invalid, but for a fenced one, which keeps ENABLE; one that RUNS and is
disabled enters STOPPING; a VPLL selection changed outside OFF is refused with CFG_REJECT and keeps its value. A
raster word within the limits of R37 whose line_credits stay at 65,535 is stored, and both copies of it change while
RUN = 0; any other sets CFG_REJECT and changes nothing. Where EW shadows the engine (R172) it takes the raster word
as well. RELAX lines with slack lower LEVEL by 1. The schedule loader (R57, R58, R60, R61). LOAD enters CHECKING
with the base it reads. The check waits while the HBM does not answer (R517); else it ends in FAILED with the code
and the offset of what failed first, a read error, the header, a later item or SHARE, or in READY with the schedule;
where no other check has come to the SHARE test in its cycle, the test is this engine's alone. COMMIT without a
READY schedule sets COMMIT_REJECT, and with one is done at once while RUN = 0 and waits for the tick while RUN = 1;
DROP likewise. Where EW shadows the engine (R172) it holds the same schedules. -/
def Obligations.EnginesAndSchedules : Prop :=
  (∀ (s : State) (n : Nat), n < 16 →
      (s.shadows n = false →
        (∀ v, (s.rd F.ENG_WARD_FENCE.FENCE).testBit n = false →
          (s.rd (F.ENGn_CTRL.STATE n) = 0 → v.testBit 0 = true → Runs (.engineEnable n v) s (fun t =>
            t.rd (F.ENGn_CTRL.STATE n) = 1 ∧ t.on (F.ENGn_STATUS.FS_VALID n) = false ∧
            t.rd (F.ENGn_CTRL.VPLL n) = bitsOf v 12 2 ∧ t.rd (F.ENGn_CTRL.BERM n) = bitsOf v 4 5 ∧
            t.mem = s.mem ∧ t.cores = s.cores)) ∧
          (s.rd (F.ENGn_CTRL.STATE n) = 2 → v.testBit 0 = false → Runs (.engineEnable n v) s (fun t =>
            t.rd (F.ENGn_CTRL.STATE n) = 3 ∧ t.rd (F.ENGn_CTRL.VPLL n) = s.rd (F.ENGn_CTRL.VPLL n) ∧
            (bitsOf v 12 2 ≠ s.rd (F.ENGn_CTRL.VPLL n) → t.on (F.ENGn_STATUS.CFG_REJECT n) = true) ∧
            t.mem = s.mem ∧ t.cores = s.cores))) ∧
        (∀ v, (s.rd F.ENG_WARD_FENCE.FENCE).testBit n = true → s.rd (F.ENGn_CTRL.STATE n) = 0 →
          s.on (F.ENGn_CTRL.ENABLE n) = false → Runs (.engineEnable n v) s (fun t =>
            t.rd (F.ENGn_CTRL.STATE n) = 0 ∧ t.on (F.ENGn_CTRL.ENABLE n) = false ∧ t.mem = s.mem ∧ t.cores = s.cores)) ∧
        (∀ r v, r < 4 →
          (s.rasterTakes n r v = true → Leaves (.rasterWrite n r v) s (s.writeByCode (rasterAt n r) v)) ∧
          (s.rasterTakes n r v = false → Leaves (.rasterWrite n r v) s (s.wr (F.ENGn_STATUS.CFG_REJECT n) 1))) ∧
        (∀ v, 16 ≤ bitsOf v 0 13 → bitsOf v 0 13 ≤ 4320 → 1 ≤ bitsOf v 16 12 →
          creditsOf (s.hTotalW n) (s.rd (F.ENG_VPLLk_MULT.MULT (s.rd (F.ENGn_CTRL.VPLL n))))
            (s.rd (F.ENG_VPLLk_CTRL.POSTDIV (s.rd (F.ENGn_CTRL.VPLL n)))) ≤ 65535 →
          Runs (.rasterWrite n 2 v) s (fun t => t.rd (F.ENGn_VTIME0.V_ACTIVE n) = bitsOf v 0 13 ∧
            t.rd (F.ENGn_VTIME0.V_FP n) = bitsOf v 16 12 ∧
            (s.on F.ENG_TICK_CTRL.RUN = false → t.act (F.ENGn_VTIME0.V_ACTIVE n) = bitsOf v 0 13) ∧
            t.eng = s.eng ∧ t.mem = s.mem ∧ t.cores = s.cores))) ∧
      (∀ r v, r < 4 → rasterOk r v = false → s.rasterTakes n r v = false) ∧
      (∀ r v, r < 4 → s.shadows n = true → s.rasterTakes n r v = true →
        Leaves (.rasterWrite n r v) s ((s.writeByCode (rasterAt n r) v).writeByCode (rasterAt 16 r) v)) ∧
      (s.act (F.ENGn_SPILL.THRESH n) ≠ 0 → max 1 (s.act (F.ENGn_SPILL.RELAX n)) ≤ (s.engS n).relaxRun →
        Runs (.spillRelax n) s (fun t => t.rd (F.ENGn_SPILL.LEVEL n) = s.rd (F.ENGn_SPILL.LEVEL n) - 1 ∧
          t.on (F.ENGn_STATUS.SPILL_ACTIVE n) = decide (1 < s.rd (F.ENGn_SPILL.LEVEL n)) ∧
          (t.engS n).relaxRun = 0 ∧ t.mem = s.mem ∧ t.cores = s.cores)) ∧
      (s.act (F.ENGn_SPILL.THRESH n) = 0 ∨ (s.engS n).relaxRun < max 1 (s.act (F.ENGn_SPILL.RELAX n)) →
        Leaves (.spillRelax n) s s)) ∧
  (∀ (s : State) (n : Nat), n < 16 →
      (s.shadows n = false →
        Runs (.schedLoad n) s (fun t => t.rd (F.ENGn_SCHED_STATUS.LD_STATE n) = 1 ∧ (t.engS n).ready = none ∧
          (t.engS n).checking = some (s.rd (F.ENGn_SCHED_BASE_LO.BASE_LO n) * 16 + s.rd (F.ENGn_SCHED_BASE_HI.BASE_HI n) * 2 ^ 32) ∧
          (t.engS n).active = (s.engS n).active ∧ (∀ m, m ≠ n → t.engS m = s.engS m) ∧ t.mem = s.mem ∧
          t.cores = s.cores) ∧
        (s.rd (F.ENGn_SCHED_STATUS.LD_STATE n) ≠ 2 →
          Leaves (.schedCommit n) s (s.wr (F.ENGn_SCHED_STATUS.COMMIT_REJECT n) 1)) ∧
        (s.rd (F.ENGn_SCHED_STATUS.LD_STATE n) = 2 → s.on F.ENG_TICK_CTRL.RUN = true → (s.engS n).commit = false →
          Leaves (.schedCommit n) s (s.setEng n { s.engS n with commit := true })) ∧
        (s.rd (F.ENGn_SCHED_STATUS.LD_STATE n) = 2 → s.on F.ENG_TICK_CTRL.RUN = true → (s.engS n).commit = true →
          Leaves (.schedCommit n) s s) ∧
        (s.rd (F.ENGn_SCHED_STATUS.LD_STATE n) = 2 → s.on F.ENG_TICK_CTRL.RUN = false →
          Runs (.schedCommit n) s (fun t => t.rd (F.ENGn_SCHED_STATUS.LD_STATE n) = 0 ∧
            (t.engS n).active = (s.engS n).ready ∧ (t.engS n).ready = none ∧
            t.rd (F.ENGn_SCHED_STATUS.ACTIVE n) = (if (s.engS n).ready.isSome then 1 else 0) ∧
            (∀ m, m ≠ n → t.engS m = s.engS m) ∧ t.mem = s.mem)) ∧
        (s.on F.ENG_TICK_CTRL.RUN = true → (s.engS n).drop = false →
          Leaves (.schedDrop n) s (s.setEng n { s.engS n with drop := true })) ∧
        (s.on F.ENG_TICK_CTRL.RUN = true → (s.engS n).drop = true → Leaves (.schedDrop n) s s) ∧
        (s.on F.ENG_TICK_CTRL.RUN = false → Runs (.schedDrop n) s (fun t => (t.engS n).active = none ∧
          t.rd (F.ENGn_SCHED_STATUS.ACTIVE n) = 0 ∧ t.rd (F.ENGn_SCHED_ID.ID n) = 0 ∧ t.rd (F.ENGn_SPILL.LEVEL n) = 0 ∧
          (∀ m, m ≠ n → t.engS m = s.engS m) ∧ t.mem = s.mem)) ∧
        ((s.engS n).checking = none → Leaves (.schedCheckDone n) s s) ∧
        (∀ base, (s.engS n).checking = some base →
          let fails := fun (code o : Nat) (t : State) =>
            t.rd (F.ENGn_SCHED_STATUS.LD_STATE n) = 3 ∧ t.rd (F.ENGn_SCHED_STATUS.ERR n) = code ∧
            t.rd (F.ENGn_SCHED_ERRLOC.OFFSET n) = o % 2 ^ 32 ∧ (t.engS n).ready = none ∧ (t.engS n).checking = none ∧
            (t.engS n).active = (s.engS n).active ∧ t.cores = s.cores
          let hd := s.schedRead base 0x80 5 0
          (hd.1 = .error none → Leaves (.schedCheckDone n) s s) ∧
          (∀ o, hd.1 = .error (some o) → Runs (.schedCheckDone n) s (fails 0x12 o)) ∧
          (∀ h, hd.1 = .ok h →
            (∀ e, schedHeader n h = some e → Runs (.schedCheckDone n) s (fails e.1 e.2)) ∧
            (schedHeader n h = none →
              let body := hd.2.schedRead base (leAt h 0x28 4) (leAt h 0x28 4 / 32 + 2) 0
              (body.1 = .error none → Leaves (.schedCheckDone n) s s) ∧
              (∀ o, body.1 = .error (some o) → Runs (.schedCheckDone n) s (fails 0x12 o)) ∧
              (∀ m, body.1 = .ok m →
                (∀ e, body.2.schedCheck n base h m = .error e → Runs (.schedCheckDone n) s (fails e.1 e.2)) ∧
                (∀ sc, body.2.schedCheck n base h m = .ok sc → body.2.cycNow.shr = [] →
                  (300000 < body.2.shareSum n sc → Runs (.schedCheckDone n) s (fails 0x11 0x24)) ∧
                  (body.2.shareSum n sc ≤ 300000 → Runs (.schedCheckDone n) s (fun t =>
                    t.rd (F.ENGn_SCHED_STATUS.LD_STATE n) = 2 ∧ t.rd (F.ENGn_SCHED_STATUS.ERR n) = 0 ∧
                    (t.engS n).ready = some sc ∧ (t.engS n).checking = none ∧ (t.engS n).active = (s.engS n).active ∧
                    t.cores = s.cores)))))))) ∧
      (s.shadows n = true → ∀ c, c ∈ [Instr.schedLoad n, .schedCommit n, .schedDrop n, .schedCheckDone n] →
        Runs c s (fun t => (t.engS 16).active = (t.engS n).active ∧ (t.engS 16).ready = (t.engS n).ready ∧
          (t.engS 16).commit = (t.engS n).commit ∧ (t.engS 16).drop = (t.engS n).drop ∧ t.cores = s.cores)))

/-- The line-list sequencer (R64-R67, R69, R520; log 12: a row acts where the command that memory holds next is the
row's, field by field). With room in the 16 KiB buffer it reads the word and its payload. On a line, a command other
than LINE, WAITX and END is bound, with the fields of R65, to that line and to the segment the last WAITX opened,
and a start of a voice is to be read ahead; LINE with a higher line below V_ACTIVE makes it current and opens its
first segment, any other LINE ends execution for the frame, and so does END or LL_SIZE; WAITX opens a segment; a
word of no effect only moves the position. A row whose command or a field of it is not what memory holds next
changes nothing, and before the first LINE nothing is bound. A failed read of a line list or of a line's source
(R49, R70, R278, R279). A list read that fails poisons the first line whose commands are not all read, takes none of
its commands, ends the list for the frame and sets LL_ABORT; a failed fetch for a line not yet output poisons that
line, as one for the object unit's line ends its work on it. Each is counted by its kind, an address without
contents, an uncorrectable HBM block or an uncorrectable SRAM word, and its fault waits for the deadline of the line
(log 20). -/
def Obligations.LineListsAndFailedReads : Prop :=
  (∀ (s : State) (n : Nat) (sc : Sched), (s.engS n).active = some sc → (s.engS n).llEnded = false →
      (sc.llSize / 8 ≤ (s.engS n).llPos → Leaves (.llEnd n) s (s.setEng n { s.engS n with llEnded := true })) ∧
      (∀ w s1, s.llWordAt n (s.engS n).llPos = (some w, s1) →
        (bitsOf w 60 4 ≠ 0 → (s.engS n).llPos < sc.llSize / 8 → Leaves (.llEnd n) s s) ∧
        (∀ k x voice preset, (bitsOf w 60 4 ≠ 1 ∨ bitsOf w 32 13 ≠ k → Leaves (.llLine n k) s s) ∧
          (bitsOf w 60 4 ≠ 10 ∨ bitsOf w 32 14 ≠ x → Leaves (.llWaitx n x) s s) ∧
          (∀ c a, (c, a) ∈ [(Instr.llSndStart n voice preset, 0), (.llSndRelease n voice, 1), (.llSndStop n voice, 2)] →
            bitsOf w 60 4 ≠ 8 ∨ bitsOf w 41 3 ≠ a ∨ bitsOf w 32 9 ≠ voice ∨ (a = 0 ∧ bitsOf w 0 16 ≠ preset) →
            Leaves c s s)) ∧
        (∀ ws s2, s1.llPayloadAt n (llPayload w) ((s.engS n).llPos + 1) = (some ws, s2) →
          (s.engS n).llHeld + 1 + llPayload w ≤ 2048 →
          let moved := fun (t : State) => (t.engS n).llPos = (s.engS n).llPos + 1 + llPayload w ∧
            (t.engS n).active = some sc ∧ t.mem = s2.mem ∧ t.cores = s.cores
          let lo := fun i => bitsOf (ws.getD i 0) 0 32
          let hi := fun i => bitsOf (ws.getD i 0) 32 32
          let vals := ((List.range ws.length).flatMap (fun i => [lo i, hi i])).take (bitsOf w 48 8 + 1)
          let fields := [(Instr.llWreg n (bitsOf w 32 16) (bitsOf w 0 32), 2,
            LlCmd.wreg (bitsOf w 32 16) (bitsOf w 0 32)),
            (.llWblk n (bitsOf w 32 16) vals, 3, .wblk (bitsOf w 32 16) vals),
            (.llPal n (bitsOf w 32 6) (bitsOf w 38 8) (bitsOf w 46 8 + 1) (bitsOf w 0 32), 4,
              .pal (bitsOf w 32 6) (bitsOf w 38 8) (bitsOf w 46 8 + 1) (bitsOf w 0 32)),
            (.llScroll n (bitsOf w 32 3) (bitsOf w 35 1 == 1) (bitsOf w 36 1 == 1) (bitsOf w 0 16) (bitsOf w 16 16), 5,
              .scroll (bitsOf w 32 3) (bitsOf w 35 1 == 1) (bitsOf w 36 1 == 1) (bitsOf w 0 16) (bitsOf w 16 16)),
            (.llAffine n (bitsOf w 32 1) (lo 0) (hi 0) (lo 1) (hi 1) (lo 2) (hi 2), 6,
              .affine (bitsOf w 32 1) (lo 0) (hi 0) (lo 1) (hi 1) (lo 2) (hi 2)),
            (.llOrder n (bitsOf w 32 3), 7, .order (bitsOf w 32 3)), (.llSig n (bitsOf w 32 2), 9,
              .sig (bitsOf w 32 2))]
          (∀ off v vs p first cnt addr j wx wy x y a b c d x0 y0,
            ∀ i op cmd, (i, op, cmd) ∈ [(Instr.llWreg n off v, 2, LlCmd.wreg off v), (.llWblk n off vs, 3,
              .wblk off vs),
                (.llPal n p first cnt addr, 4, .pal p first cnt addr),
                (.llScroll n j wx wy x y, 5, .scroll j wx wy x y),
                (.llAffine n j a b c d x0 y0, 6, .affine j a b c d x0 y0), (.llOrder n j, 7, .order j),
                (.llSig n j, 9, .sig j)] →
              bitsOf w 60 4 ≠ op ∨ (∀ i' op', (i', op', cmd) ∉ fields) → Leaves i s s) ∧
          (∀ k, (s.engS n).llLine = some k →
            (∀ c op cmd, (c, op, cmd) ∈ fields →
              bitsOf w 60 4 = op → Runs c s (fun t => moved t ∧ (t.engS n).llLine = some k ∧
              (t.engS n).llEnded = false ∧
                (t.engS n).llItems = (s.engS n).llItems ++ [{ k, x := (s.engS n).llX, cmd }])) ∧
            (∀ c a, (c, a) ∈ [(Instr.llSndStart n (bitsOf w 32 9) (bitsOf w 0 16), 0),
                (.llSndRelease n (bitsOf w 32 9), 1), (.llSndStop n (bitsOf w 32 9), 2)] →
              bitsOf w 60 4 = 8 → bitsOf w 41 3 = a → Runs c s (fun t => moved t ∧
              (t.engS n).llItems = (s.engS n).llItems ++
                [{ k, x := (s.engS n).llX, cmd := .snd (bitsOf w 32 9) a (bitsOf w 0 16) }] ∧
                (a = 0 → bitsOf w 32 9 < 384 → t.aud.trig = s.aud.trig ++
                  [{ line := some (n, k), snd := true, voice := bitsOf w 32 9, preset := bitsOf w 0 16 }]) ∧
                (a ≠ 0 ∨ 384 ≤ bitsOf w 32 9 → t.aud = s.aud))) ∧
            (bitsOf w 60 4 = 10 → Runs (.llWaitx n (bitsOf w 32 14)) s (fun t => moved t ∧
            (t.engS n).llX = bitsOf w 32 14 ∧
              (t.engS n).llLine = some k ∧ (t.engS n).llItems = (s.engS n).llItems))) ∧
          ((s.engS n).llLine = none →
          ∀ c op, (∃ cmd, (c, op, cmd) ∈ fields) ∨ (c, op) = (.llWaitx n (bitsOf w 32 14), 10) →
            bitsOf w 60 4 = op →
            Runs c s (fun t => moved t ∧ (t.engS n).llItems = (s.engS n).llItems ∧ (t.engS n).llLine = none)) ∧
          (bitsOf w 60 4 = 1 → bitsOf w 32 13 < s.vActive n → (∀ l, (s.engS n).llLine = some l → l < bitsOf w 32 13) →
            Runs (.llLine n (bitsOf w 32 13)) s (fun t => moved t ∧ (t.engS n).llLine = some (bitsOf w 32 13) ∧
            (t.engS n).llX = 0 ∧
              (t.engS n).llEnded = false ∧ (t.engS n).llItems = (s.engS n).llItems)) ∧
          (bitsOf w 60 4 = 1 → (s.vActive n ≤ bitsOf w 32 13 ∨ ∃ l, (s.engS n).llLine = some l ∧ bitsOf w 32 13 ≤ l) →
            Runs (.llLine n (bitsOf w 32 13)) s (fun t => (t.engS n).llEnded = true ∧
            (t.engS n).llItems = (s.engS n).llItems ∧
              t.cores = s.cores)) ∧
          (bitsOf w 60 4 = 0 → (s.engS n).llPos < sc.llSize / 8 →
          Runs (.llEnd n) s (fun t => (t.engS n).llEnded = true ∧
            (t.engS n).llItems = (s.engS n).llItems ∧ t.cores = s.cores)) ∧
          (11 ≤ bitsOf w 60 4 ∨ (bitsOf w 60 4 = 8 ∧ 3 ≤ bitsOf w 41 3) → Runs (.llNop n) s (fun t => moved t ∧
            (t.engS n).llItems = (s.engS n).llItems ∧ (t.engS n).llLine = (s.engS n).llLine ∧
            (t.engS n).llX = (s.engS n).llX ∧ (t.engS n).llEnded = false ∧ t.aud = s.aud))))) ∧
  (∀ (s : State) (n cause : Nat), n < 17 → cause < 3 →
      let cnt := match cause with
        | 0 => F.MEM_DECODE_CNT.COUNT
        | 1 => F.MEM_HBM_UE_CNT.COUNT
        | _ => F.MEM_SRAM_UE_CNT.COUNT
      let src := match cause with
        | 0 => 0x23
        | 1 => 0x21
        | _ => 0x20
      let met := fun (k : Nat) (t : State) => k ∈ (t.engS n).poison ∧ (∀ j, j ∈ (s.engS n).poison →
      j ∈ (t.engS n).poison) ∧
        t.rd cnt = min (2 ^ 32 - 1) (s.rd cnt + 1) ∧ (k, src) ∈ (t.engS n).flts ∧ (∀ m, m ≠ n →
        t.engS m = s.engS m) ∧ t.mem = s.mem ∧ t.cores = s.cores
      ((s.engS n).active.isSome = true → (s.engS n).llEnded = false → Runs (.llReadError n cause) s (fun t =>
        met ((s.engS n).llLine.getD 0) t ∧ (t.engS n).llEnded = true ∧
        (t.engS n).llItems = (s.engS n).llItems.filter (fun i => i.k != (s.engS n).llLine.getD 0) ∧
        t.on (F.ENGn_SCHED_STATUS.LL_ABORT n) = true)) ∧
      ((s.engS n).active = none ∨ (s.engS n).llEnded = true → Leaves (.llReadError n cause) s s) ∧
      (∀ k a, a < 2 ^ 40 →
        ((s.engS n).live = true → (s.engS n).linesOut ≤ k → k < s.vActive n →
        Runs (.fetchPoison n k ⟨cause, a⟩) s (fun t =>
          met k t ∧ (t.engS n).llItems = (s.engS n).llItems ∧ (t.engS n).linesOut = (s.engS n).linesOut)) ∧
        ((s.engS n).live = false ∨ k < (s.engS n).linesOut ∨ s.vActive n ≤ k →
        Leaves (.fetchPoison n k ⟨cause, a⟩) s s)) ∧
      (∀ k a, a < 2 ^ 40 → (s.engS n).objWork = some k →
        (s.objHolds n = false → Runs (.objSourcePoison n ⟨cause, a⟩) s (fun t => met k t ∧ (t.engS n).objWork = none ∧
          k ∈ (t.engS n).objDone)) ∧
        (s.objHolds n = true → Runs (.objSourcePoison n ⟨cause, a⟩) s (fun t => k ∈ (t.engS n).poison ∧
          (t.engS n).objWork = none ∧ k ∈ (t.engS n).objDone ∧ t.cores = s.cores))) ∧
      (∀ a, (s.engS n).objWork = none → Leaves (.objSourcePoison n ⟨cause, a⟩) s s))

/-- Palette and cache commands (R85, R87, R100, R126). A write of PAL_DATA0 fills the write hold, a write of PAL_DATA1
stores the entry that PAL_ADDR names, of which the read pair returns the low 32 bits and then the latched high 16,
as the array gives them where a bit of the word is wrong (R268); ENTRY advances by 1, wrapping, under AINC with each
access of PAL_DATA1. TC_CTRL.INV and OC_CTRL.INV are pending until the engine's caches act on them. Where EW shadows
the engine it takes the writes as well (R172). The output LUT of a port (R148): a write of LUT_DATA0 fills the write
hold and a write of LUT_DATA1 stores the entry that LUT_ADDR names, which pixels of a later cycle use; the read pair
returns B and G and then the latched R, as the array gives them where a bit of the word is wrong (R268). ENTRY
advances by 1, wrapping, under AINC with each access of LUT_DATA1. -/
def Obligations.PalettesAndOutputLuts : Prop :=
  (∀ (s : State) (n : Nat), n < 17 →
      let key := 256 * s.rd (F.ENGn_PAL_ADDR.PAL n) + s.rd (F.ENGn_PAL_ADDR.ENTRY n)
      let next := if s.on (F.ENGn_PAL_ADDR.AINC n) then (s.rd (F.ENGn_PAL_ADDR.ENTRY n) + 1) % 256
        else s.rd (F.ENGn_PAL_ADDR.ENTRY n)
      (s.shadows n = false →
        (∀ v, v < 2 ^ 32 → Leaves (.palData0Write n v) s (s.setEng n { s.engS n with palHold := v })) ∧
        (∀ v, v < 2 ^ 16 → (s.engS n).comp = none ∨ (s.engS n).cmp = none → Runs (.palData1Write n v) s (fun t =>
          t.eng = (s.setEng n { s.engS n with pal := Tbl.set 0 (s.engS n).pal key (v * 2 ^ 32 + (s.engS n).palHold) }).eng ∧
          t.rd (F.ENGn_PAL_ADDR.ENTRY n) = next ∧
          t.rd (F.ENGn_PAL_ADDR.PAL n) = s.rd (F.ENGn_PAL_ADDR.PAL n) ∧ t.mem = s.mem ∧ t.cores = s.cores ∧
          RegsKept s t [R.ENGn_PAL_ADDR n])) ∧
        Leaves (.tcInvalidate n) s (s.setEng n { s.engS n with tcInv := true }) ∧
        Leaves (.ocInvalidate n) s (s.setEng n { s.engS n with ocInv := true }) ∧
        Runs (.palData1Read n) s (fun t => t.rdata = (s.engS n).palLatch ∧ t.eng = s.eng ∧
          t.rd (F.ENGn_PAL_ADDR.ENTRY n) = next ∧ RegsKept s t [R.ENGn_PAL_ADDR n] ∧ t.mem = s.mem ∧
          t.cores = s.cores)) ∧
      (∀ v, v < 2 ^ 16 → Runs (.palData1Write n v) s (fun t =>
        Tbl.get 0 (t.engS n).pal key = v * 2 ^ 32 + (s.engS n).palHold ∧ t.rd (F.ENGn_PAL_ADDR.ENTRY n) = next ∧
        t.cores = s.cores)) ∧
      (s.shadows n = true →
        (∀ v, v < 2 ^ 32 → Leaves (.palData0Write n v) s
          ((s.setEng n { s.engS n with palHold := v }).setEng 16 { s.engS 16 with palHold := v })) ∧
        Leaves (.tcInvalidate n) s ((s.setEng n { s.engS n with tcInv := true }).setEng 16 { s.engS 16 with tcInv := true }) ∧
        Leaves (.ocInvalidate n) s ((s.setEng n { s.engS n with ocInv := true }).setEng 16 { s.engS 16 with ocInv := true }) ∧
        Runs (.palData1Read n) s (fun t => t.rdata = (s.engS n).palLatch ∧ t.eng = s.eng ∧
          t.rd (F.ENGn_PAL_ADDR.ENTRY n) = next ∧ t.mem = s.mem ∧ t.cores = s.cores)) ∧
      ((∀ e ∈ s.memc.arrErr, e.1 ≠ .pal n key) →
        Leaves (.palData0Read n) s { (s.setEng n { s.engS n with palLatch := bitsOf (Tbl.get 0 (s.engS n).pal key) 32 16 }) with
          rdata := bitsOf (Tbl.get 0 (s.engS n).pal key) 0 32 }) ∧
      Runs (.palData0Read n) s (fun t => t.rdata = bitsOf (Tbl.get 0 (t.engS n).pal key) 0 32 ∧
        (t.engS n).palLatch = bitsOf (Tbl.get 0 (t.engS n).pal key) 32 16 ∧ t.mem = s.mem ∧ t.cores = s.cores)) ∧
  (∀ (s : State) (p : Nat), p < 24 →
      let key := 4096 * s.rd (F.PLKn_LUT_ADDR.BANK p) + s.rd (F.PLKn_LUT_ADDR.ENTRY p)
      (∀ v, v < 2 ^ 32 → Leaves (.lutData0Write p v) s (s.modPort p (fun x => { x with lutHold := v }))) ∧
      (∀ v, v < 2 ^ 16 → Runs (.lutData1Write p v) s (fun t =>
        t.port = (s.modPort p (fun x => { x with
          lut := Tbl.set 0 (s.portS p).lut key (v * 2 ^ 32 + (s.portS p).lutHold), lutAt := s.now
          lutOld := (t.portS p).lutOld })).port ∧
        (∀ k, (t.portS p).lutAs s.now k = (s.portS p).lutAs s.now k) ∧
        (∀ u k, s.now ≠ u → (t.portS p).lutAs u k = Tbl.get 0 (t.portS p).lut k) ∧
        t.rd (F.PLKn_LUT_ADDR.ENTRY p) = (if s.on (F.PLKn_LUT_ADDR.AINC p) then (s.rd (F.PLKn_LUT_ADDR.ENTRY p) + 1) % 4096
          else s.rd (F.PLKn_LUT_ADDR.ENTRY p)) ∧ t.mem = s.mem ∧ t.cores = s.cores ∧
        RegsKept s t [R.PLKn_LUT_ADDR p])) ∧
      ((∀ e ∈ s.memc.arrErr, e.1 ≠ .lut p key) →
        Leaves (.lutData0Read p) s { (s.modPort p (fun x => { x with lutLatch := bitsOf (Tbl.get 0 (s.portS p).lut key) 32 16 })) with
          rdata := bitsOf (Tbl.get 0 (s.portS p).lut key) 0 32 }) ∧
      Runs (.lutData0Read p) s (fun t => t.rdata = bitsOf (Tbl.get 0 (t.portS p).lut key) 0 32 ∧
        (t.portS p).lutLatch = bitsOf (Tbl.get 0 (t.portS p).lut key) 32 16 ∧ t.mem = s.mem ∧ t.cores = s.cores) ∧
      Runs (.lutData1Read p) s (fun t => t.rdata = (s.portS p).lutLatch ∧ t.port = s.port ∧
        t.rd (F.PLKn_LUT_ADDR.ENTRY p) = (if s.on (F.PLKn_LUT_ADDR.AINC p) then (s.rd (F.PLKn_LUT_ADDR.ENTRY p) + 1) % 4096
          else s.rd (F.PLKn_LUT_ADDR.ENTRY p)) ∧ t.mem = s.mem ∧ t.cores = s.cores))

/-- The object pool and its loader (R107-R111). A word written is the shadow's from then on, and is active at once while
RUN = 0. OBJ_LOAD_CTRL stores FIRST and COUNT; its START takes the source, the first index and the count, and is
refused with REJECT while the loader is busy, as DISCARD is; DISCARD empties the shadow. A block that is read, 2
cycles or more after the last, becomes the next descriptor, whose eight words are its own but for those that the
window wrote in this cycle; the loader waits for an HBM that does not answer, and an error stops it with LOAD_ERR
and HOLD. Flips (R143-R145). REQ makes a flip pending with its fence and wins over CANCEL; a second request while
one is pending changes only FENCE; CANCEL withdraws a pending flip and its deferrals, and takes back a flip that a
tick of its own cycle made, but for FLIPPED where it was set before. A deferral at which DEFER came to STALL_N,
other than 0, sets STALL and raises fault 0x0D once per request. Where EW shadows the engine its planes follow
(R172). -/
def Obligations.ObjectsAndFlips : Prop :=
  ((∀ (s : State) (ix w v : Nat), ix < 16384 → w < 8 → v < 2 ^ 32 → Runs (.objPoolWrite ix w v) s (fun t =>
      (s.on F.ENG_TICK_CTRL.RUN = true → Tbl.get 0 t.obj.shadow (8 * ix + w) = v ∧ t.obj.act = s.obj.act ∧
        t.obj.pend.contains ix = true) ∧
      (s.on F.ENG_TICK_CTRL.RUN = false → Tbl.get 0 t.obj.act (8 * ix + w) = v) ∧
      t.eng = s.eng ∧ t.mem = s.mem ∧ t.cores = s.cores)) ∧
    (∀ (s : State) (first cnt : Nat), first < 2 ^ 14 → cnt < 2 ^ 14 →
      (s.on F.OBJ_STATUS.LOAD_BUSY = false → Runs (.objLoadStart first cnt) s (fun t =>
        t.on F.OBJ_STATUS.LOAD_BUSY = true ∧ t.rd F.OBJ_LOAD_POS.DONE = 0 ∧
        t.rd F.OBJ_LOAD_CTRL.FIRST = first ∧ t.rd F.OBJ_LOAD_CTRL.COUNT_M1 = cnt ∧
        t.obj = { s.obj with src := s.rd F.OBJ_LOAD_SRC_LO.SRC_LO * 32 + s.rd F.OBJ_LOAD_SRC_HI.SRC_HI * 2 ^ 32,
                             idx := first, left := cnt + 1, at_ := s.now } ∧ t.mem = s.mem ∧ t.cores = s.cores)) ∧
      (s.on F.OBJ_STATUS.LOAD_BUSY = true → Leaves (.objLoadStart first cnt) s
        (((s.wr F.OBJ_LOAD_CTRL.FIRST first).wr F.OBJ_LOAD_CTRL.COUNT_M1 cnt).wr F.OBJ_STATUS.REJECT 1))) ∧
    (∀ s : State, s.on F.OBJ_STATUS.LOAD_BUSY = true → Leaves .objDiscard s (s.wr F.OBJ_STATUS.REJECT 1)) ∧
    (∀ s : State, s.on F.OBJ_STATUS.LOAD_BUSY = false → Leaves .objDiscard s
      (({ s with obj := { s.obj with pend := [], shadow := [] } } : State).wr F.OBJ_STATUS.PENDING 0)) ∧
    (∀ s : State, s.obj.left ≠ 0 → ∀ r s1, (s.reach (s.obj.at_ + 2)).readPiece 0x81 s.obj.src 32 = (r, s1) →
      (r = .wait → Leaves .objLoadWrite s s) ∧
      (∀ bs, r = .ok bs → Runs .objLoadWrite s (fun t => t.obj.left = s.obj.left - 1 ∧
        t.obj.src = (s.obj.src + 32) % 2 ^ 40 ∧ t.obj.idx = (s.obj.idx + 1) % 16384 ∧
        t.now = max s.now (s.obj.at_ + 2) ∧
        (∀ w, w < 8 → s1.arrived 6 (8 * s.obj.idx + w) = false →
          Tbl.get 0 (if s.on F.ENG_TICK_CTRL.RUN then t.obj.shadow else t.obj.act) (8 * s.obj.idx + w) =
            leAt bs (4 * w) 4 % 2 ^ 32) ∧
        (s.obj.left = 1 → t.on F.OBJ_STATUS.LOAD_BUSY = false ∧ t.on F.OBJ_STATUS.LOAD_DONE = true) ∧
        t.cores = s.cores)) ∧
      (r ≠ .wait → (∀ bs, r ≠ .ok bs) → Runs .objLoadWrite s (fun t => t.on F.OBJ_STATUS.LOAD_ERR = true ∧
        t.on F.OBJ_CTRL.HOLD = true ∧ t.on F.OBJ_STATUS.LOAD_BUSY = false ∧ t.obj = { s.obj with left := 0 } ∧
        t.cores = s.cores))) ∧
    (∀ s : State, s.obj.left = 0 → Leaves .objLoadWrite s s) ∧
    (∀ (s : State) (cause : Nat), cause < 3 → s.obj.left ≠ 0 → Runs (.objLoadError cause) s (fun t =>
      t.on F.OBJ_STATUS.LOAD_ERR = true ∧ t.on F.OBJ_CTRL.HOLD = true ∧ t.on F.OBJ_STATUS.LOAD_BUSY = false ∧
      t.obj = { s.obj with left := 0 } ∧ t.mem = s.mem ∧ t.cores = s.cores)) ∧
    (∀ (s : State) (cause : Nat), cause < 3 → s.obj.left = 0 → Leaves (.objLoadError cause) s s)) ∧
  (∀ (s : State) (n b : Nat), n < 17 → b < 2 →
      (s.shadows n = false →
        (∀ v, s.on (F.ENGn_Bb_FLIP_STATUS.PENDING n b) = false → Runs (.flipReq n b v) s (fun t =>
          t.on (F.ENGn_Bb_FLIP_STATUS.PENDING n b) = true ∧ t.rd (F.ENGn_Bb_FLIP.FENCE n b) = v % 64 ∧
          t.rd (F.ENGn_Bb_FLIP_STATUS.FRONT n b) = s.rd (F.ENGn_Bb_FLIP_STATUS.FRONT n b) ∧
          (t.engS n).stallRaised.testBit b = false ∧ (∀ m, m ≠ n → t.engS m = s.engS m) ∧
          t.mem = s.mem ∧ t.cores = s.cores)) ∧
        (∀ v, s.on (F.ENGn_Bb_FLIP_STATUS.PENDING n b) = true →
          Leaves (.flipReq n b v) s (s.wr (F.ENGn_Bb_FLIP.FENCE n b) v)) ∧
        (s.arrived 8 (2 * n + b) = false → s.arrived 10 (2 * n + b) = false → Runs (.flipCancel n b) s (fun t =>
          t.on (F.ENGn_Bb_FLIP_STATUS.PENDING n b) = false ∧ t.rd (F.ENGn_Bb_FLIP_STATUS.DEFER n b) = 0 ∧
          t.rd (F.ENGn_Bb_FLIP_STATUS.FRONT n b) = s.rd (F.ENGn_Bb_FLIP_STATUS.FRONT n b) ∧
          (∀ m, m ≠ n → t.engS m = s.engS m) ∧ t.mem = s.mem ∧ t.cores = s.cores)) ∧
        (s.arrived 8 (2 * n + b) = true ∨ s.arrived 10 (2 * n + b) = true → Runs (.flipCancel n b) s (fun t =>
          t.on (F.ENGn_Bb_FLIP_STATUS.PENDING n b) = false ∧
          t.on (F.ENGn_Bb_FLIP_STATUS.FLIPPED n b) = (s.arrived 10 (2 * n + b) && s.on (F.ENGn_Bb_FLIP_STATUS.FLIPPED n b)) ∧
          t.rd (F.ENGn_Bb_FLIP_STATUS.FRONT n b) = 1 - s.rd (F.ENGn_Bb_FLIP_STATUS.FRONT n b) ∧
          t.mem = s.mem ∧ t.cores = s.cores))) ∧
      (s.shadows n = true → ∀ v, s.on (F.ENGn_Bb_FLIP_STATUS.PENDING n b) = false → Runs (.flipReq n b v) s (fun t =>
        t.on (F.ENGn_Bb_FLIP_STATUS.PENDING n b) = true ∧ t.on (F.ENGn_Bb_FLIP_STATUS.PENDING 16 b) = true ∧
        t.rd (F.ENGn_Bb_FLIP.FENCE 16 b) = v % 64 ∧ t.mem = s.mem ∧ t.cores = s.cores)) ∧
      ((s.engS n).stallDue.testBit b = true → Runs (.flipStall n b) s (fun t =>
        t.on (F.ENGn_Bb_FLIP_STATUS.STALL n b) = true ∧ (t.engS n).stallRaised.testBit b = true ∧
        (t.engS n).stallDue.testBit b = false ∧
        (s.Calm → t.rd (F.FLT_SRCs_CNT.COUNT 0x0D) = min 255 (s.rd (F.FLT_SRCs_CNT.COUNT 0x0D) + 1)) ∧
        (∀ m, m ≠ n → t.engS m = s.engS m) ∧ t.mem = s.mem ∧ t.cores = s.cores)) ∧
      ((s.engS n).stallDue.testBit b = false → Leaves (.flipStall n b) s s))

/-- Composition (R43, R44, R46, R49, R69, R96, R121). The next line of a live engine starts once the raster is close
enough and no line is in composition, with the caches invalidated where INV was written (R100), and waits at pixel 0
for the object unit and for its commands; else pixel 0 passes as far as the memory answers. A line composed to its
last pixel ends 16 ECLK and its pixels, 2 per ECLK or 1 with a large affine step, after pixel 0, shows its slack,
goes into the line FIFO, poisoned where a fetch failed, and lets the next line start. -/
def Obligations.LinesComposed : Prop :=
  (∀ (s : State) (n : Nat), n < 17 →
    let k := (s.engS n).nextLine
    let u := (s.bltTo.tcSync n).modEng n (fun e => { e with comp := some { k := k }, compT := s.now })
    ((s.engS n).live = false ∨ (s.engS n).comp.isSome = true ∨ s.vActive n ≤ k ∨
      (s.engS n).rline ≤ s.rasterOf n k - s.berm n → Leaves (.composeStart n) s s) ∧
    ((s.engS n).live = true → (s.engS n).comp = none → k < s.vActive n → s.rasterOf n k - s.berm n < (s.engS n).rline →
      (u.engS n).comp.map (fun r => r.k) = some k ∧ (u.engS n).compT = s.now ∧ (u.engS n).tcInv = false ∧
      ((s.engS n).tcInv = true → (u.engS n).tcBlk = []) ∧
      ((u.engS n).cmp = none → ((u.engS n).active.isSome = true ∧ (u.engS n).objDone.contains k = false) ∨
        u.llPast n k = false → Leaves (.composeStart n) s u) ∧
      ((u.engS n).cmp.isSome = true → Leaves (.composeStart n) s u) ∧
      ((u.engS n).cmp = none → (u.engS n).active = none ∨ (u.engS n).objDone.contains k = true → u.llPast n k = true →
        (u.lineOpen n k = none → Leaves (.composeStart n) s u) ∧
        ((u.lineOpen n k).isSome = true → Runs (.composeStart n) s (fun t => t.now = u.now ∧
          (u.memc.sc = [] → t.cores = u.cores) ∧
          ∃ r, (t.engS n).comp = some r ∧ r.k = k ∧ ∃ c, (t.engS n).cmp = some c ∧ c.x = 0 ∧ c.acc = [] ∧
          c.t0 = u.now))))) ∧
  (∀ (s : State) (n : Nat), n < 17 →
    ((s.engS n).comp = none → Leaves (.lineComplete n) s s) ∧
    (∀ r, (s.engS n).comp = some r →
      let u := (s.compRun n).lineGo n r.k (s.hActive n)
      ((u.engS n).cmp = none → Leaves (.lineComplete n) s u) ∧
      (∀ c, (u.engS n).cmp = some c →
        (c.x < u.hActive n → Leaves (.lineComplete n) s u) ∧
        (u.hActive n ≤ c.x → Runs (.lineComplete n) s (fun t =>
          t.now = max u.now (c.t0 + 16 + (if c.slow then u.hActive n else (u.hActive n + 1) / 2)) ∧
          t.rd (F.ENGn_SLACK.LAST n) = min 65535 ((u.engS n).tStart + u.lineTime n (u.rasterOf n r.k) - t.now) ∧
          (t.engS n).comp = none ∧ (t.engS n).cmp = none ∧ (t.engS n).nextLine = r.k + 1 ∧
          (t.engS n).fifo = (u.engS n).fifo ++ [{ k := r.k, pix := c.acc.reverse, tDone := t.now
                                                  poisoned := c.bad || (u.engS n).poison.contains r.k }] ∧
          (u.memc.sc = [] → t.cores = u.cores))))))

/-- The object unit (R116, R121, R122, R124, R125, R127). It begins the next line of a live engine with an active
schedule when its own line is done, the composer has completed the line two before and the line's commands have been
read. It then draws the references of the band that select the line into the two line buffers; when the time they
take is over the line is done, poisoned where a fetch failed, and a composer that waited for it goes on. -/
def Obligations.ObjectUnitLines : Prop :=
  ∀ (s : State) (n : Nat), n < 17 →
    ((s.engS n).active = none ∨ (s.engS n).live = false ∨ (s.engS n).objWork.isSome = true ∨
      s.vActive n ≤ (s.engS n).objNext ∨ (s.engS n).nextLine + 1 < (s.engS n).objNext ∨
      s.llPast n (s.engS n).objNext = false → Leaves (.objLineStart n) s s) ∧
    ((s.engS n).active.isSome = true → (s.engS n).live = true → (s.engS n).objWork = none →
      (s.engS n).objNext < s.vActive n → (s.engS n).objNext ≤ (s.engS n).nextLine + 1 →
      s.llPast n (s.engS n).objNext = true →
      Runs (.objLineStart n) s (fun t => (t.engS n).objWork = some (s.engS n).objNext ∧
        (t.engS n).objNext = (s.engS n).objNext + 1 ∧ (t.engS n).objT = s.now ∧
        (t.engS n).objOrg = s.objOrigin n (s.engS n).objNext ∧ (t.engS n).ocInv = false ∧ RegsKept s t [] ∧
        t.now = s.now ∧
        t.mem = s.mem ∧ t.cores = s.cores)) ∧
    ((s.engS n).objWork = none → Leaves (.objLineDone n) s s.bltTo) ∧
    (∀ k, (s.engS n).objWork = some k → ∀ sc, (s.engS n).active = some sc →
      let u := s.bltTo
      let drawn := u.objDraw n k (u.hActive n) (s.engS n).objOrg (s.engS n).objShed (sc.bandRefs k) [] [] 0
      (drawn = none → Leaves (.objLineDone n) s u) ∧
      (∀ p v, drawn = some (p, v) → Runs (.objLineDone n) s (fun t => (t.engS n).objWork = none ∧
        (t.engS n).objDone = k :: (v.engS n).objDone ∧ t.now = max v.now ((v.engS n).objT + p.2.2.1) ∧
        Tbl.get [] (t.engS n).objBuf (2 * k) = p.1 ∧ Tbl.get [] (t.engS n).objBuf (2 * k + 1) = p.2.1 ∧
        (p.2.2.2 = true → (t.engS n).poison.contains k = true) ∧
        ((s.engS n).cmp = none → (s.engS n).objDone.contains k = false → ∀ r, (s.engS n).comp = some r → r.k = k →
          (t.engS n).objWait = (v.engS n).objWait + (t.now - (v.engS n).compT)) ∧
        (v.memc.sc = [] → t.cores = v.cores)))) ∧
    (∀ k, (s.engS n).objWork = some k → (s.engS n).active = none → Runs (.objLineDone n) s (fun t =>
      (t.engS n).objWork = none ∧ (t.engS n).objDone = k :: (s.engS n).objDone ∧ t.now = s.now ∧
      (s.memc.sc = [] → t.cores = s.cores)))

/-- The line tick (R35, R45-R51, R164, R177, R178, R466). The raster reaches its next line at that line's time, and the
line output one raster line before leaves the previews. A complete line leaves the FIFO and goes out, or in a freeze
the last good one does; a line that is not complete is abandoned and one that is poisoned, or of which the FIFO
gives an uncorrectable word (R278), dropped: the last good one replaces it, it is counted, and the frame's first
sets DIKE. The warden's lines in WATCH go out to no port, and in SERVE they stand for its target's, whose own go
nowhere. -/
def Obligations.LineTickOutput : Prop :=
  ∀ (s : State) (n : Nat), n < 17 →
    (s.vTotal n < (s.engS n).rline → Leaves (.lineTick n) s s) ∧
    ((s.engS n).rline ≤ s.vTotal n →
      let r := (s.engS n).rline
      let v := s.reach ((s.engS n).tStart + s.lineTime n r)
      let u := (v.recoverDue.pvwFlush n).modEng n (fun e => { e with rline := r + 1 })
      (v.flt.recovered = false → v.recoverDue = v) ∧
      ((s.engS n).outPrev = none → u = v.recoverDue.modEng n (fun e => { e with rline := r + 1 })) ∧
      u.now = max s.now ((s.engS n).tStart + s.lineTime n r) ∧
      (r < u.rasterOf n 0 → Leaves (.lineTick n) s u) ∧
      (u.rasterOf n 0 ≤ r → u.vActive n ≤ r - u.rasterOf n 0 → Leaves (.lineTick n) s
        (if (s.engS n).live ∨ (n < 16 ∧ u.idle n = true) then
          u.modEng n (fun e => { e with outPrev := some (r - u.rasterOf n 0, [], false, none) }) else u)) ∧
      (u.rasterOf n 0 ≤ r → r - u.rasterOf n 0 < u.vActive n →
        let k := r - u.rasterOf n 0
        ((s.engS n).live = false → n < 16 → u.idle n = true → Runs (.lineTick n) s (fun t => t.now = u.now ∧
          (∃ pix, (t.engS n).outPrev = some (k, pix, true, none)) ∧ (t.engS n).linesOut = (u.engS n).linesOut ∧
          t.cores = u.cores)) ∧
        ((s.engS n).live = false → n = 16 ∨ u.idle n = false → Leaves (.lineTick n) s u) ∧
        ((s.engS n).live = true →
          (∀ q, (u.engS n).fifo.find? (fun r => r.k == k) = some q → (u.engS n).poison.contains k = false →
            u.memc.arrErr.any (fun e => ArrWord.isLine n k e.1) = false →
            Runs (.lineTick n) s (fun t => t.now = u.now ∧ (t.engS n).rline = r + 1 ∧
              (t.engS n).fifo = (u.engS n).fifo.filter (fun r => r.k != k) ∧
              (t.engS n).linesOut = (u.engS n).linesOut + 1 ∧ (t.engS n).substCnt = (u.engS n).substCnt ∧
              (u.served n = false → u.flt.outFrozen = false → (t.engS n).outPrev = some (k, q.pix, false, none)) ∧
              (u.served n = false → u.flt.outFrozen = true → ∃ pix, (t.engS n).outPrev = some (k, pix, true, none)) ∧
              (u.served n = true → (t.engS n).outPrev = (u.engS n).outPrev) ∧ (u.memc.sc = [] → t.cores = u.cores))) ∧
          ((u.engS n).poison.contains k = true ∨ (u.engS n).fifo.find? (fun r => r.k == k) = none ∨
            (∃ q, (u.engS n).fifo.find? (fun r => r.k == k) = some q ∧
              ∃ w e, (w, e) ∈ u.memc.arrErr ∧ ArrWord.isLine n k w = true ∧ bchDecode e = none) →
            (n = 16 → u.wstate ≠ 2) → Runs (.lineTick n) s (fun t => t.now = u.now ∧
              (t.engS n).fifo = (u.engS n).fifo.filter (fun r => r.k != k) ∧
              (t.engS n).linesOut = (u.engS n).linesOut + 1 ∧ (t.engS n).substCnt = (u.engS n).substCnt + 1 ∧
              t.rd (F.ENGn_DIKE_SUBST.COUNT n) = min 0xFFFFFFFF (u.rd (F.ENGn_DIKE_SUBST.COUNT n) + 1) ∧
              ((u.engS n).substCnt = 0 → t.on (F.ENGn_STATUS.DIKE n) = true ∧ (t.engS n).substFirst = k) ∧
              ((u.engS n).fifo.find? (fun r => r.k == k) = none → (t.engS n).nextLine = k + 1 ∧
                (t.engS n).comp = none) ∧ (u.memc.sc = [] → t.cores = u.cores))) ∧
          ((u.engS n).poison.contains k = true ∨ (u.engS n).fifo.find? (fun r => r.k == k) = none → n = 16 →
            u.wstate = 2 → Runs (.lineTick n) s (fun t => (t.engS n).linesOut = (u.engS n).linesOut + 1 ∧
              (t.engS n).substCnt = (u.engS n).substCnt ∧ (u.memc.sc = [] → t.cores = u.cores))))))

/-- The polder tables (R152, R158, R159, R170). A word written to the inactive bank is stored and makes the bank
unchecked; a write to the active bank sets WR_ACTIVE and changes nothing else. CHECK starts the check, which ends in
PASS, or in FAIL with the code and the entry of the first failure; REFRESH_ALL asks for full frames at the next
tick. Static and frozen polders (R168, R169). An enabled polder of the active bank with MOTION and a FREEZE_N other
than 0 whose SAME_RUN has reached it is marked FROZEN once, while the device is not FROZEN itself: PLD_FREEZE counts
and names it, and fault 0x0F is raised. One with STATIC_OK whose SAME_RUN has reached ENTER_N (0 acts as 1) stops
sending; in STATIC the frame after REFRESH_N - 1 unsent ones, 0 acting as 255 unsent, is sent (the model's count
takes in the frame that begins). Otherwise nothing changes. -/
def Obligations.PolderCommands : Prop :=
  ((∀ (s : State) (b i w v : Nat), b < 2 → i < 4096 → w < 8 → v < 2 ^ 32 →
      (b ≠ s.pld.bank → Leaves (.pldTblWrite b i w v) s
          ((s.setReg (R.PLD_TBLb (32768 * b + 8 * i + w)) v).wr F.PLD_STATUS.CHK_STATE 0) ∧
        Runs (.pldTblWrite b i w v) s (fun t => t.pldWord b i w = v)) ∧
      (b = s.pld.bank → Leaves (.pldTblWrite b i w v) s (s.wr F.PLD_STATUS.WR_ACTIVE 1))) ∧
    (∀ s : State, Leaves .pldCheck s (s.wr F.PLD_STATUS.CHK_STATE 1)) ∧
    (∀ s : State, s.rd F.PLD_STATUS.CHK_STATE = 1 →
      (s.pldVerdict (1 - s.pld.bank) = none → Leaves .pldCheckDone s (s.wr F.PLD_STATUS.CHK_STATE 2)) ∧
      (∀ c i, s.pldVerdict (1 - s.pld.bank) = some (c, i) → Leaves .pldCheckDone s
        (((s.wr F.PLD_STATUS.CHK_STATE 3).wr F.PLD_STATUS.CHK_ERR c).wr F.PLD_STATUS.CHK_ENTRY i))) ∧
    (∀ s : State, s.rd F.PLD_STATUS.CHK_STATE ≠ 1 → Leaves .pldCheckDone s s) ∧
    (∀ s : State, Leaves .pldRefreshAll s { s with pld := { s.pld with refresh := true } })) ∧
  (∀ (s : State) (i : Nat), i < 4096 →
      let e := s.polder s.pld.bank i
      let freezes := e.en = true ∧ e.motion = true ∧ e.freezeN ≠ 0 ∧ e.freezeN ≤ s.rd (F.PLD_STAT.SAME_RUN i) ∧
        s.on (F.PLD_STAT.FROZEN i) = false ∧ s.rd F.FLT_STATUS.STATE ≠ 2
      let enters := e.en = true ∧ e.staticOk = true ∧ max 1 (s.rd F.PLD_STATIC.ENTER_N) ≤ s.rd (F.PLD_STAT.SAME_RUN i) ∧
        s.on (F.PLD_STAT.STATIC i) = false
      let refreshes := s.on (F.PLD_STAT.STATIC i) = true ∧ (s.pldS i).sending = false ∧
        (if e.refreshN = 0 then 255 else e.refreshN) ≤ (s.pldS i).unsent
      (freezes → Runs (.polderFreeze i) s (fun t =>
        t.on (F.PLD_STAT.FROZEN i) = true ∧ t.rd F.PLD_FREEZE.LAST = i ∧
        t.rd F.PLD_FREEZE.COUNT = (s.rd F.PLD_FREEZE.COUNT + 1) % 2 ^ 13 ∧
        t.rd (F.PLD_STAT.SAME_RUN i) = s.rd (F.PLD_STAT.SAME_RUN i) ∧
        (s.Calm → t.rd (F.FLT_SRCs_CNT.COUNT 0x0F) = min 255 (s.rd (F.FLT_SRCs_CNT.COUNT 0x0F) + 1)) ∧
        RegsKept s t [R.PLD_STAT i, R.PLD_FREEZE] ∧ t.pld = s.pld ∧ t.mem = s.mem ∧ t.cores = s.cores)) ∧
      (¬ freezes → Leaves (.polderFreeze i) s s) ∧
      (enters → Leaves (.staticEnter i) s
        ((s.wr (F.PLD_STAT.STATIC i) 1).modPld i (fun p => { p with sending := false, unsent := 1 }))) ∧
      (¬ enters → Leaves (.staticEnter i) s s) ∧
      (refreshes → Leaves (.staticRefresh i) s (s.modPld i (fun p => { p with sending := true, unsent := 0 }))) ∧
      (¬ refreshes → Leaves (.staticRefresh i) s s))

/-- The warden (R171, R172, R174, R175). EN takes what is written. WATCH ends when its frames are done (WATCH_N 0 acts
as 1) or TARGET is not RUNNING, and goes to PREP for the next eligible engine, whose palettes and schedules EW
takes, or to IDLE; a mismatch run of CONFIRM_N (0 acts as 1) is confirmed once: fault 0x11, or with TAKEOVER the
takeover at the next tick. RELEASE is taken in SERVE after two frames of a RUNNING target and sets REJECT otherwise;
FENCE bits written 1 clear, but for one that a takeover sets in the same cycle (R18). -/
def Obligations.WardenCommands : Prop :=
  (∀ (s : State) (en : Bool), Leaves (.wardEnable en) s (s.wr F.ENG_WARD_CTRL.EN (if en then 1 else 0))) ∧
  (∀ s : State,
    let ends := s.rd F.ENG_WARD_STATUS.WSTATE = 2 ∧
      (max 1 (s.rd F.ENG_WARD_CTRL.WATCH_N) ≤ s.rd F.ENG_WARD_STATUS.FRAMES ∨
        s.rd (F.ENGn_CTRL.STATE (s.rd F.ENG_WARD_STATUS.TARGET)) ≠ 2)
    (ends → ∀ n, s.nextTarget = some n → Runs .watchEnd s (fun t => t.rd F.ENG_WARD_STATUS.WSTATE = 1 ∧
      t.rd F.ENG_WARD_STATUS.TARGET = n ∧ t.rd F.ENG_WARD_STATUS.FRAMES = 0 ∧ t.ward.last = n ∧ t.ward.run = 0 ∧
      (t.engS 16).active = (s.engS n).active ∧ (t.engS 16).pal = (s.engS n).pal ∧ (t.engS 16).live = false ∧
      (∀ m, m ≠ 16 → t.engS m = s.engS m) ∧ t.mem = s.mem ∧ t.cores = s.cores)) ∧
    (ends → s.nextTarget = none → Runs .watchEnd s (fun t => t.rd F.ENG_WARD_STATUS.WSTATE = 0 ∧ t.ward = s.ward ∧
      (t.engS 16).live = false ∧ (∀ m, m ≠ 16 → t.engS m = s.engS m) ∧ RegsKept s t [R.ENG_WARD_STATUS] ∧
      t.mem = s.mem ∧ t.cores = s.cores)) ∧
    (¬ ends → Leaves .watchEnd s s)) ∧
  (∀ s : State,
    let confirms := s.rd F.ENG_WARD_STATUS.WSTATE = 2 ∧ s.ward.frameMis = true ∧ s.ward.confirmed = false ∧
      max 1 (s.rd F.ENG_WARD_CTRL.CONFIRM_N) ≤ s.ward.run
    (confirms → Leaves .wardenConfirm s { s with
        ward := { s.ward with confirmed := true, takeover := s.ward.takeover || s.on F.ENG_WARD_CTRL.TAKEOVER } } ∧
      Runs .wardenConfirm s (fun t => s.Calm → t.rd (F.FLT_SRCs_CNT.COUNT 0x11) =
        min 255 (s.rd (F.FLT_SRCs_CNT.COUNT 0x11) + if s.on F.ENG_WARD_CTRL.TAKEOVER then 0 else 1))) ∧
    (¬ confirms → Leaves .wardenConfirm s s)) ∧
  (∀ s : State, s.rd F.ENG_WARD_STATUS.WSTATE = 3 → 2 ≤ s.ward.targetFrames →
    Leaves .wardRelease s { s with ward := { s.ward with release := true } }) ∧
  (∀ s : State, (s.rd F.ENG_WARD_STATUS.WSTATE ≠ 3 ∨ s.ward.targetFrames < 2) →
    Leaves .wardRelease s (s.wr F.ENG_WARD_STATUS.REJECT 1)) ∧
  (∀ (s : State) (m : Nat), Runs (.wardFenceClear m) s (fun t =>
    (∀ n, n < 16 → (t.rd F.ENG_WARD_FENCE.FENCE).testBit n = ((s.rd F.ENG_WARD_FENCE.FENCE).testBit n &&
      (!m.testBit n || (s.setNow R.ENG_WARD_FENCE).testBit (F.ENG_WARD_FENCE.FENCE.lo + n)))) ∧
    t.ward = s.ward ∧ t.eng = s.eng ∧ t.mem = s.mem ∧ t.cores = s.cores ∧ RegsKept s t [R.ENG_WARD_FENCE]))

/-- The preview outputs (R176, R182). ENABLE starts a preview that is OFF, which reads DPCD where HPD is high, and stops
one that RUNS; HPD and IRQ_HPD are shown, and a rise of HPD in STARTING reads DPCD; HPD low for more than 2 ms in
RUNNING returns the preview to STARTING with the link down; a link that lost lock trains again; training that ends
well sets LINKUP, and otherwise TRAIN_FAIL, and is tried again 100 ms later; GO sends an AUX request unless one is
under way, and its end shows the result, with the bytes of a read; a timeout comes 400 us after the request. -/
def Obligations.PreviewCommands : Prop :=
  ∀ (s : State) (n : Nat), n < 2 →
    let dpcd := fun (l : List Emit) => if s.on (F.PVWn_STATUS.HPD n) then Emit.aux n 9 0 16 [] :: l else l
    (∀ en, Runs (.pvwEnable n en) s (fun t => t.on (F.PVWn_CTRL.ENABLE n) = en ∧
      t.rd (F.PVWn_CTRL.STATE n) = (match s.rd (F.PVWn_CTRL.STATE n) with
        | 0 => if en then 1 else 0
        | 2 => if en then 2 else 3
        | x => x) ∧
      t.sent = (if s.rd (F.PVWn_CTRL.STATE n) = 0 ∧ en = true then dpcd s.sent else s.sent) ∧
      RegsKept s t [R.PVWn_CTRL n] ∧ t.pvw = s.pvw ∧ t.mem = s.mem ∧ t.cores = s.cores)) ∧
    Runs (.hpdPlug n) s (fun t => t.on (F.PVWn_STATUS.HPD n) = true ∧ (t.pvwS n).hpdLow = none ∧
      t.sent = (if s.rd (F.PVWn_CTRL.STATE n) = 1 then Emit.aux n 9 0 16 [] :: s.sent else s.sent) ∧
      RegsKept s t [R.PVWn_STATUS n] ∧ t.mem = s.mem ∧ t.cores = s.cores) ∧
    (s.on (F.PVWn_STATUS.HPD n) = true → Leaves (.hpdLow n) s ((s.wr (F.PVWn_STATUS.HPD n) 0).modPvw n
      (fun p => { p with hpdLow := some s.now }))) ∧
    (s.on (F.PVWn_STATUS.HPD n) = false → Leaves (.hpdLow n) s s) ∧
    (∀ t0, (s.pvwS n).hpdLow = some t0 → Runs (.hpdLowTimeout n) s (fun t =>
      t.rd (F.PVWn_CTRL.STATE n) = (if s.rd (F.PVWn_CTRL.STATE n) = 2 then 1 else s.rd (F.PVWn_CTRL.STATE n)) ∧
      t.on (F.PVWn_STATUS.LINKUP n) = (if s.rd (F.PVWn_CTRL.STATE n) = 2 then false else s.on (F.PVWn_STATUS.LINKUP n)) ∧
      (t.pvwS n).hpdLow = none ∧ t.now = max s.now (t0 + 1200001) ∧ t.mem = s.mem ∧ t.cores = s.cores)) ∧
    ((s.pvwS n).hpdLow = none → Leaves (.hpdLowTimeout n) s s) ∧
    (∀ lost, Runs (.irqHpd n lost) s (fun t => t.on (F.PVWn_STATUS.IRQ_HPD n) = true ∧
      t.on (F.PVWn_STATUS.LINKUP n) = (s.on (F.PVWn_STATUS.LINKUP n) && !lost) ∧
      Emit.aux n 9 0x202 6 [] ∈ t.sent ∧ RegsKept s t [R.PVWn_STATUS n] ∧ t.mem = s.mem ∧ t.cores = s.cores)) ∧
    (∀ rate lanes,
      let trains := s.on (F.PVWn_STATUS.HPD n) = true ∧ s.on (F.PVWn_STATUS.LINKUP n) = false ∧
        (s.rd (F.PVWn_CTRL.STATE n) = 1 ∨ s.rd (F.PVWn_CTRL.STATE n) = 2)
      (trains → Runs (.dpTrainDone n true rate lanes) s (fun t => t.on (F.PVWn_STATUS.LINKUP n) = true ∧
          t.rd (F.PVWn_STATUS.RATE n) = min rate (s.rd (F.PVWn_CTRL.MAXRATE n)) ∧
          t.rd (F.PVWn_STATUS.LANES n) = min lanes (min 2 (s.rd (F.PVWn_CTRL.MAXLANES n))) ∧
          (t.pvwS n).retryAt = none ∧ RegsKept s t [R.PVWn_STATUS n] ∧ t.mem = s.mem ∧ t.cores = s.cores) ∧
        Leaves (.dpTrainDone n false rate lanes) s ((s.wr (F.PVWn_STATUS.TRAIN_FAIL n) 1).modPvw n
          (fun p => { p with retryAt := some (s.now + 60000000) }))) ∧
      (¬ trains → ∀ ok, Leaves (.dpTrainDone n ok rate lanes) s s)) ∧
    (∀ t0, (s.pvwS n).retryAt = some t0 → Runs (.dpTrainRetry n) s (fun t =>
      (t.pvwS n).retryAt = (if s.on (F.PVWn_STATUS.HPD n) then none else some (t0 + 60000000)) ∧
      t.now = max s.now t0 ∧ t.sent = dpcd s.sent ∧ RegsKept s t [] ∧
      t.mem = s.mem ∧ t.cores = s.cores)) ∧
    ((s.pvwS n).retryAt = none → Leaves (.dpTrainRetry n) s s) ∧
    (∀ v, v.testBit 31 = true → s.on (F.PVWn_AUX_STATUS.BUSY n) = false → Runs (.auxGo n v) s (fun t =>
      t.on (F.PVWn_AUX_STATUS.BUSY n) = true ∧ (t.pvwS n).auxAt = s.now ∧ (t.pvwS n).auxReq = bitsOf v 0 4 ∧
      (∃ data, t.sent = .aux n (bitsOf v 0 4) (bitsOf v 4 20) (bitsOf v 24 4 + 1) data :: s.sent) ∧
      t.mem = s.mem ∧ t.cores = s.cores)) ∧
    (∀ v, v.testBit 31 = false ∨ s.on (F.PVWn_AUX_STATUS.BUSY n) = true → Runs (.auxGo n v) s (fun t =>
      t.sent = s.sent ∧ t.pvw = s.pvw ∧ t.rd (F.PVWn_AUX_CMD.REQ n) = bitsOf v 0 4 ∧
      RegsKept s t [R.PVWn_AUX_CMD n] ∧ t.mem = s.mem ∧ t.cores = s.cores)) ∧
    (∀ result bytes, result < 4 → s.on (F.PVWn_AUX_STATUS.BUSY n) = true → Runs (.auxDone n result bytes) s (fun t =>
      t.on (F.PVWn_AUX_STATUS.BUSY n) = false ∧ t.rd (F.PVWn_AUX_STATUS.RESULT n) = result ∧
      t.rd (F.PVWn_AUX_STATUS.COUNT n) = min 16 bytes.length ∧
      (∀ i, i < 16 → bitsOf (t.reg (R.PVWn_AUX_DATAj n (i / 4))) (8 * (i % 4)) 8 =
        (if (s.pvwS n).auxReq % 2 = 1 ∧ i < bytes.length then bytes.getD i 0 % 256
         else bitsOf (s.reg (R.PVWn_AUX_DATAj n (i / 4))) (8 * (i % 4)) 8)) ∧
      t.now = (if result = 3 then max s.now ((s.pvwS n).auxAt + 240000) else s.now) ∧ t.mem = s.mem ∧
      t.cores = s.cores)) ∧
    (∀ result bytes, s.on (F.PVWn_AUX_STATUS.BUSY n) = false → Leaves (.auxDone n result bytes) s s)

/-- Lane states of a link end (R189; numbers from 24 on name tile sides). Block lock takes LOCK to TRAIN and its loss
takes TRAIN and UP to LOCK; TRAIN sends a TRAIN block every 1 us; a received TRAIN takes UP to TRAIN, and TRAIN to
UP once both sides have seen each other with version 1. Timers of a link end (R197, R198, R201, R210). On an UP lane
a NAK not answered within 8 us is sent again, an ACK goes out when it is due, STOP is repeated every 2 us while it
stands (a port whose receive buffer has by then fallen to 32 cells sends STOP = 0; how fast its functions empty it
is free, log 22), a STOP received 8 us ago no longer stops the transmitter, and an ECHO_REQ with the next tag goes
out every PERIOD. Held cells are resent when the oldest is RETRY_TO old, and the lane trains again in place of a
resend beyond RETRY_MAX. -/
def Obligations.LaneStatesAndTimers : Prop :=
  (∀ (s : State) (l : Nat), l < 3096 →
      (s.laneSt l = 1 → Runs (.blockLock l) s (fun t => t.laneSt l = 2 ∧ (t.laneS l).seen = false ∧
        (t.laneS l).trainAt = s.now ∧ (l < 24 → t.on (F.PLKn_LSTAT.LOCK l) = true) ∧ t.mem = s.mem ∧
        t.cores = s.cores)) ∧
      ((s.laneSt l = 2 ∨ s.laneSt l = 3) → Runs (.blockLockLoss l) s (fun t => t.laneSt l = 1 ∧
        (l < 24 → t.on (F.PLKn_LSTAT.LOCK l) = false) ∧ t.mem = s.mem ∧ t.cores = s.cores)) ∧
      (s.laneSt l = 2 → Runs (.trainSend l) s (fun t => t.laneSt l = 2 ∧ t.now = max s.now (s.laneS l).trainAt ∧
        (t.laneS l).trainAt = t.now + 600 ∧ (∃ arg chk, t.sent = .lcb l 0xA7 arg chk :: s.sent ∧ arg % 2 = 1 ∧
          arg.testBit 1 = (s.laneS l).seen ∧ arg.testBit 2 = decide (24 ≤ l) ∧ bitsOf arg 8 8 = 1 ∧
          chk = lcbChk 0xA7 arg) ∧
        RegsKept s t [] ∧ t.mem = s.mem ∧ t.cores = s.cores)) ∧
      (s.laneSt l = 2 → Runs (.train l true true 1) s (fun t => t.laneSt l = 3 ∧ t.mem = s.mem ∧ t.cores = s.cores)) ∧
      (s.laneSt l ≠ 1 → Leaves (.blockLock l) s s) ∧
      (s.laneSt l ≠ 2 → s.laneSt l ≠ 3 → Leaves (.blockLockLoss l) s s) ∧
      (s.laneSt l ≠ 2 → Leaves (.trainSend l) s s) ∧
      (s.laneSt l = 2 →
      ∀ seen version, Leaves (.train l false seen version) s (s.modLane l (fun x => { x with inRun := false }))) ∧
      (s.laneSt l = 3 → ∀ locked seen version, Runs (.train l locked seen version) s (fun t => t.laneSt l = 2 ∧
        (t.laneS l).seen = locked ∧ t.mem = s.mem ∧ t.cores = s.cores))) ∧
  (∀ (s : State) (l : Nat), l < 3096 →
      (s.laneSt l ≠ 3 → Leaves (.nakRepeat l) s s ∧ Leaves (.ackTimer l) s s ∧ Leaves (.flowRepeat l) s s ∧
        Leaves (.echoPeriod l) s s ∧ Leaves (.retryTimeout l) s s) ∧
      (s.laneSt l = 3 → ∀ t0, (s.laneS l).nakAt = some t0 →
      Runs (.nakRepeat l) s (fun t => t.now = max s.now (t0 + 4800) ∧
        (t.laneS l).nakAt = some t.now ∧ (t.laneS l).lcbs = (s.laneS l).lcbs ++ [(0xA3, (s.laneS l).e, t.now)] ∧
        t.mem = s.mem ∧ t.cores = s.cores)) ∧
      (s.laneSt l = 3 → ∀ t0, (s.laneS l).ackDue = some t0 → Runs (.ackTimer l) s (fun t => t.now = max s.now t0 ∧
      RegsKept s t [] ∧
        t.lane = (s.modLane l (fun x => { x with lcbs := x.lcbs ++ [(0xA2, x.e, max s.now t0)], sinceAck := 0, ackDue := none })).lane ∧
        t.mem = s.mem ∧ t.cores = s.cores)) ∧
      (s.laneSt l = 3 → ∀ t0, (s.laneS l).stopSent = some t0 → (24 ≤ l ∨ 32 < (s.portS l).rxBuf) →
        Runs (.flowRepeat l) s (fun t => t.now = max s.now (t0 + 1200) ∧
          ((t.laneS l).lcbs = (s.laneS l).lcbs ++ [(0xA4, 1, t.now)] ∧ (t.laneS l).stopSent = some t.now ∨
            l < 24 ∧ (t.portS l).rxBuf ≤ 32 ∧ (t.laneS l).lcbs = (s.laneS l).lcbs ++ [(0xA4, 0, t.now)] ∧
              (t.laneS l).stopSent = none) ∧
          (l < 24 → (t.portS l).rxBuf ≤ (s.portS l).rxBuf) ∧ RegsKept s t [] ∧ t.mem = s.mem ∧ t.cores = s.cores)) ∧
      (s.laneSt l = 3 → l < 24 → (s.laneS l).stopSent.isSome = true → (s.portS l).rxBuf ≤ 32 →
        Runs (.flowRepeat l) s (fun t => (t.laneS l).lcbs = (s.laneS l).lcbs ++ [(0xA4, 0, t.now)] ∧
          (t.laneS l).stopSent = none ∧ RegsKept s t [] ∧ t.mem = s.mem ∧ t.cores = s.cores)) ∧
      (∀ t0, (s.laneS l).stopAt = some t0 → Runs (.flowTimeout l) s (fun t => t.now = max s.now (t0 + 4800) ∧
        (t.laneS l).stopAt = none ∧ (l < 24 → t.on (F.PLKn_LSTAT.PEER_STOP l) = false) ∧ t.mem = s.mem ∧
        t.cores = s.cores)) ∧
      (s.laneSt l = 3 → (if l < 24 then s.rd (F.PLKn_ECHO.PERIOD l) else 1000) ≠ 0 → Runs (.echoPeriod l) s (fun t =>
        (t.laneS l).tag = ((s.laneS l).tag + 1) % 65536 ∧
        (t.laneS l).lcbs = (s.laneS l).lcbs ++ [(0xA5, ((s.laneS l).tag + 1) % 65536, t.now)] ∧
        t.now = max s.now ((s.laneS l).echoAt + (if l < 24 then s.rd (F.PLKn_ECHO.PERIOD l) else 1000) * 600) ∧
        RegsKept s t [] ∧ t.mem = s.mem ∧ t.cores = s.cores)) ∧
      (s.laneSt l = 3 → ∀ h rest, (s.laneS l).retry = h :: rest → (s.laneS l).inRow < s.retryMax l →
        Runs (.retryTimeout l) s (fun t => t.laneSt l = 3 ∧ t.now = max s.now (h.tSent + s.retryTo l) ∧
          (t.laneS l).resend = (s.laneS l).retry.map (fun h => h.seq) ∧ (t.laneS l).retry = (s.laneS l).retry ∧
          (t.laneS l).inRow = (s.laneS l).inRow + 1 ∧
          (l < 24 → t.rd (F.PLKn_TIMEOUT.COUNT l) = min 0xFFFFFFFF (s.rd (F.PLKn_TIMEOUT.COUNT l) + 1)) ∧
          t.mem = s.mem ∧
          t.cores = s.cores)) ∧
      (s.laneSt l = 3 → ∀ h rest, (s.laneS l).retry = h :: rest → s.retryMax l ≤ (s.laneS l).inRow →
        Runs (.retryTimeout l) s (fun t => t.laneSt l = 2 ∧ t.now = max s.now (h.tSent + s.retryTo l) ∧ t.mem = s.mem ∧
          t.cores = s.cores)))

/-- Control blocks that a link end in UP receives (R184-R187, R197, R198, R201, R210). SOR starts a cell run and any
other block ends it. ACK releases the cells held before NEXT, at most 64 of them; NAK of a held cell releases them
too and has every held cell from NEXT resent, once in RETRY_TO, unless RETRY_MAX resends have brought no ACK: then
the lane trains again; FLOW stops and starts the transmitter; ECHO_REQ is answered, and the answer to the
outstanding ECHO_REQ is a sample of the link delay, but for a port whose PERIOD is 0; a bad block sets LCB_ERR and a
bad cell is counted and answered with NAK. -/
def Obligations.ControlBlocksReceived : Prop :=
  ∀ (s : State) (l : Nat), l < 3096 →
    Leaves (.idle l) s (s.modLane l (fun x => { x with inRun := false })) ∧
    Leaves (.sor l) s (s.modLane l (fun x => { x with inRun := true })) ∧
    Leaves (.lcbErr l) s (if l < 24 then s.wr (F.PLKn_LSTAT.LCB_ERR l) 1 else s) ∧
    (s.laneSt l = 3 →
      (∀ next, Runs (.ack l next) s (fun t => (t.laneS l).inRun = false ∧ (t.laneS l).retry = (s.laneS l).retry.filter
          (fun h => !(decide (1 ≤ (next + 4096 - h.seq) % 4096) && decide ((next + 4096 - h.seq) % 4096 ≤ 64))) ∧
        (t.laneS l).e = (s.laneS l).e ∧ (t.laneS l).next = (s.laneS l).next ∧ RegsKept s t [] ∧ t.mem = s.mem ∧
        t.cores = s.cores)) ∧
      (∀ next, (s.laneS l).retry.any (fun h => h.seq == next) = true → (s.laneS l).nakFrom = none →
        (s.laneS l).inRow < s.retryMax l → Runs (.nak l next) s (fun t => t.laneSt l = 3 ∧
          (t.laneS l).retry = (s.laneS l).retry.filter
            (fun h => !(decide (1 ≤ (next + 4096 - h.seq) % 4096) && decide ((next + 4096 - h.seq) % 4096 ≤ 64))) ∧
          (t.laneS l).resend = (t.laneS l).retry.map (fun h => h.seq) ∧
          (t.laneS l).nakFrom = (t.laneS l).retry.head?.map (fun h => (h.seq, s.now)) ∧
          t.mem = s.mem ∧ t.cores = s.cores)) ∧
      (∀ next, (s.laneS l).retry.any (fun h => h.seq == next) = true → (s.laneS l).nakFrom = none →
        s.retryMax l ≤ (s.laneS l).inRow → ((s.laneS l).release next).retry = (s.laneS l).retry →
        Runs (.nak l next) s (fun t => t.laneSt l = 2 ∧ t.mem = s.mem ∧ t.cores = s.cores)) ∧
      (∀ next, (s.laneS l).retry.any (fun h => h.seq == next) = false ∨
          (∃ t0, (s.laneS l).nakFrom = some (next, t0) ∧ s.now < t0 + s.retryTo l) →
        Leaves (.nak l next) s (s.modLane l (fun x => { x with inRun := false }))) ∧
      (∀ stop, Runs (.flow l stop) s (fun t => (t.laneS l).stopAt = (if stop then some s.now else none) ∧
        (l < 24 → t.on (F.PLKn_LSTAT.PEER_STOP l) = stop) ∧ (t.laneS l).inRun = false ∧ t.mem = s.mem ∧
        t.cores = s.cores)) ∧
      (∀ tag, Leaves (.echoReq l tag) s
        (s.modLane l (fun x => { x with inRun := false, lcbs := x.lcbs ++ [(0xA6, tag, s.now)] }))) ∧
      (∀ turn tag t0, (s.laneS l).echo = some (tag, t0) →
      Runs (.echoRsp l tag turn) s (fun t => (t.laneS l).echo = none ∧
        (t.laneS l).samples = (if l < 24 ∧ s.rd (F.PLKn_ECHO.PERIOD l) = 0 then (s.laneS l).samples
          else (((qns (s.now - t0) : Int) - turn).tdiv 2 :: (s.laneS l).samples).take 8) ∧
        (l < 24 → s.rd (F.PLKn_ECHO.PERIOD l) = 0 →
          t.rd (F.PLKn_LINK_DELAY.DELAY l) = s.rd (F.PLKn_LINK_DELAY.DELAY l)) ∧ t.mem = s.mem ∧ t.cores = s.cores)) ∧
      (∀ turn tag, (∀ t0, (s.laneS l).echo ≠ some (tag, t0)) → Leaves (.echoRsp l tag turn) s
        (s.modLane l (fun x => { x with inRun := false }))) ∧
      (∀ cut, (s.laneS l).inRun = true → Runs (.badCell l cut) s (fun t => (t.laneS l).inRun = !cut ∧
        (t.laneS l).bad = (s.laneS l).bad + 1 ∧ (t.laneS l).nakAt.isSome = true ∧ (t.laneS l).e = (s.laneS l).e ∧
        (l < 24 → t.rd (F.PLKn_CRC_ERR.COUNT l) = min 0xFFFFFFFF (s.rd (F.PLKn_CRC_ERR.COUNT l) + 1)) ∧ t.mem = s.mem ∧
        t.cores = s.cores)))

/-- Every cell type at a link end in UP and in a cell run (R198). The cell with the expected sequence number E is
accepted: E advances by 1 modulo 4,096 and no NAK is outstanding. One already accepted, up to 2,047 behind, is
answered with an ACK at once and has no other effect; any other has NAK(E) sent, if none is outstanding, and no
other effect. A transmitter in UP (R186, R194, R197, R200). A waiting control block goes out where nothing is to be
resent; a held cell to be resent goes out again under its number where the receiver does not stop it; else a waiting
cell goes out with its CRC, after SOR where a run begins, and is held under its sequence number, which advances
modulo 4,096; with nothing to send the run ends, a half block being filled. The lane of a port that has become OFF
sends IDLE (R203). A held cell with an uncorrectable word is dropped and the lane retrains (R278). -/
def Obligations.CellsInSequence : Prop :=
  (∀ (s : State) (l seq mode addr w1 w2 w3 pay : Nat), l < 3096 → seq < 4096 → s.laneSt l = 3 →
      (s.laneS l).inRun = true → (s.laneS l).e < 4096 →
      ∀ i ∈ [Instr.cellPixel l seq mode addr w1 w2 w3 pay, .cellTick l seq mode addr w1 w2 w3 pay,
        .cellCfgWr l seq mode addr w1 w2 w3 pay, .cellCfgRd l seq mode addr w1 w2 w3 pay,
        .cellCfgRsp l seq mode addr w1 w2 w3 pay, .cellDisc l seq mode addr w1 w2 w3 pay,
        .cellDiscRsp l seq mode addr w1 w2 w3 pay, .cellTelem l seq mode addr w1 w2 w3 pay,
        .cellAuth l seq mode addr w1 w2 w3 pay, .cellAuthRsp l seq mode addr w1 w2 w3 pay,
        .cellNote l seq mode addr w1 w2 w3 pay],
      (seq = (s.laneS l).e → Runs i s (fun t => (t.laneS l).e = (seq + 1) % 4096 ∧ (t.laneS l).nakAt = none)) ∧
      (1 ≤ ((s.laneS l).e + 4096 - seq) % 4096 → ((s.laneS l).e + 4096 - seq) % 4096 ≤ 2047 →
        Leaves i s (s.modLane l (fun x => { x with lcbs := x.lcbs ++ [(0xA2, x.e, s.now)], sinceAck := 0, ackDue := none }))) ∧
      (2047 < ((s.laneS l).e + 4096 - seq) % 4096 → (s.laneS l).nakAt = none → Runs i s (fun t =>
        (t.laneS l).lcbs = (s.laneS l).lcbs ++ [(0xA3, (s.laneS l).e, s.now)] ∧ (t.laneS l).nakAt = some s.now ∧
        (t.laneS l).e = (s.laneS l).e ∧ t.tile = s.tile ∧ t.port = s.port ∧ t.chain = s.chain))) ∧
  (∀ (s : State) (l : Nat), l < 3096 → s.laneSt l = 3 →
      let filled := if (s.laneS l).runCells % 2 = 1 then Emit.fill l :: s.sent else s.sent
      let opened := if (s.laneS l).runCells = 0 then .lcb l 0xA1 0 (lcbChk 0xA1 0) :: s.sent else s.sent
      (l < 24 → (s.portS l).idleEnd.isSome = true → Runs (.cellSend l) s (fun t =>
        t.sent = .lcb l 0x1E 0 (lcbChk 0x1E 0) :: filled ∧ (t.laneS l).queue = (s.laneS l).queue ∧ t.mem = s.mem ∧
        t.cores = s.cores)) ∧
      (24 ≤ l ∨ (s.portS l).idleEnd = none →
        ((s.laneS l).resend = [] → ∀ typ arg t0 rest, (s.laneS l).lcbs = (typ, arg, t0) :: rest → typ ≠ 0xA6 →
          Runs (.cellSend l) s (fun t => t.sent = .lcb l typ arg (lcbChk typ arg) :: filled ∧ (t.laneS l).lcbs = rest ∧
            (t.laneS l).runCells = 0 ∧ (t.laneS l).queue = (s.laneS l).queue ∧ t.mem = s.mem ∧ t.cores = s.cores)) ∧
        ((s.laneS l).stopAt = none → ∀ q rest, (s.laneS l).resend = q :: rest →
          ∀ h, (s.laneS l).retry.find? (fun x => x.seq == q) = some h → h.q.cell.typ ≠ 2 →
          (∀ g ∈ (s.laneS l).retry, g.q.bad = []) → Runs (.cellSend l) s (fun t =>
            t.sent = .cell l q h.q.cell (h.q.cell.crc q) :: opened ∧ (t.laneS l).resend = rest ∧
            (t.laneS l).next = (s.laneS l).next ∧ (t.laneS l).queue = (s.laneS l).queue ∧
            (l < 24 → (t.portS l).retx = (s.portS l).retx + 1) ∧ t.mem = s.mem ∧ t.cores = s.cores)) ∧
        ((s.laneS l).resend = [] → ∀ q, (s.laneS l).queue = [q] → (s.laneS l).lcbs = [] → (s.laneS l).stopAt = none →
          q.cell.typ ≠ 1 → q.cell.typ ≠ 2 → q.bad = [] → (s.laneS l).retry = [] → Runs (.cellSend l) s (fun t =>
            (t.laneS l).queue = [] ∧ (t.laneS l).retry = [{ seq := (s.laneS l).next, q := q, tSent := s.now }] ∧
            (t.laneS l).next = ((s.laneS l).next + 1) % 4096 ∧
            t.sent = .cell l (s.laneS l).next q.cell (q.cell.crc (s.laneS l).next) :: opened ∧
            t.mem = s.mem ∧ t.cores = s.cores)) ∧
        ((s.laneS l).stopAt = none → ∀ q rest, (s.laneS l).resend = q :: rest →
          ∀ h e, (s.laneS l).retry.find? (fun x => x.seq == q) = some h → h.q.bad = [e] → bchDecode e.2 = none →
          Runs (.cellSend l) s (fun t => t.laneSt l = 2 ∧ t.cores = s.cores ∧
            (t.laneS l).retry = (s.laneS l).retry.filter (fun g => g.seq != q))) ∧
        ((s.laneS l).resend = [] → (s.laneS l).queue = [] → (s.laneS l).lcbs = [] → Runs (.cellSend l) s (fun t =>
          t.sent = filled ∧ (t.laneS l).runCells = 0 ∧ (t.laneS l).retry = (s.laneS l).retry ∧ RegsKept s t [] ∧
          t.mem = s.mem ∧ t.cores = s.cores))))

/-- What accepted cells do at a tile that they address by MODE 2 with ADDR 0, side `d` of tile `k` (R192, R206, R207,
R220-R222, R229). The first PIXEL begins a received frame. A TICK of a later frame takes its feed port from its
side; a tile with an address presents its frame from then on, one without keeps presenting nothing. CFG_WR writes a
tile register, CFG_RD, DISC and a challenge are answered by the same link end. -/
def Obligations.CellsAtTile : Prop :=
  ∀ (s : State) (k d w1 w2 w3 pay : Nat), k < 1536 → d < 2 →
    s.laneSt (tileLane k d) = 3 → (s.laneS (tileLane k d)).inRun = true → (s.laneS (tileLane k d)).queue = [] →
    let l := tileLane k d
    let e := (s.laneS (tileLane k d)).e
    ((s.tileS k).p = none → (s.tileS k).r = none → Runs (.cellPixel l e 2 0 w1 w2 w3 pay) s (fun t =>
      (t.tileS k).r = some (bitsOf w1 16 16) ∧ (t.tileS k).p = none ∧ t.mem = s.mem ∧ t.cores = s.cores)) ∧
    ((s.tileS k).valid = true → (∀ f, (s.tileS k).p = some f → later (bitsOf w1 16 16) f = true) →
      Runs (.cellTick l e 2 0 w1 w2 w3 pay) s (fun t => (t.tileS k).p = some (bitsOf w1 16 16) ∧
        (t.tileS k).maxCorr = max (s.tileS k).maxCorr w2 ∧ (t.tileS k).feed = d ∧ (t.tileS k).r = none ∧
        t.mem = s.mem ∧ t.cores = s.cores)) ∧
    ((s.tileS k).valid = true → (∃ f, (s.tileS k).p = some f ∧ later (bitsOf w1 16 16) f = false) →
      Runs (.cellTick l e 2 0 w1 w2 w3 pay) s (fun t =>
        t.tile = (s.modTile k (fun x => { x with maxCorr := max x.maxCorr w2 })).tile ∧ t.mem = s.mem ∧
        t.cores = s.cores)) ∧
    ((s.tileS k).valid = false → (s.tileS k).acc = none → Runs (.cellTick l e 2 0 w1 w2 w3 pay) s (fun t =>
      (t.tileS k).p = (s.tileS k).p ∧ (t.tileS k).acc = some (bitsOf w1 16 16) ∧ (t.tileS k).feed = d ∧
      (t.tileS k).shown = (s.tileS k).shown ∧ t.mem = s.mem ∧ t.cores = s.cores)) ∧
    (bitsOf w1 0 16 = 4 → bitsOf w1 16 7 = 0 → Runs (.cellCfgWr l e 2 0 w1 w2 w3 pay) s (fun t =>
      (t.tileS k).telemPeriod = payField pay 0 4 % 65536 ∧ (t.tileS k).addr = (s.tileS k).addr ∧ t.mem = s.mem ∧
      t.cores = s.cores)) ∧
    Runs (.cellCfgRd l e 2 0 w1 w2 w3 pay) s (fun t => t.tile = s.tile ∧
      ∃ q, (t.laneS l).queue = [q] ∧ q.cell.typ = 5 ∧ q.cell.dir = 1 ∧ q.cell.mode = 2 ∧ q.cell.w1 = w1 ∧
        bitsOf q.cell.w2 0 16 = bitsOf w2 0 16 ∧ q.ctl = true) ∧
    Runs (.cellDisc l e 2 0 w1 w2 w3 pay) s (fun t => t.tile = s.tile ∧
      ∃ q, (t.laneS l).queue = [q] ∧ q.cell.typ = 7 ∧ q.cell.dir = 1 ∧ q.cell.mode = 2 ∧ q.cell.w1 = bitsOf w1 0 16) ∧
    (bitsOf w1 16 4 = 1 → Runs (.cellAuth l e 2 0 w1 w2 w3 pay) s (fun t => t.tile = s.tile ∧
      ∃ q, (t.laneS l).queue = [q] ∧ q.cell.typ = 0xA ∧ q.cell.dir = 1 ∧ q.cell.w1 = w1 % 2 ^ 20))

/-- What accepted cells of a port that is in no ring do at the Skokor for the tile with table index `64 * p + addr`,
addressed by MODE 0 (R223, R228, R231, R238): TELEM fills the tile's telemetry, a LATE note its late count, a
challenge answered under its TAG with another key refuses the tile, and an answer with another TAG does nothing, a
DISC_RSP to the cascade's own DISC names the reached hop, and a CFG_RSP changes nothing but the link. The cell
enters the port's receive buffer, at 64 cells of which STOP has been sent (R201). -/
def Obligations.CellsAtSkokor : Prop :=
  ∀ (s : State) (p addr w1 w2 w3 pay : Nat), p < 24 → addr < 64 → s.laneSt p = 3 → (s.laneS p).inRun = true →
    s.rd (F.PLKn_RING.MODE p) = 0 →
    let k := 64 * p + addr
    let e := (s.laneS p).e
    Runs (.cellTelem p e 0 addr w1 w2 w3 pay) s (fun t => t.rd (F.PLK_TILE4.TEMP k) = payField pay 0 2 ∧
      t.rd (F.PLK_TILE4.SUPPLY k) = payField pay 2 2 ∧ t.rd (F.PLK_TILE0.LATE k) = payField pay 8 2 ∧
      t.rd (F.PLK_TILE7.MAXCORR k) = payField pay 12 4 ∧ (t.chT k).telemAt = some s.now ∧ t.mem = s.mem ∧
      t.cores = s.cores) ∧
    (bitsOf w1 0 8 = 5 → Runs (.cellNote p e 0 addr w1 w2 w3 pay) s (fun t =>
      t.rd (F.PLK_TILE0.LATE k) = w2 % 65536 ∧ t.chain = s.chain ∧ t.mem = s.mem ∧ t.cores = s.cores)) ∧
    (bitsOf w1 16 4 = 1 → (s.chT k).step = 1 → bitsOf w1 0 16 = (s.chT k).atag →
      beVal (sha384 (beBytes 97 (payField pay 0 97))) ≠ (s.chT k).keyhash →
      Runs (.cellAuthRsp p e 0 addr w1 w2 w3 pay) s (fun t => t.rd (F.PLK_TILE0.TSTATE k) = 5 ∧ t.mem = s.mem)) ∧
    (bitsOf w1 0 16 ≠ (s.chT k).atag → Runs (.cellAuthRsp p e 0 addr w1 w2 w3 pay) s (fun t =>
      t.rd (F.PLK_TILE0.TSTATE k) = s.rd (F.PLK_TILE0.TSTATE k) ∧ t.chain = s.chain ∧ t.sec = s.sec ∧ t.mem = s.mem ∧
      t.cores = s.cores)) ∧
    ((s.portS p).step = 1 → (s.portS p).hop = addr + 1 → (s.portS p).farTest = false →
      w1 % 65536 = (s.portS p).dtag → s.rd (F.PLK_TILE0.TSTATE k) ≠ 3 →
      Runs (.cellDiscRsp p e 2 addr w1 w2 w3 pay) s (fun t => t.rd (F.PLKn_CSTAT.REACH p) = addr + 1 ∧
        t.rd (F.PLK_TILE0.TSTATE k) = 1 ∧ t.rd (F.PLK_TILE1.UID_HI k) = payField pay 0 4 ∧
        t.rd (F.PLK_TILE2.UID_LO k) = payField pay 4 4 ∧ (t.portS p).step = 2 ∧ t.mem = s.mem ∧ t.cores = s.cores)) ∧
    Runs (.cellCfgRsp p e 0 addr w1 w2 w3 pay) s (fun t => t.chain = s.chain ∧
      t.port = (s.modPort p (fun x => { x with rxBuf := (t.portS p).rxBuf })).port ∧
      (t.portS p).rxBuf ≤ min 128 ((s.portS p).rxBuf + 1) ∧
      (64 ≤ (t.portS p).rxBuf → (t.laneS p).stopSent.isSome = true) ∧ t.mem = s.mem ∧ t.cores = s.cores)

/-- A port (R189, R203, R209). Enabled from OFF it is STARTING with its lane in LOCK, disabled in RUNNING it is
STOPPING; the stop ends in OFF when the FIFO and the retry buffer are empty, or 1 ms after the tick, and the lane
powers down 10 us later; RETRAIN takes UP to TRAIN; an offset above 16,000,000 is refused. PIXEL_HOLD_END comes 2 us
after PRES (R208). -/
def Obligations.PortCommands : Prop :=
  ∀ (s : State) (p : Nat), p < 24 →
    (s.rd (F.PLKn_CTRL.STATE p) = 0 → Runs (.portEnable p true) s (fun t => t.rd (F.PLKn_CTRL.STATE p) = 1 ∧
      t.on (F.PLKn_CTRL.ENABLE p) = true ∧ t.laneSt p = 1 ∧ t.mem = s.mem ∧ t.cores = s.cores)) ∧
    (s.rd (F.PLKn_CTRL.STATE p) = 2 → Runs (.portEnable p false) s (fun t => t.rd (F.PLKn_CTRL.STATE p) = 3 ∧
      t.on (F.PLKn_CTRL.ENABLE p) = false ∧ t.laneSt p = s.laneSt p ∧ t.mem = s.mem ∧ t.cores = s.cores)) ∧
    (∀ en, s.rd (F.PLKn_CTRL.STATE p) = 1 ∨ s.rd (F.PLKn_CTRL.STATE p) = 3 →
      Leaves (.portEnable p en) s (s.wr (F.PLKn_CTRL.ENABLE p) (if en then 1 else 0))) ∧
    (∀ t0, (s.portS p).idleEnd = some t0 → Runs (.portStopDone p) s (fun t => t.laneSt p = 0 ∧
      t.on (F.PLKn_LSTAT.LOCK p) = false ∧ (t.portS p).idleEnd = none ∧ t.now = max s.now t0 ∧
      t.rd (F.PLKn_CTRL.STATE p) = s.rd (F.PLKn_CTRL.STATE p) ∧ t.mem = s.mem ∧ t.cores = s.cores)) ∧
    ((s.portS p).idleEnd = none → ∀ t0, (s.portS p).stopTick = some t0 → s.rd (F.PLKn_CTRL.STATE p) = 3 →
      s.on (F.PLKn_CTRL.ENABLE p) = false → Runs (.portStopDone p) s (fun t => t.rd (F.PLKn_CTRL.STATE p) = 0 ∧
        t.laneSt p = s.laneSt p ∧ t.now = (if (s.laneS p).retry = [] ∧ s.fifoCells p = 0 then s.now
          else max s.now (t0 + 600000)) ∧
        (t.portS p).idleEnd = some (t.now + 6000) ∧ (t.laneS p).queue = [] ∧ (t.laneS p).retry = [] ∧
        t.mem = s.mem ∧ t.cores = s.cores)) ∧
    ((s.portS p).idleEnd = none → (s.portS p).stopTick = none ∨ s.rd (F.PLKn_CTRL.STATE p) ≠ 3 →
      Leaves (.portStopDone p) s s) ∧
    (s.laneSt p = 3 → Runs (.retrain p) s (fun t => t.laneSt p = 2 ∧ t.on (F.PLKn_LSTAT.DOWN p) = true ∧
      t.mem = s.mem ∧ t.cores = s.cores)) ∧
    (s.laneSt p ≠ 3 → Leaves (.retrain p) s s) ∧
    (∀ v, v < 2 ^ 32 → 16000000 < v → Leaves (.plkPresWrite v) s (s.wr F.PLK_STATUS.CFG_REJECT 1)) ∧
    (∀ v, v ≤ 16000000 → Runs (.plkPresWrite v) s (fun t => t.rd F.PLK_PRES.OFS = v ∧
      (s.on F.ENG_TICK_CTRL.RUN = false → t.act F.PLK_PRES.OFS = v) ∧ RegsKept s t [R.PLK_PRES] ∧ t.mem = s.mem ∧
      t.cores = s.cores)) ∧
    Leaves (.pixelHoldEnd p) s { s with
      now := max s.now ((s.portS p).lastTick + qnsUp (s.act F.PLK_PRES.OFS) + 1200) }

/-- Discovery and its timers (R223, R224, R226). REDISC at a port that is not a ring's far port starts the cascade at
hop 1 with DISC; a DISC unanswered 100 us and the round trip later is tried three times in all, and then the cascade
has ended one hop before; an address write without READY 2.0 ms and the round trip later ends it there; the patrol
of a port that is no far port and knows no break sends one DISC every PERIOD ms to the next hop up to one beyond
REACH, of which two more tries follow before an ADMITTED tile is LOST. -/
def Obligations.DiscoveryAndPatrol : Prop :=
  ∀ (s : State) (p : Nat), p < 24 →
    (s.isB p = false → s.rd (F.PLKn_CTRL.STATE p) ≠ 0 → s.laneSt p = 3 → Runs (.redisc p) s (fun t =>
      t.rd (F.PLKn_CSTAT.DSTATE p) = 1 ∧ t.rd (F.PLKn_CSTAT.REACH p) = 0 ∧ (t.portS p).hop = 1 ∧ (t.portS p).step = 1 ∧
      (t.portS p).tries = 1 ∧ t.mem = s.mem ∧ t.cores = s.cores)) ∧
    (s.rd (F.PLKn_CTRL.STATE p) = 0 ∨ s.laneSt p ≠ 3 → Leaves (.redisc p) s s) ∧
    ((s.portS p).step = 1 → (s.portS p).tries < 3 → Runs (.discTimeout p) s (fun t =>
      (t.portS p).tries = (s.portS p).tries + 1 ∧ (t.portS p).hop = (s.portS p).hop ∧ (t.portS p).step = 1 ∧
      t.now = max s.now ((s.portS p).sentAt + 60000 + 4200 * (s.portS p).hop) ∧ (t.portS p).sentAt = t.now ∧
      t.mem = s.mem ∧ t.cores = s.cores)) ∧
    ((s.portS p).step = 1 → 3 ≤ (s.portS p).tries → (s.portS p).hop ≤ 64 → Runs (.discTimeout p) s (fun t =>
      t.rd (F.PLKn_CSTAT.DSTATE p) = 2 ∧ t.rd (F.PLKn_CSTAT.REACH p) = (s.portS p).hop - 1 ∧ (t.portS p).step = 0 ∧
      t.mem = s.mem ∧ t.cores = s.cores)) ∧
    ((s.portS p).step = 0 → ∀ hop tries t0 rest, (s.portS p).patWait = (hop, tries, t0) :: rest →
      (tries < 3 → Runs (.discTimeout p) s (fun t => t.now = max s.now (t0 + 60000 + 4200 * hop) ∧
        (t.portS p).patWait = rest ++ [(hop, tries + 1, t.now)] ∧ RegsKept s t [] ∧ t.mem = s.mem ∧
        t.cores = s.cores)) ∧
      (3 ≤ tries → 64 * s.tableOf p + s.addrAt p hop < 1536 → s.reaches p (s.addrAt p hop) = true →
        Runs (.discTimeout p) s (fun t =>
        t.now = max s.now (t0 + 60000 + 4200 * hop) ∧ (t.portS p).patWait = rest ∧
        t.rd (F.PLK_TILE0.TSTATE (64 * s.tableOf p + s.addrAt p hop)) =
          (if s.rd (F.PLK_TILE0.TSTATE (64 * s.tableOf p + s.addrAt p hop)) = 3 then 6
           else s.rd (F.PLK_TILE0.TSTATE (64 * s.tableOf p + s.addrAt p hop))) ∧ t.mem = s.mem ∧ t.cores = s.cores))) ∧
    ((s.portS p).step = 0 → (s.portS p).patWait = [] → Leaves (.discTimeout p) s s) ∧
    ((s.portS p).step = 2 → (s.portS p).hop ≤ 64 → Runs (.readyTimeout p) s (fun t =>
      t.rd (F.PLKn_CSTAT.DSTATE p) = 2 ∧ t.rd (F.PLKn_CSTAT.REACH p) = (s.portS p).hop ∧ (t.portS p).step = 0 ∧
      t.now = max s.now ((s.portS p).sentAt + 1200000 + 4200 * (s.portS p).hop) ∧ t.mem = s.mem ∧ t.cores = s.cores)) ∧
    ((s.portS p).step ≠ 2 → Leaves (.readyTimeout p) s s) ∧
    (s.rd (F.PLKn_DISC.PERIOD p) ≠ 0 → s.laneSt p = 3 →
    (s.rd (F.PLKn_CTRL.STATE p) = 1 ∨ s.rd (F.PLKn_CTRL.STATE p) = 2) →
      (s.portS p).step = 0 → s.isB p = false → (s.portS p).breaks = [] →
      let last := min 64 (s.rd (F.PLKn_CSTAT.REACH p) + 1)
      let hop := if (s.portS p).patHop = 0 ∨ last < (s.portS p).patHop then 1 else (s.portS p).patHop
      Runs (.patrol p) s (fun t => t.now = max s.now ((s.portS p).patAt + s.rd (F.PLKn_DISC.PERIOD p) * 600000) ∧
        (t.portS p).patAt = t.now ∧ (t.portS p).patHop = hop + 1 ∧
        (t.portS p).patWait = (s.portS p).patWait.filter (fun w => w.1 != hop) ++ [(hop, 1, t.now)] ∧
        RegsKept s t [] ∧ t.mem = s.mem ∧ t.cores = s.cores)) ∧
    (s.rd (F.PLKn_DISC.PERIOD p) = 0 ∨ s.laneSt p ≠ 3 ∨ (s.portS p).step ≠ 0 → Leaves (.patrol p) s s)

/-- Tiles (R206, R223, R228, R238): a scheduled presentation applies its brightness, limited to 0x8000, and its blank; a
tile with an address sends READY once, when its time base is locked, which it is once its feed lane is UP, with
black buffers where the address was new; one with a telemetry period sends its telemetry and counts it.
Authentication of tiles and the watch over them (R231, R236, R239). A signature over the challenge that does not
verify refuses the tile; one that verifies with an enrolled key admits it. A challenge unanswered for 10 ms three
times refuses the tile. Telemetry older than STALE ms is fault 0x41 once. The working split of a closed ring moves
by one tile, within LO..HI, in a tick's own cycle, where a port has retransmitted too much; in other cycles it
stays. The sign unit ends its operation. -/
def Obligations.TilesAndAuthentication : Prop :=
  (∀ (s : State) (k : Nat), k < 1536 →
      let locks := (s.tileS k).tlock = true ∨ s.laneSt (tileLane k (s.tileS k).feed) = 3
      (∀ t0 bright blank, (s.tileS k).sched = some (t0, bright, blank) → Runs (.tilePresent k) s (fun t =>
        t.now = max s.now t0 ∧ (t.tileS k).sched = none ∧ (t.tileS k).ready = [] ∧
        (t.tileS k).bright = min 0x8000 bright ∧ (t.tileS k).blank = (blank || !(s.tileS k).valid) ∧ RegsKept s t [] ∧
        t.mem = s.mem ∧ t.cores = s.cores)) ∧
      ((s.tileS k).sched = none → Leaves (.tilePresent k) s s) ∧
      (locks → (s.tileS k).valid = true → (s.tileS k).readySent = false → Runs (.tileReady k) s (fun t =>
        (t.tileS k).readySent = true ∧ (t.tileS k).tlock = true ∧ (t.tileS k).addr = (s.tileS k).addr ∧
        (t.tileS k).blacken = false ∧ (t.tileS k).shown = (if (s.tileS k).blacken then [] else (s.tileS k).shown) ∧
        RegsKept s t [] ∧ t.mem = s.mem ∧ t.cores = s.cores)) ∧
      (¬ locks → Leaves (.tileReady k) s s) ∧
      ((s.tileS k).valid = true → (s.tileS k).telemPeriod ≠ 0 → Runs (.telemSend k) s (fun t =>
        t.now = max s.now ((s.tileS k).telemAt + (s.tileS k).telemPeriod * 600000) ∧ (t.tileS k).telemAt = t.now ∧
        (t.tileS k).telemCount = ((s.tileS k).telemCount + 1) % 65536 ∧ (t.tileS k).streamDrop = 0 ∧ RegsKept s t [] ∧
        t.mem = s.mem ∧ t.cores = s.cores)) ∧
      ((s.tileS k).valid = false ∨ (s.tileS k).telemPeriod = 0 → Leaves (.telemSend k) s s)) ∧
  ((∀ (s : State) (k t0 : Nat) (rest : List (VerJob × Nat)), k < 1536 → s.sec.verRun = (.tile k 0, t0) :: rest →
      (s.chT k).step = 2 →
      let ok := ecVerify (beBytes 97 (s.chT k).pubkey)
        (sha384 (beBytes 48 (s.chT k).nonce ++ (beBytes 4 (s.rd (F.PLK_TILE1.UID_HI k)) ++ beBytes 4 (s.rd (F.PLK_TILE2.UID_LO k))) ++
          [BitVec.ofNat 8 (k % 64)])) (beBytes 96 (s.chT k).sig)
      (ok = false → Runs .verifyDone s (fun t => t.rd (F.PLK_TILE0.TSTATE k) = 5 ∧ t.now = max s.now t0 ∧
      t.mem = s.mem ∧
        t.cores = s.cores)) ∧
      (ok = true → s.sec.enrolled.contains (beBytes 48 (s.chT k).keyhash) = true → (s.chT k).background = false →
        Runs .verifyDone s (fun t => t.rd (F.PLK_TILE0.TSTATE k) = 3 ∧ t.on (F.PLK_TILE0.ENROLLED k) = true ∧
          t.now = max s.now t0 ∧ t.mem = s.mem ∧ t.cores = s.cores))) ∧
    (∀ (s : State) (k : Nat), s.sec.signJob = some (.attest k) → Runs .signDone s (fun t => t.sec.signJob = none ∧
      t.now = max s.now s.sec.signT ∧ t.cores = s.cores)) ∧
    (∀ (s : State) (k : Nat), k < 1536 → (s.chT k).step ≠ 1 → Leaves (.challengeTimeout k) s s) ∧
    (∀ (s : State) (k : Nat), k < 1536 → (s.chT k).step = 1 → (s.chT k).tries < 3 → s.sec.trngBad = false →
      Runs (.challengeTimeout k) s (fun t => t.rd (F.PLK_TILE0.TSTATE k) = s.rd (F.PLK_TILE0.TSTATE k) ∧
        (t.chT k).step = 1 ∧ (t.chT k).tries = (s.chT k).tries + 1 ∧ t.now = max s.now ((s.chT k).sentAt + 6000000) ∧
        (t.chT k).sentAt = t.now ∧ t.mem = s.mem ∧ t.cores = s.cores)) ∧
    (∀ (s : State) (k : Nat), k < 1536 → (s.chT k).step = 1 → 3 ≤ (s.chT k).tries →
    Runs (.challengeTimeout k) s (fun t =>
      t.rd (F.PLK_TILE0.TSTATE k) = 5 ∧ (t.chT k).step = 0 ∧ t.now = max s.now ((s.chT k).sentAt + 6000000) ∧
      t.mem = s.mem ∧ t.cores = s.cores)) ∧
    (∀ (s : State) (k : Nat), k < 1536 → s.rd (F.PLK_TILE0.TSTATE k) = 3 → (s.chT k).staleRaised = false →
      Runs (.telemStale k) s (fun t => (t.chT k).staleRaised = true ∧
        t.now = max s.now ((s.chT k).telemAt.getD 0 + s.rd F.PLK_LIMITS.STALE * 600000 + 1) ∧
        (s.Calm → t.rd (F.FLT_SRCs_CNT.COUNT 0x41) = min 255 (s.rd (F.FLT_SRCs_CNT.COUNT 0x41) + 1)) ∧ RegsKept s t [] ∧
        t.mem = s.mem ∧ t.cores = s.cores)) ∧
    (∀ (s : State) (k : Nat), k < 1536 → (s.rd (F.PLK_TILE0.TSTATE k) ≠ 3 ∨ (s.chT k).staleRaised = true) →
      Leaves (.telemStale k) s s) ∧
    (∀ (s : State) (a : Nat), a < 24 → (s.portS a).lastTick ≠ s.now → Leaves (.rebalance a) s s) ∧
    (∀ (s : State) (a : Nat), a < 24 → (s.portS a).lastTick = s.now → (s.portS a).wait = 0 →
    (s.portS a).breaks = [] → s.on (F.PLKn_RSTAT.CLOSED a) = true →
      (max 1 (s.rd (F.PLKn_REBAL.N a)) ≤ (s.portS a).runA ∨ max 1 (s.rd (F.PLKn_REBAL.N a)) ≤ (s.portS a).runB) →
      let new := if max 1 (s.rd (F.PLKn_REBAL.N a)) ≤ (s.portS a).runA then (s.portS a).split - 1 else (s.portS a).split + 1
      s.rd (F.PLKn_REBAL_RANGE.LO a) ≤ new → new ≤ s.rd (F.PLKn_REBAL_RANGE.HI a) → new ≤ s.ringLen a →
      new ≠ (s.portS a).split → Runs (.rebalance a) s (fun t => (t.portS a).split = new ∧ (t.portS a).runA = 0 ∧
        (t.portS a).runB = 0 ∧ t.on (F.PLKn_RSTAT.REBALANCED a) = true ∧ t.mem = s.mem ∧ t.cores = s.cores)))

/-- Blitter queues (R240-R245, R254). ENABLE starts a queue that is OFF, which is STARTING, but for a write in the cycle
of the error that cleared ENABLE; it takes a RUNNING queue that executes nothing OFF, and one that executes a
command to STOPPING. TAIL outside the ring is refused; TAIL past HEAD of a RUNNING queue with nothing fetched
fetches words 0-23 of the command at HEAD. Once the queue has started and its command is fetched (`u`), and where
the blitter serves it, NOP completes, FENCE signals its counter modulo 2^32 and completes, and a WAIT completes
where its fence or its tick has come; else the queue waits. A command that completes moves HEAD on by one slot and
counts; a row for a command that stands at no HEAD, or is not served, leaves the queue there. A BLT (R246-R257): a
bit of a result is the bit of the raster operation that the bits of pattern, source and destination name. A command
that fails its checks stops its queue with the code and changes no memory; one that passes is in execution from then
on, with no row written. It shows its watermark once, when the rows up to it are written, and completes when all
are, its fence signalled; a queue that is STOPPING is then OFF. One that an error stopped stops its queue with code
6. -/
def Obligations.BlitterCommands : Prop :=
  (∀ (s : State) (q : Nat), q < 4 →
      (∀ v, s.bltState q = 0 → v.testBit 0 = true → s.arrived 5 q = false → Runs (.bltQEnable q v) s (fun t =>
        t.bltState q = 1 ∧ t.on (F.BLT_Qq_CTRL.ENABLE q) = true ∧
        t.rd (F.BLT_Qq_HEAD.HEAD q) = s.rd (F.BLT_Qq_HEAD.HEAD q) ∧
        t.blt.run = s.blt.run ∧ t.mem = s.mem ∧ t.cores = s.cores)) ∧
      (∀ v, s.bltState q = 0 → s.arrived 5 q = true → Runs (.bltQEnable q v) s (fun t =>
        t.bltState q = 0 ∧ t.on (F.BLT_Qq_CTRL.ENABLE q) = false ∧ t.blt = s.blt ∧ t.mem = s.mem ∧ t.cores = s.cores)) ∧
      (∀ v, s.bltState q = 2 → v.testBit 0 = false → Runs (.bltQEnable q v) s (fun t =>
        t.bltState q = (if s.bltBusy q then 3 else 0) ∧ t.on (F.BLT_Qq_CTRL.ENABLE q) = false ∧
        (s.bltBusy q = false → t.on (F.BLT_Qq_STATUS.WAITING q) = false ∧ t.bltHead q = none) ∧ t.blt.run = s.blt.run ∧
        t.mem = s.mem ∧ t.cores = s.cores)) ∧
      (∀ v, v < 65536 → 2 ^ s.bltLog2 q ≤ v → Leaves (.bltTailWrite q v) s (s.hwSet (F.BLT_Qq_STATUS.CFG_REJECT q))) ∧
      (∀ v, v < 2 ^ s.bltLog2 q → s.bltState q = 0 → Runs (.bltTailWrite q v) s (fun t =>
        t.rd (F.BLT_Qq_TAIL.TAIL q) = v ∧ t.on (F.BLT_Qq_STATUS.EMPTY q) = decide (s.rd (F.BLT_Qq_HEAD.HEAD q) = v) ∧
        t.blt = s.blt ∧ t.mem = s.mem ∧ t.cores = s.cores)) ∧
      (∀ v, v < 2 ^ s.bltLog2 q → s.bltState q = 2 → s.bltHead q = none → v ≠ s.rd (F.BLT_Qq_HEAD.HEAD q) →
        let w := (s.writeByCode (R.BLT_Qq_TAIL q) v).wrB (F.BLT_Qq_STATUS.EMPTY q) false
        ∀ bs w', w.bltRead (s.rd (F.BLT_Qq_BASE_LO.BASE_LO q) * 128 + s.rd (F.BLT_Qq_BASE_HI.BASE_HI q) * 2 ^ 32 +
            128 * s.rd (F.BLT_Qq_HEAD.HEAD q)) 96 = (.ok bs, w') → Runs (.bltTailWrite q v) s (fun t =>
          t.bltHead q = some ((List.range 24).map (fun i => leAt bs (4 * i) 4)) ∧ t.mem = w'.mem ∧
          t.cores = w'.cores)) ∧
      (let u := s.bltUpTo q
       ((s.bltHead q).isSome = true → (∀ k, k < 4 → s.bltState k ≠ 1) → u =
         s.wrB (F.BLT_Qq_STATUS.EMPTY q) (s.rd (F.BLT_Qq_HEAD.HEAD q) == s.rd (F.BLT_Qq_TAIL.TAIL q))) ∧
       (u.bltStart q = none → Leaves (.bltNop q) s u ∧ Leaves (.bltFence q) s u ∧ Leaves (.fenceWaitDone q) s u) ∧
       (∀ w, u.bltStart q = some w →
        (bltOp w = 0 → Runs (.bltNop q) s (fun t =>
          t.rd (F.BLT_Qq_HEAD.HEAD q) = (u.rd (F.BLT_Qq_HEAD.HEAD q) + 1) % 2 ^ u.bltLog2 q ∧
          t.rd (F.BLT_Qq_CMDS.COUNT q) = min 0xFFFFFFFF (u.rd (F.BLT_Qq_CMDS.COUNT q) + 1) ∧
          t.rd F.BLT_STATUS.CURQ = q ∧
          t.on (F.BLT_Qq_STATUS.DONE q) = u.on (F.BLT_Qq_STATUS.DONE q) ∧ t.blt.served = some q ∧ t.blt.run = none ∧
          t.cores = u.cores)) ∧
        (bltOp w ≠ 0 → Leaves (.bltNop q) s u) ∧
        (bltOp w = 4 → Runs (.bltFence q) s (fun t =>
          t.rd (F.BLT_Qq_HEAD.HEAD q) = (u.rd (F.BLT_Qq_HEAD.HEAD q) + 1) % 2 ^ u.bltLog2 q ∧
          t.rd (F.BLT_FENCEf.COUNT (bltFence w)) = (u.rd (F.BLT_FENCEf.COUNT (bltFence w)) + 1) % 2 ^ 32 ∧
          t.rd F.BLT_STATUS.CURQ = q ∧ t.blt.served = some q ∧ t.blt.run = none ∧ t.cores = u.cores)) ∧
        (bltOp w ≠ 4 → Leaves (.bltFence q) s u) ∧
        (bltOp w = 2 → Runs (.fenceWaitDone q) s (fun t =>
          t.rd (F.BLT_Qq_HEAD.HEAD q) = (u.rd (F.BLT_Qq_HEAD.HEAD q) + 1) % 2 ^ u.bltLog2 q ∧
          t.rd F.BLT_STATUS.CURQ = q ∧ t.on (F.BLT_Qq_STATUS.WAITING q) = false ∧ t.blt.run = none ∧
          t.cores = u.cores)) ∧
        (bltOp w ≠ 2 → Leaves (.fenceWaitDone q) s u)) ∧
       (u.bltState q = 2 → ∀ w, u.bltHead q = some w →
       ∀ c op, (c, op) ∈ [(Instr.bltWaitFence q, 2), (.bltWaitTick q, 3)] →
        bltOp w = op →
        (u.waitOver q w = false → Runs c s (fun t => t.on (F.BLT_Qq_STATUS.WAITING q) = true ∧
          t.rd (F.BLT_Qq_HEAD.HEAD q) = u.rd (F.BLT_Qq_HEAD.HEAD q) ∧ t.blt = u.blt ∧ t.mem = u.mem ∧
          t.cores = u.cores)) ∧
        (u.waitOver q w = true → u.bltStart q = some w → Runs c s (fun t =>
          t.rd (F.BLT_Qq_HEAD.HEAD q) = (u.rd (F.BLT_Qq_HEAD.HEAD q) + 1) % 2 ^ u.bltLog2 q ∧
          t.on (F.BLT_Qq_STATUS.WAITING q) = false ∧ t.rd F.BLT_STATUS.CURQ = q ∧ t.cores = u.cores))))) ∧
  ((∀ (rop p s d nb i : Nat), i < nb → (bltRes rop p s d nb).testBit i =
      rop.testBit ((if p.testBit i then 4 else 0) + (if s.testBit i then 2 else 0) + (if d.testBit i then 1 else 0))) ∧
    (∀ (s : State) (q : Nat), q < 4 → let u := s.bltUpTo q
      (u.bltStart q = none → Leaves (.bltDraw q) s u) ∧
      (∀ w, u.bltStart q = some w →
        (bltOp w = 0 ∨ bltOp w = 2 ∨ bltOp w = 3 ∨ bltOp w = 4 → Leaves (.bltDraw q) s u) ∧
        (bltOp w = 1 ∨ 5 ≤ bltOp w → bltCheck w ≠ 0 → Runs (.bltDraw q) s (fun t =>
          t.rd (F.BLT_Qq_STATUS.ERR_CODE q) = bltCheck w ∧ t.on (F.BLT_Qq_STATUS.ERR q) = true ∧
          t.on (F.BLT_Qq_CTRL.ENABLE q) = false ∧ t.bltState q = 0 ∧
          t.rd (F.BLT_Qq_HEAD.HEAD q) = u.rd (F.BLT_Qq_HEAD.HEAD q) ∧ t.mem = u.mem ∧ t.cores = u.cores)) ∧
        (bltOp w = 1 → bltCheck w = 0 → Runs (.bltDraw q) s (fun t => t.on F.BLT_STATUS.BUSY = true ∧
          t.rd F.BLT_STATUS.CURQ = q ∧ t.rd (F.BLT_Qq_PROG.ROWS q) = 0 ∧
          t.blt.run = some { q := q, words := w, t0 := u.now, wm := bltBit w 13 } ∧
          t.rd (F.BLT_Qq_HEAD.HEAD q) = u.rd (F.BLT_Qq_HEAD.HEAD q) ∧ t.now = u.now ∧ t.mem = u.mem ∧
          t.cores = u.cores)))) ∧
    (∀ (s : State), s.blt.run = none → Leaves .watermark s s ∧ Leaves .bltDone s s ∧ Leaves .bltExecError s s) ∧
    (∀ (s : State) (r : BltRun), s.blt.run = some r → r.q < 4 →
      (r.wm = false → Leaves .watermark s s) ∧
      (r.wm = true → let u := (s.reach r.wmAt).bltTo;
        u.now = max s.now r.wmAt ∧ ∀ r', u.blt.run = some r' →
          (r'.wm = true → r'.wmRows ≤ r'.rows → Runs .watermark s (fun t => t.on (F.BLT_Qq_STATUS.WM r'.q) = true ∧
            t.blt = { u.blt with run := some { r' with wm := false } } ∧ t.now = u.now ∧ t.mem = u.mem ∧
            t.cores = u.cores)) ∧
          (r'.rows < r'.wmRows → Leaves .watermark s u)) ∧
      (let u := (s.reach (r.rowsAt r.height)).bltTo;
        u.now = max s.now (r.t0 + 32 + r.height * bltRowTime r.words (bltClip r.words).2.1) ∧
        ∀ r', u.blt.run = some r' →
          r'.q = r.q ∧ r'.words = r.words ∧
          (r'.err = false → r'.height ≤ r'.rows → Runs .bltDone s (fun t => t.blt.run = none ∧
            t.on F.BLT_STATUS.BUSY = false ∧ t.now = u.now ∧
            t.rd (F.BLT_Qq_HEAD.HEAD r.q) = (u.rd (F.BLT_Qq_HEAD.HEAD r.q) + 1) % 2 ^ u.bltLog2 r.q ∧
            (bltBit r.words 12 = true → t.rd (F.BLT_FENCEf.COUNT (bltFence r.words)) =
              (u.rd (F.BLT_FENCEf.COUNT (bltFence r.words)) + 1) % 2 ^ 32) ∧
            (bltBit r.words 14 = true → t.on (F.BLT_Qq_STATUS.DONE r.q) = true) ∧
            (u.bltState r.q = 3 → u.on (F.BLT_Qq_CTRL.ENABLE r.q) = false → t.bltState r.q = 0) ∧ t.cores = u.cores)) ∧
          (r'.err = true ∨ r'.rows < r'.height → Leaves .bltDone s u)) ∧
      (let u := s.bltTo;
        ∀ r', u.blt.run = some r' →
          (r'.err = true → Runs .bltExecError s (fun t => t.blt.run = none ∧ t.on F.BLT_STATUS.BUSY = false ∧
            t.rd (F.BLT_Qq_STATUS.ERR_CODE r.q) = 6 ∧ t.on (F.BLT_Qq_STATUS.ERR r.q) = true ∧ t.bltState r.q = 0 ∧
            t.on (F.BLT_Qq_CTRL.ENABLE r.q) = false ∧ t.rd (F.BLT_Qq_HEAD.HEAD r.q) = u.rd (F.BLT_Qq_HEAD.HEAD r.q) ∧
            t.mem = u.mem ∧ t.cores = u.cores)) ∧
          (r'.err = false → Leaves .bltExecError s u))))

/-- Buffered writes reach memory (R268, R269, R270, R274). SRAM_WRITEBACK stores the corrected bytes of its word; a
flush waits for its port's idle time, takes the entry out of its buffer and stores the entry's bytes over the
decoded word or block, whose other bytes keep what the decoder returns; every other byte of memory is unchanged.
Over an uncorrectable word or block an entry with missing bytes is dropped: memory is unchanged and the error is
counted. -/
def Obligations.BuffersWrittenBack : Prop :=
  ∀ (s : State) (a : Nat),
    (s.memc.fix.contains a = false → Leaves (.sramWriteback a) s s) ∧
    (s.memc.fix.contains a = true → ∀ bs n, s.peekWord8 a = some (bs, n) → Runs (.sramWriteback a) s (fun t =>
      (∀ i, i < 8 → t.byte (a + i) = bs.getD i 0#8) ∧ (∀ x, x < a ∨ a + 8 ≤ x → t.byte x = s.byte x) ∧
      t.memc.fix.contains a = false ∧ t.cores = s.cores)) ∧
    (s.memc.fix.contains a = true → s.peekWord8 a = none → Leaves (.sramWriteback a) s
      { s with memc := { s.memc with fix := s.memc.fix.filter (· != a) } }) ∧
    (s.memc.merge.find? (fun e => e.addr == a) = none → Leaves (.sramMergeFlush a) s s) ∧
    (s.memc.rmw.find? (fun e => e.addr == a) = none → Leaves (.hbmRmwFlush a) s s) ∧
    (∀ e, s.memc.merge.find? (fun e => e.addr == a) = some e →
      (∀ bs n, s.peekWord8 a = some (bs, n) ∨ (e.bytes.length = 8 ∧ bs = List.replicate 8 0#8) →
        Runs (.sramMergeFlush a) s (fun t => t.now = max s.now (portIdle a e.t) ∧
        (∀ i, i < 8 → t.byte (a + i) = Tbl.get (if e.bytes.length = 8 then 0#8 else bs.getD i 0#8) e.bytes i) ∧
        (∀ x, x < a ∨ a + 8 ≤ x → t.byte x = s.byte x) ∧
        t.memc.merge = s.memc.merge.filter (fun x => x.addr != a || x.port != e.port) ∧ t.cores = s.cores)) ∧
      (s.peekWord8 a = none → e.bytes.length ≠ 8 → Runs (.sramMergeFlush a) s (fun t => t.mem = s.mem ∧
        t.rd F.MEM_SRAM_UE_CNT.COUNT = min 0xFFFFFFFF (s.rd F.MEM_SRAM_UE_CNT.COUNT + 1) ∧
        t.memc.merge = s.memc.merge.filter (fun x => x.addr != a || x.port != e.port) ∧ t.cores = s.cores))) ∧
    (∀ e, s.memc.rmw.find? (fun e => e.addr == a) = some e → a % 32 = 0 →
      (∀ bs n, s.peekBlk (a / 32) = some (bs, n) ∨ (e.bytes.length = 32 ∧ bs = List.replicate 32 0#8) →
        Runs (.hbmRmwFlush a) s (fun t => t.now = max s.now (e.t + 64) ∧
        (∀ i, i < 32 → t.byte (a + i) = Tbl.get (if e.bytes.length = 32 then 0#8 else bs.getD i 0#8) e.bytes i) ∧
        (∀ x, x < a ∨ a + 32 ≤ x → t.byte x = s.byte x) ∧
        t.memc.rmw = s.memc.rmw.filter (fun x => x.addr != a) ∧ t.cores = s.cores)) ∧
      (s.peekBlk (a / 32) = none → e.bytes.length ≠ 32 → Runs (.hbmRmwFlush a) s (fun t => t.mem = s.mem ∧
        t.rd F.MEM_HBM_UE_CNT.COUNT = min 0xFFFFFFFF (s.rd F.MEM_HBM_UE_CNT.COUNT + 1) ∧
        t.memc.rmw = s.memc.rmw.filter (fun x => x.addr != a) ∧ t.cores = s.cores)))

/-- The scrubber and the memory error log (R273, R275, R276, R277, R280). SCRUB_BLOCK first empties the repair queue,
then reads the next block and moves on, and the last block of a pass counts it; a corrected block is rewritten with
its corrected bytes, and nothing else is; an uncorrectable one is counted and left. At the end of a window PERIOD_H
halves, not below MIN_H, doubles after DN_WIN quiet windows, not above MAX_H, or stays. A pop drops the oldest log
entry; an entry that found the log full in the pop's own cycle then takes the place. -/
def Obligations.ScrubberAndErrorLog : Prop :=
  (∀ s : State, s.on F.MEM_SCRUB_CTRL.EN = false ∨ s.on F.HBM_STATUS.TRAINED = false → Leaves .scrubBlock s s) ∧
  (∀ s : State, 0 < s.gib → s.gib ≤ 16 → s.on F.MEM_SCRUB_CTRL.EN = true → s.on F.HBM_STATUS.TRAINED = true →
    let b := s.rd F.MEM_SCRUB_POS.BLOCK
    let v := s.reach (s.memc.scrubAt / s.hbmBlocks)
    let at_ := max v.memc.scrubAt (v.now * s.hbmBlocks) + v.rd F.MEM_SCRUB_STATUS.PERIOD_H * 3600 * 600000000
    let u := ({ v with memc := { v.memc with scrubAt := at_ } } : State).repairAll.flushRmw (32 * b)
    Runs .scrubBlock s (fun t => t.memc.repair = [] ∧ t.now = max s.now (s.memc.scrubAt / s.hbmBlocks) ∧
      t.memc.scrubAt = u.memc.scrubAt ∧ t.rd F.MEM_SCRUB_POS.BLOCK = (if s.hbmBlocks ≤ b + 1 then 0 else b + 1) ∧
      t.rd F.MEM_SCRUB_STATUS.PASSES = (if s.hbmBlocks ≤ b + 1 then min 0xFFFF (s.rd F.MEM_SCRUB_STATUS.PASSES + 1)
        else s.rd F.MEM_SCRUB_STATUS.PASSES) ∧ t.cores = u.cores ∧
      (∀ bs n, u.peekBlk b = some (bs, n) →
        (n = 0 → t.mem = u.mem ∧ t.rd F.MEM_HBM_CE_CNT.COUNT = u.rd F.MEM_HBM_CE_CNT.COUNT) ∧
        (n ≠ 0 → (∀ i, i < 32 → t.byte (32 * b + i) = bs.getD i 0#8) ∧
          (∀ x, x < 32 * b ∨ 32 * b + 32 ≤ x → t.byte x = u.byte x) ∧
          t.rd F.MEM_HBM_CE_CNT.COUNT = min 0xFFFFFFFF (u.rd F.MEM_HBM_CE_CNT.COUNT + 1))) ∧
      (u.peekBlk b = none → t.mem = u.mem ∧
        t.rd F.MEM_HBM_UE_CNT.COUNT = min 0xFFFFFFFF (u.rd F.MEM_HBM_UE_CNT.COUNT + 1)))) ∧
  (∀ s : State, Runs .scrubWindow s (fun t =>
    t.now = max s.now (s.memc.winStart + max 1 (s.rd F.MEM_SCRUB_ADAPT.WIN) * 60 * 600000000) ∧
    t.memc.winStart = t.now ∧ t.memc.winCnt = 0 ∧
    t.rd F.MEM_SCRUB_STATUS.PERIOD_H = (if s.rd F.MEM_SCRUB_ADAPT.UP_N ≤ s.memc.winCnt
      then max (s.rd F.MEM_SCRUB_CTRL.MIN_H) (s.rd F.MEM_SCRUB_STATUS.PERIOD_H / 2)
      else if s.memc.winCnt ≤ s.rd F.MEM_SCRUB_ADAPT.DN_N ∧ max 1 (s.rd F.MEM_SCRUB_ADAPT.DN_WIN) ≤ s.memc.quiet + 1
      then min (s.rd F.MEM_SCRUB_CTRL.MAX_H) (2 * s.rd F.MEM_SCRUB_STATUS.PERIOD_H)
      else s.rd F.MEM_SCRUB_STATUS.PERIOD_H) ∧
    t.mem = s.mem ∧ t.cores = s.cores ∧ RegsKept s t [R.MEM_SCRUB_STATUS])) ∧
  (∀ (s : State) (v : Nat), v.testBit 0 = true → s.memc.log.length ≤ 16 →
    (s.memc.logLost.all (fun x => x.1 != s.now) = true → Runs (.memLogPop v) s (fun t =>
      t.memc = { s.memc with log := s.memc.log.drop 1 } ∧ t.rd F.MEM_LOG_STATUS.COUNT = s.memc.log.length - 1 ∧
      t.mem = s.mem ∧ t.cores = s.cores ∧ RegsKept s t [R.MEM_LOG_STATUS])) ∧
    (∀ t0 e ovf, s.memc.logLost = some (t0, e, ovf) → t0 = s.now → s.memc.log ≠ [] → Runs (.memLogPop v) s (fun t =>
      t.memc = { s.memc with log := s.memc.log.drop 1 ++ [e], logLost := none } ∧
      t.rd F.MEM_LOG_STATUS.COUNT = s.memc.log.length ∧ t.on F.MEM_STATUS.LOG_OVERFLOW = ovf ∧ t.mem = s.mem ∧
      t.cores = s.cores ∧ RegsKept s t [R.MEM_LOG_STATUS, R.MEM_STATUS]))) ∧
  (∀ (s : State) (v : Nat), v.testBit 0 = false → Leaves (.memLogPop v) s s)

/-- What is written to HBM or SRAM is read back (R259, R269, R274): where the merge buffers are as writes leave them and
no symbol is wrong, a write of bytes is taken, leaves them so, and a read of the same bytes by any requester returns
them, whether they stand in the array or in a merge buffer; a read of any other byte answers as before the write. -/
def Obligations.WritesReadBack : Prop :=
  ∀ (s : State) (req rq a : Nat) (bs : List Byte), s.CleanMemory → (∀ i, i < bs.length → s.Stores (a + i)) →
    ∃ t, s.busWrite req a bs = (.ok [], t) ∧ t.CleanMemory ∧ (∃ u, t.busRead rq a bs.length = (.ok bs, u)) ∧
      ∀ c, c < a ∨ a + bs.length ≤ c → (t.busRead rq c 1).1 = (s.busRead rq c 1).1

/-- DMAn_CTRL (R291, R292). ENABLE starts a channel that is OFF and its bit of DMA_ACTIVE follows, but for a write in
the cycle in which the channel itself cleared ENABLE; written 0 it takes a RUNNING channel that waits, or stands
between descriptors unpaused, OFF at once and any other to STOPPING. PAUSE takes its value, clearing it clears
PAUSED and lets a stop between descriptors end, and PAUSED is set once the channel holds no byte. A descriptor whose
trigger was found begins first, in the cycle after that (R287, `s`). -/
def Obligations.DmaStartStopPause : Prop :=
  ∀ (w : State) (n : Nat), n < 64 → let s := w.dmaDue n
    ((w.dmaS n).trigAt = none ∨ (w.dmaS n).phase ≠ .wait → s = w) ∧
    (∀ t0, (w.dmaS n).trigAt = some t0 → (w.dmaS n).phase = .wait → (w.now < t0 → s = w) ∧ (t0 ≤ w.now →
      (s.dmaS n).phase = .move ∧ (s.dmaS n).pos = 0 ∧ (s.dmaS n).desc = (w.dmaS n).desc ∧
      s.on (F.DMAn_STATUS.TRIG_PEND n) = false ∧ s.on (F.DMAn_STATUS.WAITING n) = false)) ∧
    (∀ v, s.dmaState n = 0 → v.testBit 0 = true → s.arrived 12 n = false → Runs (.dmaEnable n v) w (fun t =>
      t.dmaState n = 1 ∧ t.on (F.DMAn_CTRL.ENABLE n) = true ∧ (t.dmaS n).phase = .fetch ∧
      (t.reg (if n < 32 then R.DMA_ACTIVE0 else R.DMA_ACTIVE1)).testBit (n % 32) = true ∧
      (∀ m, m ≠ n → t.dmaS m = s.dmaS m) ∧ t.mem = s.mem ∧ t.cores = s.cores)) ∧
    (∀ v, s.dmaState n = 0 → s.arrived 12 n = true → Runs (.dmaEnable n v) w (fun t =>
      t.dmaState n = 0 ∧ t.on (F.DMAn_CTRL.ENABLE n) = false ∧ t.dma = s.dma ∧ t.mem = s.mem ∧ t.cores = s.cores)) ∧
    (∀ v, s.dmaState n = 2 → v.testBit 0 = false →
      (((s.dmaS n).phase = .fetch ∧ v.testBit 1 = false) ∨ (s.dmaS n).phase = .wait → Runs (.dmaEnable n v) w (fun t =>
        t.dmaState n = 0 ∧ t.on (F.DMAn_CTRL.ENABLE n) = false ∧ t.dmaDesc n = s.dmaDesc n ∧
        t.on (F.DMAn_STATUS.TRIG_PEND n) = s.on (F.DMAn_STATUS.TRIG_PEND n) ∧
        (t.reg (if n < 32 then R.DMA_ACTIVE0 else R.DMA_ACTIVE1)).testBit (n % 32) = false ∧
        t.mem = s.mem ∧ t.cores = s.cores)) ∧
      ((s.dmaS n).phase ≠ .fetch ∨ v.testBit 1 = true → (s.dmaS n).phase ≠ .wait → Runs (.dmaEnable n v) w (fun t =>
        t.dmaState n = 3 ∧ t.dma = s.dma ∧ t.mem = s.mem ∧ t.cores = s.cores))) ∧
    (∀ pause, s.arrived 12 n = false → ((s.dmaState n = 0 ∧ s.on (F.DMAn_CTRL.ENABLE n) = false) ∨ s.dmaState n = 1 ∨
        (s.dmaState n = 2 ∧ s.on (F.DMAn_CTRL.ENABLE n) = true) ∨
        (s.dmaState n = 3 ∧ ((s.dmaS n).phase ≠ .fetch ∨ pause = true))) →
      Runs (.dmaPause n pause) w (fun t => t.on (F.DMAn_CTRL.PAUSE n) = pause ∧ t.dmaState n = s.dmaState n ∧
        t.on (F.DMAn_CTRL.ENABLE n) = s.on (F.DMAn_CTRL.ENABLE n) ∧
        (pause = false → t.on (F.DMAn_STATUS.PAUSED n) = false) ∧ t.dma = s.dma ∧ t.mem = s.mem ∧ t.cores = s.cores ∧
        RegsKept s t [R.DMAn_CTRL n, R.DMAn_STATUS n])) ∧
    (s.arrived 12 n = false → s.dmaState n = 3 → (s.dmaS n).phase = .fetch → Runs (.dmaPause n false) w (fun t =>
      t.dmaState n = (if s.on (F.DMAn_CTRL.ENABLE n) then 1 else 0) ∧ t.on (F.DMAn_CTRL.PAUSE n) = false ∧
      t.mem = s.mem ∧ t.cores = s.cores)) ∧
    (s.on (F.DMAn_CTRL.PAUSE n) = true → (s.dmaState n = 2 ∨ s.dmaState n = 3) →
      Leaves (.dmaPauseDrained n) w (s.wr (F.DMAn_STATUS.PAUSED n) 1)) ∧
    (s.on (F.DMAn_CTRL.PAUSE n) = false ∨ s.dmaState n = 0 ∨ s.dmaState n = 1 → Leaves (.dmaPauseDrained n) w s)

/-- The descriptor fetch and the trigger (R285-R287, R291, R292). A paused channel reads no descriptor, and one whose
HBM does not answer yet waits. A descriptor that fails a check stops the channel with the check's code, and a fetch
that fails stops it with code 4. One that passes begins to move from stream byte 0, or waits for its trigger; where
the trigger is pending, or comes, the transfer begins in the next cycle and TRIG_PEND clears; a channel disabled
meanwhile stops, at once where it would wait. An event on the trigger input sets TRIG_PEND, stays set where it comes
in the cycle of that clear, and is lost with TRIG_OVR where TRIG_PEND is set otherwise. -/
def Obligations.DmaFetchAndTrigger : Prop :=
  ∀ (s : State) (n : Nat), n < 64 →
    ((s.dmaS n).phase ≠ .fetch ∨ s.on (F.DMAn_CTRL.PAUSE n) = true → Leaves (.dmaDescFetch n) s s) ∧
    ((s.dmaS n).phase = .fetch → s.on (F.DMAn_CTRL.PAUSE n) = false →
     (∀ b x, s.busRead (0x40 + n) (s.dmaDesc n) 64 = (.ok b, x) →
      (dmaCheck b ≠ 0 → Runs (.dmaDescFetch n) s (fun t => t.rd (F.DMAn_STATUS.ERR_CODE n) = dmaCheck b ∧
        t.on (F.DMAn_STATUS.ERR n) = true ∧ t.on (F.DMAn_CTRL.ENABLE n) = false ∧ t.dmaState n = 0 ∧
        t.dmaDesc n = x.dmaDesc n ∧ t.mem = x.mem ∧ t.cores = x.cores)) ∧
      (dmaCheck b = 0 → (dmaParse b).wait = false → Runs (.dmaDescFetch n) s (fun t =>
        (t.dmaS n).phase = .move ∧ (t.dmaS n).desc = dmaParse b ∧ (t.dmaS n).pos = 0 ∧
        (x.dmaState n = 1 ∨ x.dmaState n = 2 → t.dmaState n = (if x.on (F.DMAn_CTRL.ENABLE n) then 2 else 3)) ∧
        t.rd (F.DMAn_RESIDUE.UNITS n) = (dmaParse b).total / 16 % 2 ^ 32 ∧
        t.rd (F.DMAn_CRC.CRC n) = (if (dmaParse b).crcInit then 0 else x.rd (F.DMAn_CRC.CRC n)) ∧
        t.mem = x.mem ∧ t.cores = x.cores)) ∧
      (dmaCheck b = 0 → (dmaParse b).wait = true → x.dmaState n = 1 ∨ x.dmaState n = 2 →
        (x.on (F.DMAn_CTRL.ENABLE n) = false → Runs (.dmaDescFetch n) s (fun t => t.dmaState n = 0 ∧ t.mem = x.mem ∧
          t.cores = x.cores)) ∧
        (x.on (F.DMAn_CTRL.ENABLE n) = true → x.on (F.DMAn_STATUS.TRIG_PEND n) = false →
          Runs (.dmaDescFetch n) s (fun t => (t.dmaS n).phase = .wait ∧ (t.dmaS n).desc = dmaParse b ∧
            t.on (F.DMAn_STATUS.WAITING n) = true ∧ t.dmaState n = 2 ∧ t.mem = x.mem ∧ t.cores = x.cores)) ∧
        (x.on (F.DMAn_CTRL.ENABLE n) = true → x.on (F.DMAn_STATUS.TRIG_PEND n) = true →
          Runs (.dmaDescFetch n) s (fun t => (t.dmaS n).phase = .wait ∧ (t.dmaS n).trigAt = some (x.now + 1) ∧
            (t.dmaS n).desc = dmaParse b ∧ t.on (F.DMAn_STATUS.WAITING n) = true ∧
            t.on (F.DMAn_STATUS.TRIG_PEND n) = true ∧ t.dmaState n = 2 ∧ t.mem = x.mem ∧ t.cores = x.cores)))) ∧
     (∀ r x, s.busRead (0x40 + n) (s.dmaDesc n) 64 = (r, x) → (r = .wait → Leaves (.dmaDescFetch n) s x) ∧
      ((r = .decode ∨ r = .ue 0x20 ∨ r = .ue 0x21) → Runs (.dmaDescFetch n) s (fun t =>
        t.rd (F.DMAn_STATUS.ERR_CODE n) = 4 ∧ t.on (F.DMAn_STATUS.ERR n) = true ∧
        t.on (F.DMAn_CTRL.ENABLE n) = false ∧ t.dmaState n = 0 ∧ t.mem = x.mem ∧ t.cores = x.cores)))) ∧
    (s.slcTake 1 n = none → Leaves (.dmaTrigger n) s s) ∧
    (∀ t0 x, s.slcTake 1 n = some (t0, x) →
      ((s.dmaS n).trigAt = none →
       (s.on (F.DMAn_STATUS.TRIG_PEND n) = true → Runs (.dmaTrigger n) s (fun t =>
        t.on (F.DMAn_STATUS.TRIG_OVR n) = true ∧ t.on (F.DMAn_STATUS.TRIG_PEND n) = true ∧ t.now = max s.now t0 ∧
        t.dma = s.dma ∧ t.mem = s.mem ∧ t.cores = s.cores)) ∧
       (s.on (F.DMAn_STATUS.TRIG_PEND n) = false → (s.dmaS n).phase ≠ .wait → Runs (.dmaTrigger n) s (fun t =>
        t.on (F.DMAn_STATUS.TRIG_PEND n) = true ∧ t.now = max s.now t0 ∧ t.dma = s.dma ∧ t.mem = s.mem ∧
        t.cores = s.cores)) ∧
       (s.on (F.DMAn_STATUS.TRIG_PEND n) = false → (s.dmaS n).phase = .wait → Runs (.dmaTrigger n) s (fun t =>
        t.on (F.DMAn_STATUS.TRIG_PEND n) = true ∧
        t.dma = (s.modDma n (fun d => { d with trigAt := some (t.now + 1) })).dma ∧
        t.now = max s.now t0 ∧ t.mem = s.mem ∧ t.cores = s.cores))) ∧
      (∀ ta, (s.dmaS n).trigAt = some ta → (s.dmaS n).phase = .wait →
       (ta ≤ max s.now t0 → Runs (.dmaTrigger n) s (fun t => t.on (F.DMAn_STATUS.TRIG_PEND n) = true ∧
        t.on (F.DMAn_STATUS.TRIG_OVR n) = s.on (F.DMAn_STATUS.TRIG_OVR n) ∧ t.on (F.DMAn_STATUS.WAITING n) = false ∧
        (t.dmaS n).phase = .move ∧ (t.dmaS n).pos = 0 ∧ (t.dmaS n).desc = (s.dmaS n).desc ∧ t.now = max s.now t0 ∧
        t.mem = s.mem ∧ t.cores = s.cores)) ∧
       (max s.now t0 < ta → s.on (F.DMAn_STATUS.TRIG_PEND n) = true → Runs (.dmaTrigger n) s (fun t =>
        t.on (F.DMAn_STATUS.TRIG_OVR n) = true ∧ t.on (F.DMAn_STATUS.TRIG_PEND n) = true ∧ t.dma = s.dma ∧
        t.now = max s.now t0 ∧ t.mem = s.mem ∧ t.cores = s.cores))))

/-- DMA transfers (R284, R286, R288-R292). A burst of the channel the transfer unit serves writes the bytes it read,
each replaced where the stream itself wrote it, at the destination of its stream position, and the position, the
running CRC and RESIDUE follow; a read error after those bytes, or a write error, stops it there. A completed
descriptor counts, shows DONE and goes on to NEXT, or ends the channel, but not while a pause holds its stop; an
abort ends every channel it names that is not OFF, and a channel whose access failed stops with code 4. -/
def Obligations.DmaTransfers : Prop :=
  (∀ s : State, s.dmaDueAll.dmaPick = none → Leaves .dmaBurst s s.dmaDueAll) ∧
  (∀ (f a w : Nat) (bs : List Byte), a + bs.length ≤ w ∨ w + bs.length ≤ a → dmaWithin f a w [] bs = bs) ∧
  (∀ (w : State) (n : Nat), let s := w.dmaDueAll
    s.dmaPick = some n → n < 64 →
    let d := (s.dmaS n).desc
    let i := (s.dmaS n).pos
    ∀ bs e x, ({ s with dmaServed := s.dmaServed.put (s.rd (F.DMAn_CTRL.PRIO n)) n } : State).dmaRead (0x40 + n) 10
        (d.srcAt i) (d.burstLen i) = (bs, e, x) →
      (e = some .wait → Leaves .dmaBurst w x) ∧
      (e ≠ some .wait →
        let out := dmaWithin (x.freeCnt + 256) (d.srcAt i) (d.dstAt i) [] (bs.zipIdx.map (fun p =>
          dmaChoose (s.dmaS n).recent (x.freeCnt + p.2) (i + p.2) (d.srcAt i + p.2) p.1))
        ∀ r y, ({ x with freeCnt := x.freeCnt + 512 } : State).busWrite (0x40 + n) (d.dstAt i) out = (r, y) →
          (r = .wait → Leaves .dmaBurst w y) ∧
          (r = .decode → Runs .dmaBurst w (fun t => (t.dmaS n).phase = .error ∧ (t.dmaS n).pos = (y.dmaS n).pos ∧
            t.mem = y.mem ∧ t.cores = y.cores)) ∧
          ((∃ k, r = .ok k) → (y.dmaS n).phase = .error → Leaves .dmaBurst w y) ∧
          ((∃ k, r = .ok k) → (y.dmaS n).phase ≠ .error → Runs .dmaBurst w (fun t =>
            (t.dmaS n).pos = i + out.length ∧ (t.dmaS n).desc = (y.dmaS n).desc ∧
            (t.dmaS n).phase = (if e.isSome then .error else if d.total ≤ i + out.length then .moved else .move) ∧
            t.rd (F.DMAn_CRC.CRC n) = (out.foldl (fun c b => crc32cByte c b.toNat)
              (y.rd (F.DMAn_CRC.CRC n) ^^^ 0xFFFFFFFF) ^^^ 0xFFFFFFFF) % 2 ^ 32 ∧
            ((y.dmaS n).desc = d → t.rd (F.DMAn_RESIDUE.UNITS n) = (d.total - (i + out.length)) / 16 % 2 ^ 32) ∧
            t.mem = y.mem ∧ t.memc = y.memc ∧ t.cores = y.cores)))) ∧
  (∀ (s : State) (n : Nat) (abort : Bool), n < 64 →
    ((s.dmaS n).phase ≠ .moved → Leaves (.dmaDescDone n abort) s s) ∧
    ((s.dmaS n).phase = .moved → s.dmaState n = 3 → s.on (F.DMAn_CTRL.PAUSE n) = true →
      Leaves (.dmaDescDone n false) s s) ∧
    ((s.dmaS n).phase = .moved → s.dmaState n ≠ 3 ∨ s.on (F.DMAn_CTRL.PAUSE n) = false →
      let seq := (s.rd (F.DMAn_STATUS.SEQ n) + 1) % 65536
      ∀ r x, (if (s.dmaS n).desc.wbEn then s.dmaWb n 0 0 seq else (.ok [], s)) = (r, x) →
        (r = .wait → Leaves (.dmaDescDone n false) s x) ∧
        ((r = .decode ∨ r = .ue 0x20 ∨ r = .ue 0x21) → Runs (.dmaDescDone n abort) s (fun t =>
          (t.dmaS n).phase = .wbError ∧ t.mem = x.mem ∧ t.cores = x.cores)) ∧
        ((∃ k, r = .ok k) → (x.dmaS n).phase ≠ .error → Runs (.dmaDescDone n abort) s (fun t =>
          t.rd (F.DMAn_STATUS.SEQ n) = seq ∧
          t.rd (F.DMAn_COUNT.COUNT n) = min 0xFFFFFFFF (x.rd (F.DMAn_COUNT.COUNT n) + 1) ∧
          t.on (F.DMAn_STATUS.DONE n) = ((s.dmaS n).desc.irq || !(s.dmaS n).desc.chain || x.on (F.DMAn_STATUS.DONE n)) ∧
          (abort = true → t.on (F.DMAn_STATUS.ABORTED n) = true ∧ t.dmaState n = 0 ∧
            t.on (F.DMAn_CTRL.ENABLE n) = false) ∧
          (abort = false → x.dmaState n = 3 → t.dmaState n = (if x.on (F.DMAn_CTRL.ENABLE n) then 1 else 0)) ∧
          (abort = false → (s.dmaS n).desc.chain = false → x.dmaState n ≠ 3 →
            t.dmaState n = 0 ∧ t.on (F.DMAn_CTRL.ENABLE n) = false ∧ t.dmaDesc n = x.dmaDesc n) ∧
          (abort = false → (s.dmaS n).desc.chain = true → x.dmaState n ≠ 3 → (s.dmaS n).desc.next % 16 = 0 →
            (s.dmaS n).desc.next < 2 ^ 40 → (t.dmaS n).phase = .fetch ∧ t.dmaState n = x.dmaState n ∧
            t.dmaDesc n = (s.dmaS n).desc.next) ∧
          (∀ m, m ≠ n → t.dmaS m = x.dmaS m) ∧ t.mem = x.mem ∧ t.cores = x.cores)))) ∧
  (∀ (s : State) (hi : Bool) (v : Nat), v < 2 ^ 32 → Runs (.dmaAbort hi v) s (fun t =>
    (s.memc.sc = [] → t.cores = s.cores) ∧
    ∀ i, i < 32 → let n := if hi then 32 + i else i
      (v.testBit i = true → s.dmaState n ≠ 0 → t.dmaState n = 0 ∧ t.on (F.DMAn_STATUS.ABORTED n) = true ∧
        t.on (F.DMAn_CTRL.ENABLE n) = false) ∧
      (v.testBit i = false ∨ s.dmaState n = 0 → t.dmaState n = s.dmaState n))) ∧
  (∀ (s : State) (hi : Bool) (v : Nat), v < 2 ^ 32 →
    (∀ i, i < 32 → v.testBit i = true → (s.dmaS (if hi then 32 + i else i)).desc.wbEn = false) →
    Runs (.dmaAbort hi v) s (fun t => t.mem = s.mem ∧ ∀ i, i < 32 → let n := if hi then 32 + i else i
      v.testBit i = false ∨ s.dmaState n = 0 ∧ (s.dmaS n).trigAt = none → t.dmaS n = s.dmaS n)) ∧
  (∀ (s : State) (n : Nat), n < 64 →
    ((s.dmaS n).phase = .error ∨ (s.dmaS n).phase = .wbError → Runs (.dmaError n) s (fun t =>
      t.rd (F.DMAn_STATUS.ERR_CODE n) = 4 ∧ t.on (F.DMAn_STATUS.ERR n) = true ∧ t.on (F.DMAn_CTRL.ENABLE n) = false ∧
      t.dmaState n = 0 ∧ t.dmaDesc n = s.dmaDesc n ∧ (s.memc.sc = [] → t.cores = s.cores))) ∧
    ((s.dmaS n).phase ≠ .error → (s.dmaS n).phase ≠ .wbError → Leaves (.dmaError n) s (s.dmaDue n)))

/-- Voices and tone channels (R303-R305, R53). ENABLE takes one that is OFF to STARTING, from the next boundary on, and
a voice reads ahead; written 0 it takes one that is RUNNING into its release ramp; in other states it changes ENABLE
alone. ENABLE written 1 in the cycle in which hardware cleared it stays 0. KILL of one that is not OFF, or starts
with the same write, clears ENABLE and ramps from the current envelope to 0 over 48 samples; KILL of one that is OFF
does nothing. -/
def Obligations.VoicesAndTones : Prop :=
  (∀ (s : State) (v w : Nat), v < 384 →
    let en := w.testBit 0 && !s.arrived 11 v
    (w.testBit 1 = false →
      (en = true → s.rd (F.AUD_Vv_CTRL.STATE v) = 0 → Runs (.voiceEnable v w) s (fun t =>
        t.rd (F.AUD_Vv_CTRL.STATE v) = 1 ∧ t.on (F.AUD_Vv_CTRL.ENABLE v) = true ∧
        t.on (F.AUD_Vv_CTRL.FMT v) = w.testBit 4 ∧ t.on (F.AUD_Vv_CTRL.LOOP v) = w.testBit 5 ∧
        t.voiceS v = { s.voiceS v with start := s.now + 1, env := {}, pos := 0, buf := (t.voiceS v).buf } ∧
        (∀ e ∈ (t.voiceS v).buf, e.1 ∈ t.voiceAhead v 0) ∧ (∀ j, j ≠ v → t.voiceS j = s.voiceS j) ∧ t.cores = s.cores ∧
        (s.rd (F.AUD_Vv_LEN.LEN v) = 0 → t.mem = s.mem ∧ RegsKept s t [R.AUD_Vv_CTRL v]))) ∧
      (en = false → s.rd (F.AUD_Vv_CTRL.STATE v) = 2 → Runs (.voiceEnable v w) s (fun t =>
        t.rd (F.AUD_Vv_CTRL.STATE v) = 3 ∧ t.on (F.AUD_Vv_CTRL.ENABLE v) = false ∧
        t.on (F.AUD_Vv_CTRL.FMT v) = s.on (F.AUD_Vv_CTRL.FMT v) ∧
        (t.voiceS v).env = (s.voiceS v).env.to 0 (s.rd (F.AUD_Vv_ENV.RELEASE v)) (s.now + 1) ∧
        (t.on (F.AUD_Vv_STATUS.CFG_REJECT v) =
          (s.on (F.AUD_Vv_STATUS.CFG_REJECT v) || w.testBit 4 != s.on (F.AUD_Vv_CTRL.FMT v))) ∧
        t.mem = s.mem ∧ t.cores = s.cores)) ∧
      ((en = true ∧ s.rd (F.AUD_Vv_CTRL.STATE v) ≠ 0) ∨ (en = false ∧ s.rd (F.AUD_Vv_CTRL.STATE v) ≠ 2) →
        Runs (.voiceEnable v w) s (fun t => t.rd (F.AUD_Vv_CTRL.STATE v) = s.rd (F.AUD_Vv_CTRL.STATE v) ∧
          t.on (F.AUD_Vv_CTRL.ENABLE v) = en ∧ t.voiceS v = s.voiceS v ∧ t.mem = s.mem ∧ t.cores = s.cores))) ∧
    (w.testBit 1 = true → Runs (.voiceEnable v w) s (fun t =>
      t.rd (F.AUD_Vv_CTRL.STATE v) = (if s.rd (F.AUD_Vv_CTRL.STATE v) = 0 ∧ en = false then 0 else 3) ∧
      t.on (F.AUD_Vv_CTRL.ENABLE v) = false ∧ (s.rd (F.AUD_Vv_CTRL.STATE v) ≠ 0 ∨ en = false → t.mem = s.mem) ∧
      t.cores = s.cores))) ∧
  (∀ (s : State) (v : Nat), v < 384 →
    (s.rd (F.AUD_Vv_CTRL.STATE v) = 0 → s.on (F.AUD_Vv_CTRL.ENABLE v) = false → Runs (.voiceKill v) s (fun t =>
      t.voiceS v = s.voiceS v ∧ t.mem = s.mem ∧ t.cores = s.cores ∧ RegsKept s t [])) ∧
    (s.rd (F.AUD_Vv_CTRL.STATE v) = 1 ∨ s.rd (F.AUD_Vv_CTRL.STATE v) = 3 ∨
        (s.rd (F.AUD_Vv_CTRL.STATE v) = 2 ∧ s.on (F.AUD_Vv_CTRL.ENABLE v) = true ∧ s.arrived 11 v = false) →
      Runs (.voiceKill v) s (fun t => t.rd (F.AUD_Vv_CTRL.STATE v) = 3 ∧ t.on (F.AUD_Vv_CTRL.ENABLE v) = false ∧
        (t.voiceS v).next = none ∧ (t.voiceS v).env = (s.voiceS v).env.to 0 48 (s.now + 1) ∧
        (t.voiceS v).pos = (s.voiceS v).pos ∧ t.mem = s.mem ∧ t.cores = s.cores ∧ RegsKept s t [R.AUD_Vv_CTRL v]))) ∧
  (∀ (s : State) (c v : Nat), c < 64 →
    let en := v.testBit 0 && !s.arrived 11 (384 + c)
    (v.testBit 1 = false →
      (en = true → s.rd (F.AUD_Tc_CTRL.STATE c) = 0 → Runs (.toneEnable c v) s (fun t =>
        t.rd (F.AUD_Tc_CTRL.STATE c) = 1 ∧ t.on (F.AUD_Tc_CTRL.ENABLE c) = true ∧
        t.rd (F.AUD_Tc_CTRL.TYPE c) = bitsOf v 4 2 ∧
        t.toneS c = { s.toneS c with start := s.now + 1, env := {}, lfsr := 0x7FFFFF } ∧
        t.mem = s.mem ∧ t.cores = s.cores ∧ RegsKept s t [R.AUD_Tc_CTRL c])) ∧
      (en = false → s.rd (F.AUD_Tc_CTRL.STATE c) = 2 → Runs (.toneEnable c v) s (fun t =>
        t.rd (F.AUD_Tc_CTRL.STATE c) = 3 ∧ t.on (F.AUD_Tc_CTRL.ENABLE c) = false ∧
        (t.toneS c).env = (s.toneS c).env.to 0 (s.rd (F.AUD_Tc_ENV.RELEASE c)) (s.now + 1) ∧
        t.mem = s.mem ∧ t.cores = s.cores ∧ RegsKept s t [R.AUD_Tc_CTRL c])) ∧
      ((en = true ∧ s.rd (F.AUD_Tc_CTRL.STATE c) ≠ 0) ∨ (en = false ∧ s.rd (F.AUD_Tc_CTRL.STATE c) ≠ 2) →
        Runs (.toneEnable c v) s (fun t => t.rd (F.AUD_Tc_CTRL.STATE c) = s.rd (F.AUD_Tc_CTRL.STATE c) ∧
          t.on (F.AUD_Tc_CTRL.ENABLE c) = en ∧ t.toneS c = s.toneS c ∧ t.mem = s.mem ∧ t.cores = s.cores ∧
          RegsKept s t [R.AUD_Tc_CTRL c]))) ∧
    (v.testBit 1 = true → Runs (.toneEnable c v) s (fun t =>
      t.rd (F.AUD_Tc_CTRL.STATE c) = (if s.rd (F.AUD_Tc_CTRL.STATE c) = 0 ∧ en = false then 0 else 3) ∧
      t.on (F.AUD_Tc_CTRL.ENABLE c) = false ∧ t.mem = s.mem ∧ t.cores = s.cores))) ∧
  (∀ (s : State) (c : Nat), c < 64 →
    (s.rd (F.AUD_Tc_CTRL.STATE c) = 0 → s.on (F.AUD_Tc_CTRL.ENABLE c) = false → Runs (.toneKill c) s (fun t =>
      t.toneS c = s.toneS c ∧ t.mem = s.mem ∧ t.cores = s.cores ∧ RegsKept s t [])) ∧
    (s.rd (F.AUD_Tc_CTRL.STATE c) = 1 ∨ s.rd (F.AUD_Tc_CTRL.STATE c) = 3 ∨
        (s.rd (F.AUD_Tc_CTRL.STATE c) = 2 ∧ s.on (F.AUD_Tc_CTRL.ENABLE c) = true ∧ s.arrived 11 (384 + c) = false) →
      Runs (.toneKill c) s (fun t => t.rd (F.AUD_Tc_CTRL.STATE c) = 3 ∧ t.on (F.AUD_Tc_CTRL.ENABLE c) = false ∧
        (t.toneS c).env = (s.toneS c).env.to 0 48 (s.now + 1) ∧ (t.toneS c).phase = (s.toneS c).phase ∧
        t.mem = s.mem ∧ t.cores = s.cores ∧ RegsKept s t [R.AUD_Tc_CTRL c])))

/-- Triggers and presets (R306-R308). An AUD_TRIG that names a voice is queued with its action and the time it arrived;
one beyond voice 383 is refused. The oldest start without its preset has it read from its 64 bytes, once the memory
answers; one whose read fails is refused and never starts: it is dropped, one that a line list bound to a line when
that line comes. Routing (R309, R312, R314, R315). A send of a bus to itself or a lower bus is refused; any other
takes its value, its gain ramps to a new goal, and its route is in force at once where the source is OFF or ticks
are stopped. APPLY adds its bands to those to be loaded from the next boundary on. -/
def Obligations.SoundTriggersAndRouting : Prop :=
  ((∀ (s : State) (v p : Nat), v < 384 →
      Leaves (.audTrigStart v p) s (s.modAud (fun a => { a with
        trig := trigInsert ({ t := s.now, voice := v, action := 0, preset := p % 65536 } : TrigS) a.trig })) ∧
      Leaves (.audTrigRelease v) s (s.modAud (fun a => { a with
        trig := trigInsert ({ t := s.now, voice := v, action := 1, preset := 0 } : TrigS) a.trig })) ∧
      Leaves (.audTrigStop v) s (s.modAud (fun a => { a with
        trig := trigInsert ({ t := s.now, voice := v, action := 2, preset := 0 } : TrigS) a.trig }))) ∧
    (∀ (s : State) (v p : Nat), 384 ≤ v → v < 512 →
      Leaves (.audTrigStart v p) s (s.wr F.AUD_STATUS.CFG_REJECT 1) ∧
      Leaves (.audTrigRelease v) s (s.wr F.AUD_STATUS.CFG_REJECT 1) ∧
      Leaves (.audTrigStop v) s (s.wr F.AUD_STATUS.CFG_REJECT 1)) ∧
    (∀ s : State, s.aud.trig.find? (fun e => e.action == 0 && e.data.isNone && !e.failed) = none →
    Leaves .presetRead s s) ∧
    (∀ (s : State) (e : TrigS), s.aud.trig.find? (fun e => e.action == 0 && e.data.isNone && !e.failed) = some e →
      (∀ bs x, s.busRead 0x83 ((s.reg R.AUD_PRESET_BASE * 256 + 64 * e.preset) % 2 ^ 40) 64 = (.ok bs, x) →
        Leaves .presetRead s (x.modAud (fun a => { a with
          trig := a.trig.map (fun y => if y == e then { e with data := some bs, readAt := x.now } else y) }))) ∧
      (∀ r x, s.busRead 0x83 ((s.reg R.AUD_PRESET_BASE * 256 + 64 * e.preset) % 2 ^ 40) 64 = (r, x) →
        (r = .wait → Leaves .presetRead s x) ∧
        ((r = .decode ∨ r = .ue 0x20 ∨ r = .ue 0x21) → Leaves .presetRead s ((x.modAud (fun a => { a with
          trig := if e.line.isSome then a.trig.map (fun y => if y == e then { e with failed := true } else y)
            else a.trig.eraseP (fun e => e.action == 0 && e.data.isNone && !e.failed) })).wr F.AUD_STATUS.CFG_REJECT 1))))) ∧
  ((∀ (s : State) (src k v : Nat), src < 544 → k < 4 → v < 2 ^ 32 →
      (512 ≤ src → bitsOf v 0 5 ≤ src - 512 → Leaves (.sendWrite src k v) s (s.wr F.AUD_STATUS.CFG_REJECT 1)) ∧
      (src < 512 ∨ src - 512 < bitsOf v 0 5 → Runs (.sendWrite src k v) s (fun t =>
        t.rd (F.AUD_Ss_SENDk.BUS src k) = bitsOf v 0 5 ∧ t.on (F.AUD_Ss_SENDk.EN src k) = v.testBit 7 ∧
        t.rd (F.AUD_Ss_SENDk.GAIN src k) = bitsOf v 16 16 ∧
        (bitsOf v 16 16 ≠ s.rd (F.AUD_Ss_SENDk.GAIN src k) → (t.sendS (4 * src + k)).gain =
          some ((s.sendRamp src k).to (bitsOf v 16 16) (s.srcRamp src) (s.now + 1))) ∧
        (bitsOf v 16 16 = s.rd (F.AUD_Ss_SENDk.GAIN src k) →
        (t.sendS (4 * src + k)).gain = (s.sendS (4 * src + k)).gain) ∧
        (s.srcOff src = true ∨ s.running = false → (t.sendS (4 * src + k)).bus = bitsOf v 0 5 ∧
          (t.sendS (4 * src + k)).en = v.testBit 7) ∧
        (s.srcOff src = false → s.running = true → (t.sendS (4 * src + k)).bus = (s.sendS (4 * src + k)).bus ∧
          (t.sendS (4 * src + k)).en = (s.sendS (4 * src + k)).en) ∧
        (∀ j, j ≠ 4 * src + k → t.sendS j = s.sendS j) ∧ t.mem = s.mem ∧ t.cores = s.cores ∧
        RegsKept s t [R.AUD_Ss_SENDk src k]))) ∧
    (∀ (s : State) (b m : Nat), b < 32 →
      (m % 256 = 0 → Leaves (.eqApply b m) s s) ∧
      (m % 256 ≠ 0 → Leaves (.eqApply b m) s
        (s.modBus b (fun x => { x with apply := x.apply ||| (m % 256), applyAt := s.now + 1 })))))

/-- TDM ports (R322, R323, R53). ENABLE starts a port that is OFF and stops one that is RUNNING; a PDELAY above 9,600 or
changed while the port runs is refused. An input takes each frame that completes, locks once 8,192 frames in a row
held its rate within 100 ppm (and the ECLK grain of the measurement, log 57); when it loses its rate its channels
ramp to 0, at the end of which LOCK clears; one whose clock or sync no pin feeds takes no frame, and data that no
pin feeds reads 0. The sample boundary (R293, R294, R296, R457). Unless the tick comes first, it is the last
boundary and the sample counter counts it, modulo 2^48, but during a wake; one that comes past the frame's samples
slips. In Standby, and once a trip has shut the device down, or while PORST_N is low, none comes. -/
def Obligations.TdmPortsAndBoundaries : Prop :=
  ((∀ (s : State) (p v : Nat), p < 8 →
      (s.rd (F.AUD_Op_CTRL.STATE p) = 0 → v.testBit 0 = true → bitsOf v 16 14 ≤ 9600 →
      Runs (.tdmOutEnable p v) s (fun t =>
        t.rd (F.AUD_Op_CTRL.STATE p) = 1 ∧ t.on (F.AUD_Op_CTRL.ENABLE p) = true ∧
        t.rd (F.AUD_Op_CTRL.PDELAY p) = bitsOf v 16 14 ∧ (t.outS p).start = s.now + 1 ∧ (t.outS p).cnt = 0 ∧
        t.mem = s.mem ∧ t.cores = s.cores ∧ RegsKept s t [R.AUD_Op_CTRL p])) ∧
      (s.rd (F.AUD_Op_CTRL.STATE p) = 2 → v.testBit 0 = false → Runs (.tdmOutEnable p v) s (fun t =>
        t.rd (F.AUD_Op_CTRL.STATE p) = 3 ∧ t.on (F.AUD_Op_CTRL.ENABLE p) = false ∧
        t.rd (F.AUD_Op_CTRL.PDELAY p) = s.rd (F.AUD_Op_CTRL.PDELAY p) ∧
        (t.outS p).gain = (s.outS p).gain.to 0 48 (s.now + 1) ∧ t.mem = s.mem ∧ t.cores = s.cores)) ∧
      (bitsOf v 16 14 ≠ s.rd (F.AUD_Op_CTRL.PDELAY p) → (s.rd (F.AUD_Op_CTRL.STATE p) ≠ 0 ∨ 9600 < bitsOf v 16 14) →
        Runs (.tdmOutEnable p v) s (fun t => t.rd (F.AUD_Op_CTRL.PDELAY p) = s.rd (F.AUD_Op_CTRL.PDELAY p) ∧
          t.on (F.AUD_Op_CTRL.CFG_REJECT p) = true ∧ t.mem = s.mem ∧ t.cores = s.cores))) ∧
    (∀ (s : State) (i : Nat), i < 4 →
      (∀ v, s.rd (F.AUD_Ip_CTRL.STATE i) = 0 → v.testBit 0 = true → Runs (.tdmInEnable i v) s (fun t =>
        t.rd (F.AUD_Ip_CTRL.STATE i) = 1 ∧ t.on (F.AUD_Ip_CTRL.ENABLE i) = true ∧ t.inS i = { gain := rampAt 0 } ∧
        t.mem = s.mem ∧ t.cores = s.cores ∧ RegsKept s t [R.AUD_Ip_CTRL i])) ∧
      (∀ v, s.rd (F.AUD_Ip_CTRL.STATE i) = 2 → v.testBit 0 = false → Runs (.tdmInEnable i v) s (fun t =>
        t.rd (F.AUD_Ip_CTRL.STATE i) = 3 ∧ t.on (F.AUD_Ip_CTRL.ENABLE i) = false ∧
        (t.inS i).gain = (s.inS i).gain.to 0 48 (s.now + 1) ∧ t.mem = s.mem ∧ t.cores = s.cores)) ∧
      (∀ vals, s.rd (F.AUD_Ip_CTRL.STATE i) = 0 ∨ s.tdmFed (24 + 3 * i) = false ∨ s.tdmFed (25 + 3 * i) = false →
        Leaves (.tdmInFrame i vals) s s) ∧
      (∀ vals, s.rd (F.AUD_Ip_CTRL.STATE i) ≠ 0 → s.tdmFed (24 + 3 * i) = true → s.tdmFed (25 + 3 * i) = true →
        Runs (.tdmInFrame i vals) s (fun t => (t.inS i).frames = (s.now, if s.tdmFed (26 + 3 * i) then vals.take 16
            else List.replicate (min 16 vals.length) 0) :: (s.inS i).frames.take 255 ∧ (t.inS i).gain = (s.inS i).gain ∧
          (s.on (F.AUD_Ip_CTRL.LOCK i) = false → ∀ f rest, (s.inS i).frames = f :: rest →
            let d := s.now - f.1
            let w := min (s.inS i).frames.length ((s.inS i).run + 1)
            (t.inS i).run = (if 3124 ≤ d ∧ d ≤ 75001 then
              (if (s.inS i).run ≠ 0 ∧
              sameRate w (s.now - ((s.inS i).frames.getD (w - 1) f).1) (s.inS i).run (s.inS i).ref 10000
                then (s.inS i).run + 1 else 1) else 0)) ∧
          RegsKept s t [] ∧ t.mem = s.mem ∧ t.cores = s.cores)) ∧
      (∀ w t n r k, sameRate w t n r k = true ↔ t * n * k ≤ w * r * k + w * r + k * n ∧
      w * r * k ≤ t * n * k + w * r + k * n) ∧
      (s.rd (F.AUD_Ip_CTRL.STATE i) = 1 → 8192 ≤ (s.inS i).run → s.on (F.AUD_Ip_CTRL.ENABLE i) = true →
        Runs (.tdmInLock i) s (fun t => t.on (F.AUD_Ip_CTRL.LOCK i) = true ∧ t.rd (F.AUD_Ip_CTRL.STATE i) = 2 ∧
          (t.inS i).gain = (s.inS i).gain.to 0x4000 480 (s.now + 1) ∧ t.mem = s.mem ∧ t.cores = s.cores ∧
          RegsKept s t [R.AUD_Ip_CTRL i])) ∧
      (s.rd (F.AUD_Ip_CTRL.STATE i) ≠ 1 ∨ (s.inS i).run < 8192 → Leaves (.tdmInLock i) s s) ∧
      (s.on (F.AUD_Ip_CTRL.LOCK i) = false ∨ (s.inS i).losing = true → Leaves (.inUnlock i) s s) ∧
      (s.on (F.AUD_Ip_CTRL.LOCK i) = true → (s.inS i).losing = false → Runs (.inUnlock i) s (fun t =>
        t.on (F.AUD_Ip_CTRL.LOCK i) = true ∧ (t.inS i).losing = true ∧
        ((s.inS i).moved = false → ∀ f rest, (s.inS i).frames = f :: rest → t.now = max s.now (f.1 + 600000)) ∧
        (t.inS i).gain = (s.inS i).gain.to 0 48 (t.now + 1) ∧ RegsKept s t [] ∧ t.mem = s.mem ∧ t.cores = s.cores)) ∧
      ((s.inS i).losing = true → ∀ t0, ((s.inS i).gain.step t0).ended = true → let u := (s.inStep i t0).2
        u.on (F.AUD_Ip_CTRL.LOCK i) = false ∧ (u.inS i).losing = false ∧ (u.inS i).run = 0 ∧
        (s.rd (F.AUD_Ip_CTRL.STATE i) = 2 → u.rd (F.AUD_Ip_CTRL.STATE i) = 1) ∧ u.cores = s.cores))) ∧
  (∀ (s : State) (late : List Nat),
      (s.boot.sby = 5 ∨ s.boot.tripped = true ∨ s.boot.porst = true ∨
        (s.running = true ∧ s.tick.at_.any (fun a => decide (a ≤ s.nextBoundary.1)) = true) →
        Leaves (.sampleBoundary late) s s) ∧
      (s.boot.sby ≠ 5 → s.boot.tripped = false → s.boot.porst = false →
        s.running = false ∨ s.tick.at_.any (fun a => decide (a ≤ s.nextBoundary.1)) = false →
        Runs (.sampleBoundary late) s (fun t => t.now = max s.now s.nextBoundary.1 ∧ t.aud.last = s.nextBoundary.1 ∧
          t.aud.placed = s.aud.placed + 1 ∧
          t.aud.scnt = (if s.boot.sby = 6 then s.aud.scnt else (s.aud.scnt + 1) % 2 ^ 48) ∧
          t.rd F.AUD_SLIP.SLIP = (if s.nextBoundary.2 then min 65535 (s.rd F.AUD_SLIP.SLIP + 1) else s.rd F.AUD_SLIP.SLIP) ∧
          t.tick = s.tick ∧ (s.memc.sc = [] → t.cores = s.cores))))

/-- Arithmetic of QC32 (R331, R332): for a core whose next word is the instruction, rd takes the result modulo 2^32 and
the core goes on at PC + 4 after the instruction's cycles; g0 discards it. Shifts take the low 5 bits of their
amount; quotients truncate toward zero, and a divisor of 0 gives 0xFFFFFFFF and the dividend. -/
def Obligations.Qc32Arithmetic : Prop :=
  ∀ (s : State) (c : Nat), c < 4 → ∀ w, s.coreWord c = some w →
    ∀ A, A = BitVec.ofNat 32 (s.gpr c (qRa w)) → ∀ B, B = BitVec.ofNat 32 (s.gpr c (qRb w)) →
      ∀ I : BitVec 32, I = (BitVec.ofNat 16 w).signExtend 32 →
      (qMnem w = some .add → Sets (.add c) s c w (A + B).toNat 1) ∧
      (qMnem w = some .sub → Sets (.sub c) s c w (A - B).toNat 1) ∧
      (qMnem w = some .and → Sets (.and c) s c w (A &&& B).toNat 1) ∧
      (qMnem w = some .or → Sets (.or c) s c w (A ||| B).toNat 1) ∧
      (qMnem w = some .xor → Sets (.xor c) s c w (A ^^^ B).toNat 1) ∧
      (qMnem w = some .nor → Sets (.nor c) s c w (~~~(A ||| B)).toNat 1) ∧
      (qMnem w = some .slt → Sets (.slt c) s c w (if A.slt B then 1 else 0) 1) ∧
      (qMnem w = some .sltu → Sets (.sltu c) s c w (if A < B then 1 else 0) 1) ∧
      (qMnem w = some .sll → Sets (.sll c) s c w (A <<< (B.toNat % 32)).toNat 1) ∧
      (qMnem w = some .srl → Sets (.srl c) s c w (A >>> (B.toNat % 32)).toNat 1) ∧
      (qMnem w = some .sra → Sets (.sra c) s c w (A.sshiftRight (B.toNat % 32)).toNat 1) ∧
      (qMnem w = some .slli → Sets (.slli c) s c w (A <<< qRb w).toNat 1) ∧
      (qMnem w = some .srli → Sets (.srli c) s c w (A >>> qRb w).toNat 1) ∧
      (qMnem w = some .srai → Sets (.srai c) s c w (A.sshiftRight (qRb w)).toNat 1) ∧
      (qMnem w = some .min → Sets (.min c) s c w (if B.slt A then B else A).toNat 1) ∧
      (qMnem w = some .max → Sets (.max c) s c w (if B.slt A then A else B).toNat 1) ∧
      (qMnem w = some .minu → Sets (.minu c) s c w (if B < A then B else A).toNat 1) ∧
      (qMnem w = some .maxu → Sets (.maxu c) s c w (if B < A then A else B).toNat 1) ∧
      (qMnem w = some .clz → ∃ n, n ≤ 32 ∧ A.toNat < 2 ^ (32 - n) ∧ 2 ^ (32 - n) ≤ 2 * A.toNat + 1 ∧
        Sets (.clz c) s c w n 1) ∧
      (qMnem w = some .mul → Sets (.mul c) s c w (A * B).toNat 2) ∧
      (qMnem w = some .mulh → Sets (.mulh c) s c w ((A.signExtend 64 * B.signExtend 64).extractLsb' 32 32).toNat 2) ∧
      (qMnem w = some .mulhu → Sets (.mulhu c) s c w ((A.zeroExtend 64 * B.zeroExtend 64).extractLsb' 32 32).toNat 2) ∧
      (qMnem w = some .div → Sets (.div c) s c w (if B = 0 then 0xFFFFFFFF else A.sdiv B).toNat 20) ∧
      (qMnem w = some .divu → Sets (.divu c) s c w (if B = 0 then 0xFFFFFFFF else A.udiv B).toNat 20) ∧
      (qMnem w = some .rem → Sets (.rem c) s c w (if B = 0 then A else A.srem B).toNat 20) ∧
      (qMnem w = some .remu → Sets (.remu c) s c w (if B = 0 then A else A.umod B).toNat 20) ∧
      (qMnem w = some .addi → Sets (.addi c) s c w (A + I).toNat 1) ∧
      (qMnem w = some .slti → Sets (.slti c) s c w (if A.slt I then 1 else 0) 1) ∧
      (qMnem w = some .sltiu → Sets (.sltiu c) s c w (if A < I then 1 else 0) 1) ∧
      (qMnem w = some .andi → Sets (.andi c) s c w (A.toNat &&& (w % 65536)) 1) ∧
      (qMnem w = some .ori → Sets (.ori c) s c w (A.toNat ||| (w % 65536)) 1) ∧
      (qMnem w = some .xori → Sets (.xori c) s c w (A.toNat ^^^ (w % 65536)) 1) ∧
      (qMnem w = some .lui → Sets (.lui c) s c w (w % 65536 * 65536) 1)

/-- Transfers of QC32 (R329, R333, R334, R345, R348): a branch goes to PC + 4 times its signed offset where its
comparison holds and to PC + 4 where it does not, in 3 cycles either way. CALL and CALLR push PC + 4, at depth 16 in
wrapping mode over the oldest entry and in trapping mode not at all (RS_OVER); RET pops, and takes RS_UNDER from an
empty stack; a misaligned target of JR or CALLR takes ALIGN. While EXC = 1 each of these exceptions halts the core. -/
def Obligations.Qc32Transfers : Prop :=
  ∀ (s : State) (c : Nat), c < 4 → ∀ w, s.coreWord c = some w →
    ∀ A, A = BitVec.ofNat 32 (s.gpr c (qRa w)) → ∀ D, D = BitVec.ofNat 32 (s.gpr c (qRd w)) →
      ∀ pc, pc = (s.coreS c).pc → ∀ st, st = (s.coreS c).stack → ∀ next, next = (pc + 4) % 2 ^ 32 →
      ∀ ti, ti = (BitVec.ofNat 32 pc + 4 * (BitVec.ofNat 16 w).signExtend 32).toNat →
      ∀ tj, tj = (BitVec.ofNat 32 pc + 4 * (BitVec.ofNat 21 w).signExtend 32).toNat →
      (qMnem w = some .beq → Goes (.beq c) s c (if A = D then ti else next) 3 st) ∧
      (qMnem w = some .bne → Goes (.bne c) s c (if A ≠ D then ti else next) 3 st) ∧
      (qMnem w = some .blt → Goes (.blt c) s c (if A.slt D then ti else next) 3 st) ∧
      (qMnem w = some .bge → Goes (.bge c) s c (if A.slt D then next else ti) 3 st) ∧
      (qMnem w = some .bltu → Goes (.bltu c) s c (if A < D then ti else next) 3 st) ∧
      (qMnem w = some .bgeu → Goes (.bgeu c) s c (if A < D then next else ti) 3 st) ∧
      (qMnem w = some .beqz → Goes (.beqz c) s c (if D = 0 then tj else next) 3 st) ∧
      (qMnem w = some .bnez → Goes (.bnez c) s c (if D = 0 then next else tj) 3 st) ∧
      (qMnem w = some .bltz → Goes (.bltz c) s c (if D.msb then tj else next) 3 st) ∧
      (qMnem w = some .bgez → Goes (.bgez c) s c (if D.msb then next else tj) 3 st) ∧
      (qMnem w = some .jmp → Goes (.jmp c) s c tj 3 st) ∧
      (qMnem w = some .jr → A.toNat % 4 = 0 → Goes (.jr c) s c A.toNat 3 st) ∧
      (∀ i op, (i, op) ∈ [(Instr.jr c, QOp.jr), (.callr c, .callr)] → qMnem w = some op → A.toNat % 4 ≠ 0 →
        (s.coreExc c = false → Enters i s c 2 pc (some A.toNat) 0) ∧ (s.coreExc c = true → DoubleFaults i s c)) ∧
      (qMnem w = some .callr → A.toNat % 4 = 0 → st.length < 16 → Goes (.callr c) s c A.toNat 3 (st ++ [next])) ∧
      (qMnem w = some .call → st.length < 16 → Goes (.call c) s c tj 3 (st ++ [next])) ∧
      (∀ i op a, (i, op, a) ∈ [(Instr.call c, QOp.call, tj), (.callr c, .callr, A.toNat)] → qMnem w = some op →
        (op = .callr → A.toNat % 4 = 0) → 16 ≤ st.length →
        ((s.coreS c).status.testBit 3 = true → Runs i s (fun t => (t.coreS c).pc = a / 4 * 4 ∧
          (t.coreS c).stack = st.drop 1 ++ [next] ∧ (t.coreS c).next = s.start c + 3 ∧
          (t.coreS c).status = (s.coreS c).status ||| 16 ∧ (t.coreS c).epc = (s.coreS c).epc ∧
          (t.coreS c).cause = (s.coreS c).cause ∧ (t.coreS c).sb = (s.coreS c).sb ∧ (∀ j, t.gpr c j = s.gpr c j) ∧
          OthersKept s t c ∧ t.mem = s.mem)) ∧
        ((s.coreS c).status.testBit 3 = false → (s.coreExc c = false → Enters i s c 7 pc none 0) ∧
          (s.coreExc c = true → DoubleFaults i s c))) ∧
      (qMnem w = some .ret → ∀ a, st.getLast? = some a → Goes (.ret c) s c a 3 st.dropLast) ∧
      (qMnem w = some .ret → st = [] → (s.coreExc c = false → Enters (.ret c) s c 8 pc none 0) ∧
        (s.coreExc c = true → DoubleFaults (.ret c) s c))

/-- Loads, stores and atomics of QC32 (R325, R335-R337, R340, R341). A load from local memory returns its bytes,
extended; a store there writes them, and a store to the fabric joins the store buffer behind the others; LR reads
its word and holds a reservation, SC stores and returns 0 only with one that covers its word, and clears it, and TAS
returns the old word and stores 1. A misaligned LR, SC or TAS takes ALIGN, one outside SRAM takes ATOMIC. A
misaligned load or store is made in two parts, the lower first, and between them the core stands between its parts,
so that another requester may come (R335). -/
def Obligations.Qc32Memory : Prop :=
  (∀ (s : State) (c : Nat), c < 4 → s.gib ≤ 16 → ∀ w, s.coreWord c = some w → (s.coreS c).prog = 0 →
    (s.coreS c).part = [] →
    ∀ a, a = qEa (s.gpr c (qRa w)) w → ∀ x, x = ownSys c a → ∀ n, n = qSize w → ∀ v, v = leVal (s.bytes x n) →
      (a < 0x40000 → a % n = 0 → s.memc.merge.find? (fun e => e.addr == x / 8 * 8) = none →
        Tbl.get 0 s.memc.sramErr (x / 8 * 8) = 0 →
        (s.coreS c).sb.any (fun e => overlaps a n e.addr e.bytes.length) = false →
        (qMnem w = some .ld → Sets (.ld c) s c w ((BitVec.ofNat (8 * n) v).signExtend 32).toNat 2) ∧
        (qMnem w = some .ldu → Sets (.ldu c) s c w v 2) ∧
        (qMnem w = some .lr → (s.coreS c).sb = [] → Sets (.lr c) s c w v 2 ∧
          ((s.coreS c).haltReq = 0 → Runs (.lr c) s (fun t => Tbl.find t.memc.resv c = some (x / 8 * 8)))) ∧
        (qMnem w = some .tas → (s.coreS c).sb = [] → Runs (.tas c) s (fun t =>
          (∀ j, t.gpr c j = if j = qRd w ∧ j ≠ 0 then v else s.gpr c j) ∧
          (t.coreS c).pc = ((s.coreS c).pc + 4) % 2 ^ 32 ∧
          t.mem = ((s.coreReach c).sramWrite (0x20 + c) 0 x (leBytes 4 1)).mem ∧
          t.memc.merge = ((s.coreReach c).sramWrite (0x20 + c) 0 x (leBytes 4 1)).memc.merge ∧
          (s.memc.sc = [] → OthersKept s t c)))) ∧
      (qMnem w = some .st → a < 0x40000 → a % n = 0 → Runs (.st c) s (fun t => (∀ j, t.gpr c j = s.gpr c j) ∧
        (t.coreS c).pc = ((s.coreS c).pc + 4) % 2 ^ 32 ∧ (t.coreS c).sb = (s.coreS c).sb ∧
        t.mem = ((s.coreReach c).sramWrite (0x20 + c) 0 x (leBytes n (s.gpr c (qRd w)))).mem ∧
        t.memc.merge = ((s.coreReach c).sramWrite (0x20 + c) 0 x (leBytes n (s.gpr c (qRd w)))).memc.merge ∧
        (s.memc.sc = [] → OthersKept s t c))) ∧
      (qMnem w = some .st → ∀ y, s.coreMap c a = .fabric y → a % n = 0 → (s.coreS c).sb.length < 4 →
        Runs (.st c) s (fun t => (∀ j, t.gpr c j = s.gpr c j) ∧ (t.coreS c).pc = ((s.coreS c).pc + 4) % 2 ^ 32 ∧
          (t.coreS c).next = s.start c + 2 ∧ (t.coreS c).sb = (s.coreS c).sb ++
            [({ addr := a, sys := some y, bytes := leBytes n (s.gpr c (qRd w)),
                issued := if (s.coreS c).sb = [] then some (s.start c + 2) else none } : SbEntry)] ∧
          OthersKept s t c ∧ t.mem = s.mem)) ∧
      (qMnem w = some .st → ∀ y, s.coreMap c a = .fabric y → a % n = 0 → 4 ≤ (s.coreS c).sb.length →
        Runs (.st c) s (fun t => (t.coreS c).waiting = some (w, s.start c) ∧ (t.coreS c).pc = (s.coreS c).pc ∧
          (t.coreS c).sb = (s.coreS c).sb ∧ (∀ j, t.gpr c j = s.gpr c j) ∧ OthersKept s t c ∧ t.mem = s.mem)) ∧
      (qMnem w = some .sc → a < 0x40000 → a % 4 = 0 → (s.coreS c).sb = [] →
        (Tbl.find s.memc.resv c = some (x / 8 * 8) → Tbl.get 0 s.memc.sramErr (x / 8 * 8) = 0 → Runs (.sc c) s (fun t =>
          (∀ j, t.gpr c j = if j = qRd w ∧ j ≠ 0 then 0 else s.gpr c j) ∧
          (t.coreS c).pc = ((s.coreS c).pc + 4) % 2 ^ 32 ∧
          Tbl.find t.memc.resv c = none ∧
          t.mem = ((s.coreReach c).sramWrite (0x20 + c) 0 x (leBytes 4 (s.gpr c (qRd w)))).mem ∧
          t.memc.merge = ((s.coreReach c).sramWrite (0x20 + c) 0 x (leBytes 4 (s.gpr c (qRd w)))).memc.merge ∧
          (s.memc.sc = [] → OthersKept s t c))) ∧
        (Tbl.find s.memc.resv c ≠ some (x / 8 * 8) → Sets (.sc c) s c w 1 2 ∧
          Runs (.sc c) s (fun t => Tbl.find t.memc.resv c = none))) ∧
      (a % 4 ≠ 0 → s.coreExc c = false →
        (qMnem w = some .lr → Enters (.lr c) s c 2 (s.coreS c).pc (some a) 0) ∧
        (qMnem w = some .sc → Enters (.sc c) s c 2 (s.coreS c).pc (some a) 0) ∧
        (qMnem w = some .tas → Enters (.tas c) s c 2 (s.coreS c).pc (some a) 0)) ∧
      (a % 4 = 0 → s.atomicAt c a = none → s.coreExc c = false →
        (qMnem w = some .lr → Enters (.lr c) s c 6 (s.coreS c).pc (some a) 0) ∧
        (qMnem w = some .sc → Enters (.sc c) s c 6 (s.coreS c).pc (some a) 0) ∧
        (qMnem w = some .tas → Enters (.tas c) s c 6 (s.coreS c).pc (some a) 0)) ∧
      (a % n ≠ 0 → a + n ≤ 0x40000 →
        (s.memc.merge.find? (fun e => e.addr == x / 8 * 8) = none → Tbl.get 0 s.memc.sramErr (x / 8 * 8) = 0 →
          (s.coreS c).sb = [] → (∀ i op, (i, op) ∈ [(Instr.ld c, QOp.ld), (.ldu c, .ldu)] → qMnem w = some op →
          Runs i s (fun t => (t.coreS c).waiting = some (w, s.start c) ∧ (t.coreS c).between = true ∧
            (t.coreS c).prog = 1 ∧ (t.coreS c).part = s.bytes x (n - a % n) ∧ (t.coreS c).pc = (s.coreS c).pc ∧
            (∀ j, t.gpr c j = s.gpr c j) ∧ OthersKept s t c ∧ t.mem = s.mem))) ∧
        (qMnem w = some .st → Runs (.st c) s (fun t => (t.coreS c).waiting = some (w, s.start c) ∧
          (t.coreS c).between = true ∧ (t.coreS c).prog = 1 ∧ (t.coreS c).pc = (s.coreS c).pc ∧
          (∀ j, t.gpr c j = s.gpr c j) ∧ (s.memc.sc = [] → OthersKept s t c) ∧
          t.mem = ((s.coreReach c).sramWrite (0x20 + c) 0 x ((leBytes n (s.gpr c (qRd w))).take (n - a % n))).mem)))) ∧
  (∀ (s : State) (c w t0 : Nat), c < 4 → s.gib ≤ 16 → (s.coreS c).waiting = some (w, t0) → (s.coreS c).between = true →
    (s.coreS c).prog = 1 → s.boot.tripped = false → s.on (F.CPUn_CTRL.RESET c) = false →
    ∀ a, a = qEa (s.gpr c (qRa w)) w → ∀ n, n = qSize w → a % n ≠ 0 → a + n ≤ 0x40000 →
    (s.coreS c).part.length = n - a % n → ∀ y, y = ownSys c (a + n - a % n) →
    ∀ v, v = leVal ((s.coreS c).part ++ s.bytes y (a % n)) →
    (s.memc.merge.find? (fun e => e.addr == y / 8 * 8) = none → Tbl.get 0 s.memc.sramErr (y / 8 * 8) = 0 →
      (s.coreS c).sb = [] →
      (qMnem w = some .ld → Sets (.ld c) s c w ((BitVec.ofNat (8 * n) v).signExtend 32).toNat 2) ∧
      (qMnem w = some .ldu → Sets (.ldu c) s c w v 2)) ∧
    (qMnem w = some .st → Runs (.st c) s (fun t => (∀ j, t.gpr c j = s.gpr c j) ∧
      (t.coreS c).pc = ((s.coreS c).pc + 4) % 2 ^ 32 ∧ (t.coreS c).waiting = none ∧ (s.memc.sc = [] →
      OthersKept s t c) ∧
      t.mem = ((s.coreReach c).sramWrite (0x20 + c) 0 y ((leBytes n (s.gpr c (qRd w))).drop (n - a % n))).mem)))

/-- System instructions of QC32 (R334, R339, R344, R345, R347, R349, R351). MFS reads and MTS writes a system register,
MTS once the store buffer is empty; ERET restores IE from PIE, clears EXC and goes to EPC; TRAP saves the address of
the next instruction and its code; BRK halts or takes BREAK; SYNC.I fetches again; DRAIN waits for the store buffer;
STKSAVE empties and STKLOAD replaces the return stack; WFI waits for the request line. -/
def Obligations.Qc32System : Prop :=
  ∀ (s : State) (c : Nat), c < 4 → s.gib ≤ 16 → ∀ w, s.coreWord c = some w → (s.coreS c).prog = 0 →
    ∀ x, x = s.coreS c → ∀ a, a = s.gpr c (qRa w) → ∀ next, next = (x.pc + 4) % 2 ^ 32 →
      (qMnem w = some .mfs →
        (qSr w = 0 → Sets (.mfs c) s c w (x.status % 2 ^ 32) 1) ∧ (qSr w = 1 → Sets (.mfs c) s c w (x.epc % 2 ^ 32) 1) ∧
        (qSr w = 2 → Sets (.mfs c) s c w (x.cause % 2 ^ 32) 1) ∧ (qSr w = 3 →
        Sets (.mfs c) s c w (x.badaddr % 2 ^ 32) 1) ∧
        (qSr w = 4 → Sets (.mfs c) s c w (x.vbase % 2 ^ 32) 1) ∧
        (qSr w = 5 → Sets (.mfs c) s c w (x.stack.length % 2 ^ 32) 1) ∧
        (qSr w = 6 → Sets (.mfs c) s c w (x.scratch0 % 2 ^ 32) 1) ∧
        (qSr w = 7 → Sets (.mfs c) s c w (x.scratch1 % 2 ^ 32) 1) ∧
        (qSr w = 8 → Sets (.mfs c) s c w ((s.start c - x.base) % 2 ^ 32) 1) ∧ (qSr w = 10 → Sets (.mfs c) s c w c 1) ∧
        (16 ≤ qSr w → qSr w ≤ 23 → Sets (.mfs c) s c w (Tbl.get 0#32 x.win (qSr w - 16)).toNat 1)) ∧
      (qMnem w = some .mts → x.sb = [] → Runs (.mts c) s (fun t => (t.coreS c).pc = next ∧
      (∀ j, t.gpr c j = s.gpr c j) ∧
        (qSr w = 0 → (t.coreS c).status % 16 = a % 16) ∧ (qSr w ≠ 0 → (t.coreS c).status = x.status) ∧
        (t.coreS c).epc = (if qSr w = 1 then a else x.epc) ∧
        (t.coreS c).vbase = (if qSr w = 4 then a &&& 0x1FF00 else x.vbase) ∧
        (t.coreS c).scratch0 = (if qSr w = 6 then a else x.scratch0) ∧
        (t.coreS c).scratch1 = (if qSr w = 7 then a else x.scratch1) ∧
        (∀ k, k < 8 → (Tbl.get 0#32 (t.coreS c).win k).toNat =
          if qSr w = 16 + k then a &&& 0x80000FFF else (Tbl.get 0#32 x.win k).toNat) ∧
        (t.coreS c).cause = x.cause ∧ (t.coreS c).stack = x.stack ∧ OthersKept s t c ∧ t.mem = s.mem)) ∧
      (qMnem w = some .mts → x.sb ≠ [] → Runs (.mts c) s (fun t => (t.coreS c).waiting = some (w, s.start c) ∧
        (t.coreS c).pc = x.pc ∧ x.Kept (t.coreS c) ∧ OthersKept s t c ∧ t.mem = s.mem)) ∧
      (qMnem w = some .eret → Runs (.eret c) s (fun t => (t.coreS c).pc = x.epc / 4 * 4 ∧
        (t.coreS c).status.testBit 0 = x.status.testBit 1 ∧ (t.coreS c).status.testBit 2 = false ∧
        (t.coreS c).status.testBit 1 = x.status.testBit 1 ∧ (t.coreS c).status.testBit 3 = x.status.testBit 3 ∧
        (t.coreS c).stack = x.stack ∧ Tbl.find t.memc.resv c = none ∧ (t.coreS c).next = s.start c + 3 ∧
        (∀ j, t.gpr c j = s.gpr c j) ∧ OthersKept s t c ∧ t.mem = s.mem)) ∧
      (qMnem w = some .trap → s.coreExc c = false → Enters (.trap c) s c 9 next none 0 ∧
        Runs (.trap c) s (fun t => (t.coreS c).cause / 256 % 32 = qSr w)) ∧
      (qMnem w = some .trap → s.coreExc c = true → DoubleFaults (.trap c) s c) ∧
      (qMnem w = some .brk → s.on (F.CPUn_DBG_CTRL.BRK_HALT c) = true → Runs (.brk c) s (fun t =>
        t.on (F.CPUn_STATUS.HALTED c) = true ∧ t.rd (F.CPUn_DBG_STATUS.HCAUSE c) = 4 ∧ (t.coreS c).pc = next ∧
        (∀ j, t.gpr c j = s.gpr c j) ∧ x.Kept (t.coreS c) ∧ OthersKept s t c ∧ t.mem = s.mem)) ∧
      (qMnem w = some .brk → s.on (F.CPUn_DBG_CTRL.BRK_HALT c) = false → s.coreExc c = false →
        Enters (.brk c) s c 0xA x.pc none 0) ∧
      (qMnem w = some .syncI → Goes (.syncI c) s c next 4 x.stack) ∧
      (qMnem w = some .drain → x.sb = [] → Sets (.drain c) s c 0 0 2) ∧
      (qMnem w = some .drain → x.sb ≠ [] → Runs (.drain c) s (fun t => (t.coreS c).waiting = some (w, s.start c) ∧
        (t.coreS c).pc = x.pc ∧ t.mem = s.mem)) ∧
      (qMnem w = some .stksave → a % 4 = 0 → a + 68 ≤ 0x40000 → Runs (.stksave c) s (fun t => (t.coreS c).stack = [] ∧
        (t.coreS c).pc = next ∧ (t.coreS c).next = s.start c + 19 ∧ (∀ j, t.gpr c j = s.gpr c j) ∧
        x.Kept (t.coreS c) ∧ (s.memc.sc = [] → OthersKept s t c))) ∧
      (qMnem w = some .stkload → a % 4 = 0 → a + 68 ≤ 0x40000 → s.memc.merge = [] → s.memc.sramErr = [] → x.sb = [] →
        Runs (.stkload c) s (fun t => (t.coreS c).stack = ((List.range 16).map (fun i =>
            leVal (s.bytes (ownSys c (a + 4 * (i + 1))) 4) / 4 * 4)).take (min 16 (leVal (s.bytes (ownSys c a) 4) % 32)) ∧
          (t.coreS c).pc = next ∧ (∀ j, t.gpr c j = s.gpr c j) ∧ x.Kept (t.coreS c) ∧ OthersKept s t c ∧
          t.mem = s.mem)) ∧
      (qMnem w = some .wfi → s.irqLine c = true → Sets (.wfi c) s c 0 0 1) ∧
      (qMnem w = some .wfi → s.irqLine c = false → Runs (.wfi c) s (fun t => t.on (F.CPUn_STATUS.WFI c) = true ∧
        (t.coreS c).pc = x.pc ∧ (∀ j, t.gpr c j = s.gpr c j) ∧ t.mem = s.mem))

/-- What falls due at an instruction boundary (R328, R330, R337, R345, R346, R348, R349): a store's bus error, an
interrupt, a breakpoint, an illegal word or one that could not be fetched; each with its code, saved PC and vector.
While EXC = 1 all but an interrupt halt the core. An acknowledgement frees the oldest store, and one that nothing
answers leaves a bus error. -/
def Obligations.CoreBoundaries : Prop :=
  ∀ (s : State) (c : Nat), c < 4 → ∀ x, x = s.coreS c →
    (s.coreFree c = true → s.storeErr c = none → s.intTaken c = true →
    Enters (.interruptEntry c) s c 0x10 x.pc none 0x80) ∧
    (s.on (F.CPUn_STATUS.WFI c) = false → s.intTaken c = false → Leaves (.interruptEntry c) s s) ∧
    (s.coreFree c = true → ∀ a, s.storeErr c = some a →
      (s.coreExc c = false → Enters (.storeBus c) s c 5 x.pc (some (a % 2 ^ 32)) 0) ∧
      (s.coreExc c = true → DoubleFaults (.storeBus c) s c)) ∧
    (s.storeErr c = none → Leaves (.storeBus c) s s) ∧
    (∀ w, s.coreWord c = some w → qMnem w = none →
      (s.coreExc c = false → Enters (.illegal c) s c 1 x.pc none 0) ∧
      (s.coreExc c = true → DoubleFaults (.illegal c) s c)) ∧
    (s.coreWord c = none → Leaves (.illegal c) s s) ∧
    (s.coreFree c = true → s.storeErr c = none → s.intTaken c = false → x.pref.head? = some none →
      (s.coreExc c = false → Enters (.fetchException c) s c 3 x.pc (some x.pc) 0) ∧
      (s.coreExc c = true → DoubleFaults (.fetchException c) s c)) ∧
    (s.coreLive c = true → s.on (F.CPUn_STATUS.HALTED c) = false → s.coreIdle c = true → s.bpHit c = true →
      Runs (.breakpoint c) s (fun t => t.on (F.CPUn_STATUS.HALTED c) = true ∧ t.rd (F.CPUn_DBG_STATUS.HCAUSE c) = 3 ∧
        (t.coreS c).pc = x.pc ∧ (∀ j, t.gpr c j = s.gpr c j) ∧ x.Kept (t.coreS c) ∧ OthersKept s t c ∧ t.mem = s.mem)) ∧
    (s.bpHit c = false → Leaves (.breakpoint c) s s) ∧
    (x.sb = [] → Leaves (.storeAck c) s s) ∧
    (∀ e rest, x.sb = e :: rest → e.sys = none → s.boot.tripped = false → x.waiting = none →
      s.on (F.CPUn_CTRL.RESET c) = false → x.haltReq = 0 → Runs (.storeAck c) s (fun t =>
        (t.coreS c).sb.map (fun e => e.addr) = rest.map (fun e => e.addr) ∧
        t.memc.lateErr = s.memc.lateErr ++ [(c, e.addr)] ∧ (t.coreS c).pc = x.pc ∧
        t.rd F.MEM_DECODE_CNT.COUNT = min 0xFFFFFFFF (s.rd F.MEM_DECODE_CNT.COUNT + 1) ∧ t.mem = s.mem)) ∧
    (∀ e rest, x.sb = e :: rest → ∀ y, e.sys = some y → ∀ p, regionOf s.gib y = .sram p → e.bytes.length ≤ 4 - y % 4 →
      s.boot.tripped = false → x.waiting = none → s.on (F.CPUn_CTRL.RESET c) = false → x.haltReq = 0 →
      Runs (.storeAck c) s (fun t => (t.coreS c).sb.map (fun e => e.addr) = rest.map (fun e => e.addr) ∧
        t.now = max s.now (eclkOf (e.issued.getD 0 + s.storeWait e.sys)) ∧ (t.coreS c).pc = x.pc))

/-- Debug and reset of a core (R349, R350). HALT takes effect at the boundary with HCAUSE 1; RESUME runs on from PC;
STEP runs one instruction, here an ADD, and halts with HCAUSE 2. Reset clears the general registers, STATUS and the
return stack once the store buffer is empty; released, the core starts at BOOT_PC. -/
def Obligations.CoreDebugAndReset : Prop :=
  ∀ (s : State) (c : Nat), c < 4 → ∀ x, x = s.coreS c →
    (s.on (F.CPUn_STATUS.HALTED c) = false → s.on (F.CPUn_STATUS.IN_RESET c) = false →
    s.on (F.CPUn_CTRL.RESET c) = false →
      s.coreIdle c = true → Runs (.dbgHalt c) s (fun t => t.on (F.CPUn_STATUS.HALTED c) = true ∧
        t.rd (F.CPUn_DBG_STATUS.HCAUSE c) = 1 ∧ (t.coreS c).pc = x.pc ∧ (∀ j, t.gpr c j = s.gpr c j) ∧
        x.Kept (t.coreS c) ∧ OthersKept s t c ∧ t.mem = s.mem)) ∧
    (s.on (F.CPUn_STATUS.HALTED c) = true → Runs (.dbgResume c) s (fun t => t.on (F.CPUn_STATUS.HALTED c) = false ∧
      (t.coreS c).pc = x.pc ∧ (∀ j, t.gpr c j = s.gpr c j) ∧ x.Kept (t.coreS c) ∧ (t.coreS c).stack = x.stack ∧
      OthersKept s t c ∧ t.mem = s.mem)) ∧
    (s.on (F.CPUn_STATUS.HALTED c) = false → Leaves (.dbgResume c) s s ∧ Leaves (.dbgStep c) s s) ∧
    (s.on (F.CPUn_STATUS.HALTED c) = true → s.on (F.CPUn_STATUS.IN_RESET c) = false →
      s.on (F.CPUn_CTRL.RESET c) = false → s.coreIdle c = true → s.storeErr c = none →
      s.on (F.CPUn_DBG_CTRL.STEP_IRQ c) = false → ∀ w, (s.fetchWord c x.pc).1 = some w → qMnem w = some .add →
      Runs (.dbgStep c) s (fun t => t.on (F.CPUn_STATUS.HALTED c) = true ∧ t.rd (F.CPUn_DBG_STATUS.HCAUSE c) = 2 ∧
        (t.coreS c).pc = (x.pc + 4) % 2 ^ 32 ∧ (∀ j, t.gpr c j = if j = qRd w ∧ j ≠ 0
          then (s.gpr c (qRa w) + s.gpr c (qRb w)) % 2 ^ 32 else s.gpr c j) ∧ x.Kept (t.coreS c) ∧ OthersKept s t c ∧
        t.mem = s.mem)) ∧
    (∀ v, v.testBit 0 = true → s.on (F.CPUn_STATUS.IN_RESET c) = false → s.coreIdle c = true → x.sb = [] →
      Runs (.coreReset c v) s (fun t => t.on (F.CPUn_STATUS.IN_RESET c) = true ∧ t.on (F.CPUn_STATUS.HALTED c) = false ∧
        (∀ j, t.gpr c j = 0) ∧ (t.coreS c).status = 0 ∧ (t.coreS c).stack = [] ∧ Tbl.find t.memc.resv c = none ∧
        (t.coreS c).epc = x.epc ∧ OthersKept s t c ∧ t.mem = s.mem)) ∧
    (∀ v, v.testBit 0 = false → s.on (F.CPUn_STATUS.IN_RESET c) = true → Runs (.coreReset c v) s (fun t =>
      t.on (F.CPUn_STATUS.IN_RESET c) = false ∧ t.on (F.CPUn_CTRL.RESET c) = false ∧
      (t.coreS c).pc = 4 * s.rd (F.CPUn_BOOT_PC.PC c) ∧ (∀ j, t.gpr c j = s.gpr c j) ∧ OthersKept s t c ∧
      t.mem = s.mem))

/-- The interrupt controller (R352, R353, R355-R359). Where the fabric is calm: a claim returns the source and its COUNT
as its cycle found it, clears COUNT but for events of its own cycle, pushes RPRIO and takes the source's PRIO, and
returns 0 where none qualifies; a peek changes nothing; EOI restores RPRIO from the stack, or sets EOI_ERR on an
empty one; SWI adds 1 to COUNT of each source it names, up to 255; CLR makes COUNT 0 but for events of its own
cycle. -/
def Obligations.InterruptController : Prop :=
  ∀ s : State, s.Calm →
    (∀ c, c < 4 → ∀ n w, s.irqBest c = some (n, w) →
    Runs (.irqClaim c) s (fun t => t.rdata = n + (s.irqCycle n).1 * 2 ^ 16 ∧
      (Tbl.find s.cycNow.rc (32 * R.IRQ_SRCs n + 8) = none → s.irqCycle n = (bitsOf w 8 8, 0)) ∧
      t.rd (F.IRQ_SRCs.COUNT n) = (s.irqCycle n).2 ∧ t.rd (F.IRQ_STATc.RPRIO c) = bitsOf w 4 4 ∧
      t.irqStack c = s.rd (F.IRQ_STATc.RPRIO c) :: s.irqStack c ∧
      t.rd (F.IRQ_STATc.DEPTH c) = ((s.irqStack c).length + 1) % 32 ∧
      (∀ m, m ≤ 338 → m ≠ n → t.reg (R.IRQ_SRCs m) = s.reg (R.IRQ_SRCs m)) ∧ t.mem = s.mem ∧ t.cores = s.cores)) ∧
    (∀ c, s.irqBest c = none → Runs (.irqClaim c) s (fun t => t = { s with rdata := 0 })) ∧
    (∀ c, Runs (.irqPeek c) s (fun t => t = { s with rdata := s.irqPeek c })) ∧
    (∀ c, c < 4 → ∀ p rest, s.irqStack c = p :: rest →
    Runs (.irqEoi c) s (fun t => t.rd (F.IRQ_STATc.RPRIO c) = p % 16 ∧
      t.irqStack c = rest ∧ t.rd (F.IRQ_STATc.DEPTH c) = rest.length % 32 ∧
      (∀ m, m ≤ 338 → t.reg (R.IRQ_SRCs m) = s.reg (R.IRQ_SRCs m)) ∧ t.mem = s.mem ∧ t.cores = s.cores)) ∧
    (∀ c, c < 4 → s.irqStack c = [] → Runs (.irqEoi c) s (fun t => t = s.hwSet (F.IRQ_STATc.EOI_ERR c))) ∧
    (∀ v, s.boot.sby < 5 → Runs (.irqSwi v) s (fun t => (∀ k, k < 16 → t.rd (F.IRQ_SRCs.COUNT (323 + k)) =
        if v.testBit k then min 255 (s.rd (F.IRQ_SRCs.COUNT (323 + k)) + 1) else s.rd (F.IRQ_SRCs.COUNT (323 + k))) ∧
      (∀ m, m < 323 → t.reg (R.IRQ_SRCs m) = s.reg (R.IRQ_SRCs m)) ∧ t.irqStk = s.irqStk ∧ t.mem = s.mem ∧
      t.cores = s.cores)) ∧
    (∀ n, 1 ≤ n → n ≤ 338 → Runs (.irqClr n) s (fun t => t.rd (F.IRQ_SRCs.COUNT n) = (s.irqCycle n).2 ∧
      (Tbl.find s.cycNow.rc (32 * R.IRQ_SRCs n + 8) = none → (s.irqCycle n).2 = 0) ∧
      t.rd (F.IRQ_SRCs.PRIO n) = s.rd (F.IRQ_SRCs.PRIO n) ∧ t.on (F.IRQ_SRCs.EN n) = s.on (F.IRQ_SRCs.EN n) ∧
      (∀ m, m ≤ 338 → m ≠ n → t.reg (R.IRQ_SRCs m) = s.reg (R.IRQ_SRCs m)) ∧ t.irqStk = s.irqStk ∧ t.mem = s.mem ∧
      t.cores = s.cores))

/-- The Sluice (R362-R374), where the fabric is calm. GO takes a snapshot of the shadow configuration; the check, once
the pins have followed what was due at them (`s`), ends in RESULT 2 for a code, 3 for a lock, 4 for a loop, and the
active configuration stays, or in RESULT 1 with the snapshot active and every filter showing its cell but one of an
unchanged cell that still holds back a change (log 51). A software event on a channel without a consumer is an event
of that channel's interrupt source. LOCK locks the channel and its source cone. At an FCLK edge each registered cell
without CLK loads its LUT's output. -/
def Obligations.SluiceConfiguration : Prop :=
  (∀ w : State, let s := w.pinsDue
    s.Calm →
    (s.on F.SLC_STATUS.BUSY = false → Runs .slcCheckDone w (fun t => t = s)) ∧
    (s.on F.SLC_STATUS.BUSY = true →
      (cfgCodeBad s.slc.snap = true → Runs .slcCheckDone w (fun t => t.rd F.SLC_STATUS.RESULT = 2 ∧
        t.on F.SLC_STATUS.BUSY = false ∧ t.slc = { s.slc with snap := [] } ∧ t.mem = s.mem ∧ t.cores = s.cores)) ∧
      (cfgCodeBad s.slc.snap = false → s.slcLockBad s.slc.snap = true → Runs .slcCheckDone w (fun t =>
        t.rd F.SLC_STATUS.RESULT = 3 ∧ t.on F.SLC_STATUS.BUSY = false ∧ t.slc = { s.slc with snap := [] } ∧
        t.mem = s.mem ∧ t.cores = s.cores)) ∧
      (cfgCodeBad s.slc.snap = false → s.slcLockBad s.slc.snap = false → cfgLoops s.slc.snap ≠ [] →
        Runs .slcCheckDone w (fun t => t.rd F.SLC_STATUS.RESULT = 4 ∧ t.on F.SLC_STATUS.BUSY = false ∧
          t.rd F.SLC_STATUS.LOOP_CELL ∈ cfgLoops s.slc.snap ∧ t.slc = { s.slc with snap := [] } ∧ t.mem = s.mem ∧
          t.cores = s.cores)) ∧
      (cfgCodeBad s.slc.snap = false → s.slcLockBad s.slc.snap = false → cfgLoops s.slc.snap = [] →
        Runs .slcCheckDone w (fun t => t.rd F.SLC_STATUS.RESULT = 1 ∧ t.on F.SLC_STATUS.BUSY = false ∧
          t.slc.act = s.slc.snap ∧ t.slc.snap = [] ∧
          (∀ e ∈ t.slc.filt, e ∈ s.slc.filt ∧ cfgCellChanged s.slc.snap s.slc.act e.1 = false) ∧
          (∀ k, k < 32 → t.slc.filt.all (fun e => e.1 != k) = true → t.slc.vis.testBit k = t.slc.q.testBit k) ∧
          t.slc.level = s.slc.level ∧ t.slc.due = s.slc.due ∧ t.mem = s.mem ∧ t.cores = s.cores))) ∧
    Runs .cellClockEdge w (fun t => (∀ k, k < 32 → (s.cellCfg k).reg = true → (s.cellCfg k).clk = false →
        t.slc.q.testBit k = cellLut (s.cellCfg k) s.slc.level s.slcHigh s.slc.vis) ∧
      t.slc.act = s.slc.act ∧ t.slc.level = s.slc.level ∧ t.mem = s.mem ∧ t.cores = s.cores)) ∧
  ∀ s : State, s.Calm →
    (∀ v, v.testBit 0 = true → s.on F.SLC_STATUS.BUSY = false → Runs (.slcCommit v) s (fun t =>
      t = { s.wr F.SLC_STATUS.BUSY 1 with slc := { s.slc with snap := s.slcShadow } })) ∧
    (∀ v, v.testBit 0 = false ∨ s.on F.SLC_STATUS.BUSY = true → Runs (.slcCommit v) s (fun t => t = s)) ∧
    (∀ v, s.slc.act = [] → Runs (.slcSwev v) s (fun t => t.slc = s.slc ∧ t.mem = s.mem ∧ t.cores = s.cores ∧
      ∀ o, t.reg o = s.reg o)) ∧
    (∀ k n, k < 16 → n < 64 → s.slc.act = [(R.SLC_CHn_CFG n, w32 (0x180 + k))] → s.slc.ch.testBit n = false →
      s.rd (F.SLC_CHn_STAT.CLASS n) = 0 → s.boot.sby = 0 → Runs (.slcSwev (2 ^ k)) s (fun t =>
        t.rd (F.IRQ_SRCs.COUNT (259 + n)) = min 255 (s.rd (F.IRQ_SRCs.COUNT (259 + n)) + 1) ∧
        (∀ m, m ≤ 338 → m ≠ 259 + n → t.reg (R.IRQ_SRCs m) = s.reg (R.IRQ_SRCs m)) ∧ t.slc.pulse = [] ∧
        t.slc.due = s.slc.due ∧ t.mem = s.mem ∧ t.cores = s.cores)) ∧
    (∀ n v, n < 64 → s.on (F.SLC_CHn_CFG.LOCK n) = true → Runs (.slcLock n v) s (fun t => t = s)) ∧
    (∀ n v, n < 64 → s.on (F.SLC_CHn_CFG.LOCK n) = false → Runs (.slcLock n v) s (fun t =>
      t.on (F.SLC_CHn_CFG.LOCK n) = true ∧ t.rd (F.SLC_CHn_CFG.SRC n) = bitsOf v 0 9 ∧
      t.rd (F.SLC_CHn_CFG.GATE n) = bitsOf v 16 9 ∧
      (∀ k, k ∈ cfgCone s.slc.act 32 (codeCells [bitsOf (cfgWord s.slc.act (R.SLC_CHn_CFG n)) 0 9,
        bitsOf (cfgWord s.slc.act (R.SLC_CHn_CFG n)) 16 9]) → t.on (F.SLC_CELLk_STAT.LOCKED k) = true) ∧
      t.slc = s.slc ∧ t.mem = s.mem ∧ t.cores = s.cores))

/-- Pins (R377, R379, R382-R386, R388-R390, R490). A function that the pin has is taken, another is refused; through the
next two PCLK edges the pad keeps the drive it had. Once the changes of function that are due have reached their
pads, and audio outputs their frames' edges (`u`): the synchronised level follows the part's drive, the drive from
outside or the pull, and without a filter the filtered level follows it; the end of a filter window makes the
filtered level the synchronised one; a task sets, clears or toggles its output bit. Clearing a flag leaves it set
only where it was set in the same cycle or its level condition still holds. A bank whose stated voltage is not the
sensed one shows MISMATCH, drives nothing and raises fault 0x43 once; one without supply drives nothing and its
inputs read 0. RELEASE ends the Standby states, each pad keeping its drive as after a change of function; TICK_OUT
falls after its microsecond. -/
def Obligations.PinsAndBanks : Prop :=
  (∀ s : State, (∀ e, e ∈ s.pin → e.2.mux = none) → s.aud.out = [] → s.pinsDue = s) ∧
  (∀ (s : State) (p : Nat), p < 96 →
    (∀ v, bitsOf v 0 3 = s.func p → Leaves (.pmxWrite p v) s s) ∧
    (∀ v, bitsOf v 0 3 ≠ s.func p → funcOk p (bitsOf v 0 3) = false →
      Leaves (.pmxWrite p v) s (s.wr F.PMX_STATUS.CFG_REJECT 1)) ∧
    (let u := s.pinsDue
     (∀ v, bitsOf v 0 3 ≠ s.func p → funcOk p (bitsOf v 0 3) = true → Runs (.pmxWrite p v) s (fun t =>
       t.func p = bitsOf v 0 3 ∧ (∀ q, q < 96 → q ≠ p → t.func q = s.func q) ∧
       (t.pinS p).mux = some ((s.now + 2) / 3 * 3 + 6, u.padDrive p) ∧ t.padDrive p = u.padDrive p ∧
       (bitsOf v 0 3 = 2 → 1 < (t.capPins (p % 16)).length → t.on F.PMX_STATUS.PMX_CONFLICT = true ∧
         t.rd F.PMX_STATUS.CONF_INPUT = p % 16) ∧ t.now = s.now ∧ t.mem = s.mem ∧ t.cores = s.cores)) ∧
     (∀ d b, u.padDrive p = some b → Runs (.pinChange p d) s (fun t => t.pinRaw p = b ∧ t.mem = s.mem ∧
     t.cores = s.cores)) ∧
     (∀ d, u.bankDead (p / 16) = true → Runs (.pinChange p d) s (fun t => t.pinRaw p = false ∧ t.mem = s.mem ∧
       t.cores = s.cores)) ∧
     (∀ d, u.padDrive p = none → u.bankDead (p / 16) = false → d < 2 → Runs (.pinChange p d) s (fun t =>
       t.pinRaw p = (d == 1) ∧ (t.pinS p).ext = some (d == 1) ∧
       ((u.pinFilt p).1 = 0 → u.pinRaw p ≠ (d == 1) → t.pinIn p = (d == 1)) ∧
       (∀ q, q < 96 → q ≠ p → t.pinRaw q = u.pinRaw q ∧ t.pinIn q = u.pinIn q) ∧ t.mem = s.mem ∧ t.cores = s.cores)) ∧
     (∀ d, u.padDrive p = none → u.bankDead (p / 16) = false → 2 ≤ d →
       let pull := if u.on F.GPIO_SBY_CTRL.HELD then (u.sbyMode p).2 else u.rd (F.GPIO_PINp_CFG.PULL p)
       Runs (.pinChange p d) s (fun t => (pull = 1 → t.pinRaw p = true) ∧ (pull = 2 → t.pinRaw p = false) ∧
         (pull = 3 → t.pinRaw p = (u.pinS p).keep) ∧ (t.pinS p).ext = none ∧ t.mem = s.mem ∧ t.cores = s.cores)) ∧
     ((u.pinS p).busy = none → Leaves (.pinFilterExpire p) s u) ∧
     (∀ t0, (u.pinS p).busy = some t0 → Runs (.pinFilterExpire p) s (fun t => t.now = max s.now t0 ∧
       (t.pinS p).busy = none ∧ t.pinIn p = u.pinRaw p ∧ t.pinRaw p = u.pinRaw p ∧ t.mem = s.mem ∧ t.cores = s.cores)) ∧
     (u.slcTake 4 p = none → Leaves (.gpioTask p) s u) ∧
     (∀ t0 x, u.slcTake 4 p = some (t0, x) → Runs (.gpioTask p) s (fun t => t.now = max s.now t0 ∧
       (t.pinS p).taskT = some t0 ∧
       (∀ j, j < 16 → (t.rd (F.GPIO_OUTb.OUT (p / 16))).testBit j =
         if j = p % 16 then taskBit (s.rd (F.GPIO_PINp_TASK.ACTION p)) ((s.rd (F.GPIO_OUTb.OUT (p / 16))).testBit j)
         else (s.rd (F.GPIO_OUTb.OUT (p / 16))).testBit j) ∧ t.mem = s.mem ∧ t.cores = s.cores)))) ∧
  (∀ (s : State) (b v : Nat), b < 6 → Runs (.gpioFlagClear b v) s (fun t => (∀ j, j < 16 →
    (t.rd (F.GPIO_IRQ_FLAGb.FLAG b)).testBit j = ((s.rd (F.GPIO_IRQ_FLAGb.FLAG b)).testBit j && (!v.testBit j ||
      (s.setNow (R.GPIO_IRQ_FLAGb b)).testBit j ||
      (s.rd (F.GPIO_PINp_IRQ.MODE (16 * b + j)) == 4 && s.pinIn (16 * b + j)) ||
      (s.rd (F.GPIO_PINp_IRQ.MODE (16 * b + j)) == 5 && !s.pinIn (16 * b + j))))) ∧ t.mem = s.mem ∧
      t.cores = s.cores)) ∧
  (∀ (s : State) (b v : Nat), b < 6 → Runs (.bankSense b v) s (fun t =>
    t.on (F.GPIO_BANKb_CFG.VSENSE b) = (v == 1) ∧ t.on (F.GPIO_BANKb_CFG.V33 b) = s.on (F.GPIO_BANKb_CFG.V33 b) ∧
    t.bankDead b = (v == 2) ∧ (∀ c, c ≠ b → t.bankDead c = s.bankDead c) ∧
    (t.bankOff b = true → t.on (F.GPIO_BANKb_CFG.MISMATCH b) = true ∧ (s.bankOff b = false → s.raised = [] →
      t.rd (F.FLT_SRCs_CNT.COUNT 0x43) = min 255 (s.rd (F.FLT_SRCs_CNT.COUNT 0x43) + 1))) ∧
    (t.bankOff b = false → t.on (F.GPIO_BANKb_CFG.MISMATCH b) = s.on (F.GPIO_BANKb_CFG.MISMATCH b)) ∧
    (t.bankOff b = true ∨ v = 2 → ∀ j, j < 16 → t.padDrive (16 * b + j) = none) ∧
    (v = 2 → ∀ j, j < 16 → t.pinRaw (16 * b + j) = false) ∧ t.mem = s.mem ∧ t.cores = s.cores)) ∧
  (∀ (s : State) (v : Nat),
    (v.testBit 0 = true → s.on F.GPIO_SBY_CTRL.HELD = true → Runs (.gpioRelease v) s (fun t =>
      t.on F.GPIO_SBY_CTRL.HELD = false ∧ (∀ p, p < 96 → (t.pinS p).sby = none ∧ t.padDrive p = s.padDrive p ∧
        (t.pinS p).mux = some ((s.now + 2) / 3 * 3 + 6, s.padDrive p)) ∧ t.now = s.now ∧ t.mem = s.mem ∧
        t.cores = s.cores)) ∧
    (v.testBit 0 = false ∨ s.on F.GPIO_SBY_CTRL.HELD = false → Leaves (.gpioRelease v) s s)) ∧
  (∀ s : State, s.tickOut = none → Leaves .tickOutEnd s s) ∧
  (∀ (s : State) (t0 : Nat), s.tickOut = some t0 → Runs .tickOutEnd s (fun t => t.tickOut = none ∧
  t.now = max s.now t0 ∧
    (∀ p, p < 96 → s.func p = 5 → s.on F.GPIO_SBY_CTRL.HELD = false → s.bankOff (p / 16) = false →
      s.bankDead (p / 16) = false → t.muxHeld p = none → t.padDrive p = some false ∧ t.pinRaw p = false) ∧
    t.mem = s.mem ∧ t.cores = s.cores))

/-- The operations of a Clove engine (R391, R393, R394, R396, R397, R401). An instruction of an engine in STARTING waits
for its first engine cycle, and pads that change by then have changed (`u`); one whose ENABLE was cleared meanwhile
is STOPPING with its first instruction. An operation that its state register names and that may begin occupies 1 +
DELAY engine cycles. EMIT sends the next bits of TXSH, 0 beyond TXLEFT, to the window pins; SAMPLE takes filtered
levels into RXSH; FETCH and DEPOSIT move one word and stall where their FIFO does not allow it; LDCA, LDCB and DECC
change LC. Codes 8-15 are NOP. A command for an operation that the engine is not about to begin changes nothing. An
instruction reads the pins as they were before its own drives. -/
def Obligations.CloveOperations : Prop :=
  ∀ (s : State) (n : Nat), n < 16 →
    let u := s.clvArm n
    (s.rd (F.CLVn_CTRL.STATE n) ≠ 1 → u = s.pinsDue) ∧
    (s.rd (F.CLVn_CTRL.STATE n) = 1 →
      u.rd (F.CLVn_CTRL.STATE n) = (if s.on (F.CLVn_CTRL.ENABLE n) then 2 else 3) ∧ u.now = max s.now (s.clvS n).cycAt ∧
      (u.clvS n).cycEnd = (s.clvS n).cycAt + 3 * (s.clvLen n (s.clvS n).acc).1 ∧
      (u.clvS n).acc = (s.clvLen n (s.clvS n).acc).2) ∧
    (∀ c ∈ [Instr.clvNop n, .emit n, .sample n, .fetch n, .deposit n, .ldca n, .ldcb n, .decc n],
      u.clvReady n = false → Leaves c s u) ∧
    (∀ c op, (c, op) ∈ [(Instr.emit n, 1), (.sample n, 2), (.fetch n, 3), (.deposit n, 4), (.ldca n, 5), (.ldcb n, 6),
      (.decc n, 7)] → clvOp (u.clvWord n) ≠ op → Leaves c s u) ∧
    (1 ≤ clvOp (u.clvWord n) → clvOp (u.clvWord n) ≤ 7 → Leaves (.clvNop n) s u) ∧
    (u.clvReady n = true →
      (clvOp (u.clvWord n) = 0 ∨ 8 ≤ clvOp (u.clvWord n) → Runs (.clvNop n) s (fun t =>
        t.reg (R.CLVn_TXSH n) = u.reg (R.CLVn_TXSH n) ∧ t.reg (R.CLVn_RXSH n) = u.reg (R.CLVn_RXSH n) ∧
        t.reg (R.CLVn_SREG n) = u.reg (R.CLVn_SREG n) ∧ t.reg (R.CLVn_STALL_CNT n) = u.reg (R.CLVn_STALL_CNT n) ∧
        (t.clvS n).begun = true ∧ (t.clvS n).left = 1 + clvDelay (u.clvWord n) ∧
        (∀ j, j < 8 → (t.clvS n).pins.testBit j =
          (if (u.clvS n).own.testBit j then (u.clvS n).pins else u.winLevels n).testBit j) ∧
        (∀ j, j < 8 → (t.clvS n).own.testBit j = ((u.clvS n).own.testBit j ||
          ((u.rd (F.CLVn_PINS.DIR n)).testBit j && (t.clvS n).outv.testBit j != (u.clvS n).outv.testBit j))) ∧
        (∀ j, j < 8 → (t.clvS n).outv.testBit j =
          if (u.clvWord n).testBit 40 && (u.rd (F.CLVn_PINS.SSMASK n)).testBit j then (u.clvWord n).testBit (32 + j)
          else (u.clvS n).outv.testBit j) ∧
        ((u.clvWord n).testBit 52 = true → t.on (F.CLVn_STATUS.IRQ n) = true) ∧
        (∀ m, m < 16 → m ≠ n → t.clvS m = u.clvS m) ∧ t.mem = s.mem ∧ t.cores = s.cores)) ∧
      (clvOp (u.clvWord n) = 1 → Runs (.emit n) s (fun t =>
        t.rd (F.CLVn_TXSH.TXSH n) = (if u.on (F.CLVn_CTRL.MSB_FIRST n)
          then u.rd (F.CLVn_TXSH.TXSH n) * 2 ^ clvCnt (u.clvWord n) % 2 ^ 32
          else u.rd (F.CLVn_TXSH.TXSH n) / 2 ^ clvCnt (u.clvWord n)) ∧
        t.rd (F.CLVn_SREG.TXLEFT n) = u.rd (F.CLVn_SREG.TXLEFT n) - clvCnt (u.clvWord n) ∧
        (∀ i, i < clvCnt (u.clvWord n) →
          ((u.clvWord n).testBit 40 && (u.rd (F.CLVn_PINS.SSMASK n)).testBit ((u.rd (F.CLVn_PINS.EMIT_PIN n) + i) % 8)) = false →
          (t.clvS n).outv.testBit ((u.rd (F.CLVn_PINS.EMIT_PIN n) + i) % 8) =
            (decide (i < u.rd (F.CLVn_SREG.TXLEFT n)) && (u.rd (F.CLVn_TXSH.TXSH n)).testBit
              (if u.on (F.CLVn_CTRL.MSB_FIRST n) then 31 - i else i))) ∧
        (t.clvS n).begun = true ∧ t.reg (R.CLVn_RXSH n) = u.reg (R.CLVn_RXSH n) ∧ (t.clvS n).tx = (u.clvS n).tx ∧
        (t.clvS n).rx = (u.clvS n).rx ∧ (∀ m, m < 16 → m ≠ n → t.clvS m = u.clvS m) ∧ t.mem = s.mem ∧
        t.cores = s.cores)) ∧
      (clvOp (u.clvWord n) = 2 → Runs (.sample n) s (fun t =>
        (∀ i, i < 32 → (t.rd (F.CLVn_RXSH.RXSH n)).testBit i =
          if u.on (F.CLVn_CTRL.MSB_FIRST n) then
            if i < clvCnt (u.clvWord n) then (u.winLevels n).testBit ((u.rd (F.CLVn_PINS.SAMPLE_PIN n) + i) % 8)
            else (u.rd (F.CLVn_RXSH.RXSH n)).testBit (i - clvCnt (u.clvWord n))
          else if i < 32 - clvCnt (u.clvWord n) then (u.rd (F.CLVn_RXSH.RXSH n)).testBit (i + clvCnt (u.clvWord n))
          else (u.winLevels n).testBit ((u.rd (F.CLVn_PINS.SAMPLE_PIN n) + (i + clvCnt (u.clvWord n) - 32)) % 8)) ∧
        t.rd (F.CLVn_SREG.RXFILL n) = min 32 (u.rd (F.CLVn_SREG.RXFILL n) + clvCnt (u.clvWord n)) ∧
        (t.clvS n).begun = true ∧ t.reg (R.CLVn_TXSH n) = u.reg (R.CLVn_TXSH n) ∧ (t.clvS n).tx = (u.clvS n).tx ∧
        (t.clvS n).rx = (u.clvS n).rx ∧ (∀ m, m < 16 → m ≠ n → t.clvS m = u.clvS m) ∧ t.mem = s.mem ∧
        t.cores = s.cores)) ∧
      (clvOp (u.clvWord n) = 3 → ∀ v q, (u.clvS n).tx = v :: q → Runs (.fetch n) s (fun t =>
        t.rd (F.CLVn_TXSH.TXSH n) = v % 2 ^ 32 ∧ t.rd (F.CLVn_SREG.TXLEFT n) = 32 ∧ (t.clvS n).tx = q ∧
        (t.clvS n).begun = true ∧ (t.clvS n).rx = (u.clvS n).rx ∧ t.reg (R.CLVn_RXSH n) = u.reg (R.CLVn_RXSH n) ∧
        (∀ m, m < 16 → m ≠ n → t.clvS m = u.clvS m) ∧ t.mem = s.mem ∧ t.cores = s.cores)) ∧
      (clvOp (u.clvWord n) = 3 → (u.clvS n).tx = [] → Runs (.fetch n) s (fun t => (t.clvS n).stalled = true ∧
        t.on (F.CLVn_STATUS.STALLED n) = true ∧ (t.clvS n).begun = (u.clvS n).begun ∧
        t.reg (R.CLVn_TXSH n) = u.reg (R.CLVn_TXSH n) ∧ t.reg (R.CLVn_SREG n) = u.reg (R.CLVn_SREG n) ∧
        t.mem = s.mem ∧ t.cores = s.cores)) ∧
      (clvOp (u.clvWord n) = 4 → (u.clvS n).rx.length < 4 → Runs (.deposit n) s (fun t =>
        (t.clvS n).rx = (u.clvS n).rx ++ [u.rd (F.CLVn_RXSH.RXSH n)] ∧ t.rd (F.CLVn_RXSH.RXSH n) = 0 ∧
        t.rd (F.CLVn_SREG.RXFILL n) = 0 ∧ t.rd (F.CLVn_SREG.TXLEFT n) = u.rd (F.CLVn_SREG.TXLEFT n) ∧
        (t.clvS n).begun = true ∧ (t.clvS n).tx = (u.clvS n).tx ∧ t.reg (R.CLVn_TXSH n) = u.reg (R.CLVn_TXSH n) ∧
        (∀ m, m < 16 → m ≠ n → t.clvS m = u.clvS m) ∧ t.mem = s.mem ∧ t.cores = s.cores)) ∧
      (clvOp (u.clvWord n) = 4 → 4 ≤ (u.clvS n).rx.length → Runs (.deposit n) s (fun t => (t.clvS n).stalled = true ∧
        t.on (F.CLVn_STATUS.STALLED n) = true ∧ (t.clvS n).rx = (u.clvS n).rx ∧
        t.reg (R.CLVn_RXSH n) = u.reg (R.CLVn_RXSH n) ∧ t.mem = s.mem ∧ t.cores = s.cores)) ∧
      (∀ c op v, (c, op, v) ∈ [(Instr.ldca n, 5, u.rd (F.CLVn_LC.CA n)), (.ldcb n, 6, u.rd (F.CLVn_LC.CB n)),
          (.decc n, 7, u.rd (F.CLVn_STALL_CNT.LC n) - 1)] → clvOp (u.clvWord n) = op →
        Runs c s (fun t => t.rd (F.CLVn_STALL_CNT.LC n) = v ∧ (t.clvS n).begun = true ∧
          t.rd (F.CLVn_STALL_CNT.COUNT n) = u.rd (F.CLVn_STALL_CNT.COUNT n) ∧
          t.reg (R.CLVn_TXSH n) = u.reg (R.CLVn_TXSH n) ∧ t.reg (R.CLVn_RXSH n) = u.reg (R.CLVn_RXSH n) ∧
          t.reg (R.CLVn_SREG n) = u.reg (R.CLVn_SREG n) ∧ (∀ m, m < 16 → m ≠ n → t.clvS m = u.clvS m) ∧ t.mem = s.mem ∧
          t.cores = s.cores)))

/-- The engine cycles and registers of a Clove engine (R390-R392, R396-R402). Once its start is over (`u`), an engine
that drives a pin of a lower-numbered one has PIN_CONFLICT set, and: a stalled cycle adds 1 to COUNT; the last cycle
of an instruction loads the next state; other cycles count down, and pins are read at the edge that begins the last;
a STOPPING engine goes OFF at the end of either. ENABLE starts an engine that is OFF, which is STARTING for 2 PCLK
and has then the cycle length that CLKDIV gives, and stops one that runs, after the instruction in progress. RESTART
and program writes take effect only while it is OFF and set CFG_REJECT or PROG_BUSY otherwise. TXDATA queues a word
or sets TX_OVR; RXDATA gives the oldest word, which only a core read removes; an empty one reads 0; a DEPOSIT that
stalled in the cycle of such a read proceeds. A trigger sets TRIG_PEND, or TRIG_OVR where it is set and no
instruction clears it in the same cycle; in OFF it does nothing. -/
def Obligations.CloveCommands : Prop :=
  ∀ (s : State) (n : Nat), n < 16 →
    let u := s.clvFollow n
    let c := u.clvS n
    let st := u.rd (F.CLVn_CTRL.STATE n)
    (s.rd (F.CLVn_CTRL.STATE n) ≠ 1 ∨ s.now < (s.clvS n).cycAt → u = s) ∧
    (s.rd (F.CLVn_CTRL.STATE n) = 1 → (s.clvS n).cycAt ≤ s.now →
      st = (if s.on (F.CLVn_CTRL.ENABLE n) then 2 else 3) ∧ u.now = s.now ∧ c.cycAt = (s.clvS n).cycAt ∧
      c.cycEnd = (s.clvS n).cycAt + 3 * (s.clvLen n (s.clvS n).acc).1 ∧ c.acc = (s.clvLen n (s.clvS n).acc).2) ∧
    (st = 0 ∨ st = 1 → Leaves (.clvCycle n) s u) ∧
    (c.begun = false → c.stalled = false → u.clvConflict n = false ∨ u.on (F.CLVn_STATUS.PIN_CONFLICT n) = true →
      Leaves (.clvCycle n) s u) ∧
    (st = 2 ∨ st = 3 → u.clvConflict n = true →
      Runs (.clvCycle n) s (fun t => t.on (F.CLVn_STATUS.PIN_CONFLICT n) = true)) ∧
    (st = 2 ∨ st = 3 →
      (c.stalled = true → Runs (.clvCycle n) s (fun t => t.now = max s.now c.cycEnd ∧
        t.rd (F.CLVn_STALL_CNT.COUNT n) = min 65535 (u.rd (F.CLVn_STALL_CNT.COUNT n) + 1) ∧
        t.rd (F.CLVn_STALL_CNT.LC n) = u.rd (F.CLVn_STALL_CNT.LC n) ∧ (t.clvS n).stalled = false ∧
        (st = 2 → t.rd (F.CLVn_CTRL.STATE n) = 2 ∧ (t.clvS n).cycEnd = c.cycEnd + 3 * (u.clvLen n c.acc).1) ∧
        (st = 3 → t.rd (F.CLVn_CTRL.STATE n) = (if u.on (F.CLVn_CTRL.ENABLE n) then 1 else 0)) ∧
        t.reg (R.CLVn_SREG n) = u.reg (R.CLVn_SREG n) ∧ t.mem = s.mem ∧ t.cores = s.cores)) ∧
      (c.stalled = false → c.begun = true → c.left ≤ 1 → let v := u.reach c.cycEnd
        Runs (.clvCycle n) s (fun t =>
        t.rd (F.CLVn_SREG.STATE n) = v.clvNext n (v.clvWord n) (v.clvCond n (bitsOf (v.clvWord n) 20 4))
          (v.clvCond n (bitsOf (v.clvWord n) 24 4)) ∧
        (v.trigNow n = none → bitsOf (v.clvWord n) 20 4 = 13 ∨ bitsOf (v.clvWord n) 24 4 = 13 →
          t.on (F.CLVn_STATUS.TRIG_PEND n) = false) ∧
        (st = 3 → t.rd (F.CLVn_CTRL.STATE n) = (if u.on (F.CLVn_CTRL.ENABLE n) then 1 else 0)) ∧
        (st = 2 → t.rd (F.CLVn_CTRL.STATE n) = 2) ∧
        t.rd (F.CLVn_SREG.TXLEFT n) = u.rd (F.CLVn_SREG.TXLEFT n) ∧ (t.clvS n).begun = false ∧
        t.now = max s.now c.cycEnd ∧ (t.clvS n).tx = c.tx ∧ (t.clvS n).rx = c.rx ∧ t.mem = s.mem ∧ t.cores = s.cores)) ∧
      (c.stalled = false → c.begun = true → 1 < c.left →
      u.clvConflict n = false ∨ u.on (F.CLVn_STATUS.PIN_CONFLICT n) = true →
        let v := (u.reach c.cycEnd).pinsDue
        Runs (.clvCycle n) s (fun t =>
        (t.clvS n).left = c.left - 1 ∧ (t.clvS n).begun = true ∧ (t.clvS n).own = c.own ∧
        (∀ j, j < 8 → c.left = 2 →
        (t.clvS n).pins.testBit j = (if c.own.testBit j then c.pins else v.winLevels n).testBit j) ∧
        (c.left ≠ 2 → (t.clvS n).pins = c.pins) ∧ t.mem = s.mem ∧ t.cores = s.cores ∧ RegsKept v t []))) ∧
    (st = 2 → ∀ v, v.testBit 0 = false → Runs (.clvEnable n v) s (fun t => t.on (F.CLVn_CTRL.ENABLE n) = false ∧
      t.rd (F.CLVn_CTRL.STATE n) = (if c.begun || c.stalled then 3 else 0) ∧
      (v.testBit 1 = true → t.on (F.CLVn_STATUS.CFG_REJECT n) = true) ∧
      t.reg (R.CLVn_SREG n) = u.reg (R.CLVn_SREG n) ∧ t.mem = s.mem ∧ t.cores = s.cores)) ∧
    (st = 1 → ∀ v, Runs (.clvEnable n v) s (fun t => t.rd (F.CLVn_CTRL.STATE n) = 1 ∧
      t.on (F.CLVn_CTRL.ENABLE n) = v.testBit 0 ∧ t.clvS n = c ∧
      (v.testBit 1 = true → t.on (F.CLVn_STATUS.CFG_REJECT n) = true) ∧ t.mem = s.mem ∧ t.cores = s.cores)) ∧
    (st = 0 →
      (∀ v, v.testBit 0 = true → Runs (.clvEnable n v) s (fun t => t.on (F.CLVn_CTRL.ENABLE n) = true ∧
        t.rd (F.CLVn_CTRL.STATE n) = 1 ∧ (t.clvS n).begun = false ∧ (t.clvS n).cycAt = u.now + 6 ∧
        (t.clvS n).acc = 0 ∧ t.rd (F.CLVn_CTRL.ENTRY n) = bitsOf v 8 5 ∧
        (v.testBit 1 = false → (t.clvS n).tx = c.tx ∧ t.reg (R.CLVn_SREG n) = u.reg (R.CLVn_SREG n)) ∧
        (v.testBit 1 = true → (t.clvS n).tx = [] ∧ t.reg (R.CLVn_SREG n) = bitsOf v 8 5) ∧ t.mem = s.mem ∧
        t.cores = s.cores)) ∧
      Runs (.clvRestart n) s (fun t => t.rd (F.CLVn_SREG.STATE n) = u.rd (F.CLVn_CTRL.ENTRY n) ∧
        t.rd (F.CLVn_SREG.TXLEFT n) = 0 ∧ t.rd (F.CLVn_SREG.RXFILL n) = 0 ∧ t.rd (F.CLVn_TXSH.TXSH n) = 0 ∧
        t.rd (F.CLVn_RXSH.RXSH n) = 0 ∧ t.rd (F.CLVn_STALL_CNT.LC n) = 0 ∧ t.on (F.CLVn_STATUS.TRIG_PEND n) = false ∧
        t.on (F.CLVn_STATUS.TRIG_OVR n) = false ∧ (t.clvS n).tx = [] ∧ (t.clvS n).rx = [] ∧ (t.clvS n).acc = 0 ∧
        (t.clvS n).outv = c.outv ∧ t.mem = s.mem ∧ t.cores = s.cores) ∧
      (∀ i v, i < 32 → v < 2 ^ 32 →
        Runs (.clvProgWrite n i false v) s (fun t => t.reg (R.CLVn_PROGi_LO n i) = v ∧ t.clv = u.clv ∧ t.mem = s.mem ∧
          t.cores = s.cores ∧ RegsKept u t [R.CLVn_PROGi_LO n i]) ∧
        Runs (.clvProgWrite n i true v) s (fun t => t.reg (R.CLVn_PROGi_HI n i) = v ∧ t.clv = u.clv ∧ t.mem = s.mem ∧
          t.cores = s.cores ∧ RegsKept u t [R.CLVn_PROGi_HI n i]))) ∧
    (st ≠ 0 →
      Leaves (.clvRestart n) s (u.wr (F.CLVn_STATUS.CFG_REJECT n) 1) ∧
      (∀ i hi v, Leaves (.clvProgWrite n i hi v) s (u.wr (F.CLVn_STATUS.PROG_BUSY n) 1))) ∧
    (∀ v, c.tx.length < 4 ∨ (c.tx.length = 4 ∧ u.fetchDue n = true) → Runs (.clvTxdata n v) s (fun t =>
      (t.clvS n).tx = c.tx ++ [v % 2 ^ 32] ∧ t.rd (F.CLVn_STATUS.TXLVL n) = min 4 (c.tx.length + 1) ∧
      (t.clvS n).rx = c.rx ∧ t.mem = s.mem ∧ t.cores = s.cores ∧ RegsKept u t [R.CLVn_STATUS n])) ∧
    (∀ v, 4 < c.tx.length ∨ (c.tx.length = 4 ∧ u.fetchDue n = false) →
      Leaves (.clvTxdata n v) s (u.wr (F.CLVn_STATUS.TX_OVR n) 1)) ∧
    (∀ v q, (s.clvS n).rx = v :: q →
      Leaves (.clvRxdataRead n false) s { s with rdata := v } ∧
      ((s.clvS n).stalled = false ∨ (s.clvS n).cycAt / 3 ≠ s.now / 3 ∨ clvOp (s.clvWord n) ≠ 4 →
        Runs (.clvRxdataRead n true) s (fun t => t.rdata = v ∧ (t.clvS n).rx = q ∧ (t.clvS n).tx = (s.clvS n).tx ∧
          t.mem = s.mem ∧ t.cores = s.cores ∧ RegsKept s t [R.CLVn_STATUS n])) ∧
      ((s.clvS n).stalled = true → (s.clvS n).cycAt / 3 = s.now / 3 → clvOp (s.clvWord n) = 4 →
        (s.clvS n).begun = false → s.rd (F.CLVn_CTRL.STATE n) = 2 ∨ s.rd (F.CLVn_CTRL.STATE n) = 3 → q.length < 4 →
        Runs (.clvRxdataRead n true) s (fun t => t.rdata = v ∧
          (t.clvS n).rx = q ++ [s.rd (F.CLVn_RXSH.RXSH n)] ∧ (t.clvS n).stalled = false ∧ (t.clvS n).begun = true ∧
          t.mem = s.mem ∧ t.cores = s.cores))) ∧
    ((s.clvS n).rx = [] → Leaves (.clvRxdataRead n false) s { s with rdata := 0 } ∧
      Leaves (.clvRxdataRead n true) s { s.wr (F.CLVn_STATUS.RX_UNDER n) 1 with rdata := 0 }) ∧
    (s.slcTake 3 n = none → Leaves (.clvTrigger n) s s) ∧
    (∀ t0 x, s.slcTake 3 n = some (t0, x) → let y := (x.reach t0).clvFollow n
      let clears := y.clvEnds n && (bitsOf (y.clvWord n) 20 4 == 13 || bitsOf (y.clvWord n) 24 4 == 13) && y.trigNow n == none
      let pend := y.on (F.CLVn_STATUS.TRIG_PEND n)
      (y.rd (F.CLVn_CTRL.STATE n) = 0 → Leaves (.clvTrigger n) s y) ∧
      (y.rd (F.CLVn_CTRL.STATE n) ≠ 0 → Runs (.clvTrigger n) s (fun t =>
        t.on (F.CLVn_STATUS.TRIG_PEND n) = true ∧ t.now = max s.now t0 ∧
        (pend = true → clears = false → t.on (F.CLVn_STATUS.TRIG_OVR n) = true ∧ t.clv = y.clv) ∧
        (pend = false ∨ clears = true → t.on (F.CLVn_STATUS.TRIG_OVR n) = s.on (F.CLVn_STATUS.TRIG_OVR n) ∧
          t.clvS n = { y.clvS n with trig := some (t.now / 3, pend) }) ∧
        t.mem = s.mem ∧ t.cores = s.cores ∧ RegsKept y t [R.CLVn_STATUS n])))

/-- Timers (R404-R414). A timer in STARTING or STOPPING goes on after 2 or 1 PCLK (`tmrFollow`). The marks of an earlier
count clock are applied first, the period event ahead of the matches. A count clock of a running timer that is not
frozen steps COUNT, to 0 from PERIOD on, and marks a period event and the matching compare units; one in the cycle
of a clear is discarded with all of these. The period event and matches set their flags; a one-shot stops. Captures
load COUNT; WIDTH takes the width counter. COUNT and PRE are written only while OFF; PERIOD and compare pairs apply
on the write of HI. Reads of LO latch HI; a read in the cycle of a capture returns the value before it. The task
input clears or enables. -/
def Obligations.TimerCommands : Prop :=
  ∀ (s : State) (n : Nat), n < 16 →
    let w := s.tmrFollow n
    (s.now < (s.tmrS n).moveAt ∨ s.tmrState n = 0 ∨ s.tmrState n = 2 → w = s) ∧
    ((s.tmrS n).moveAt ≤ s.now → s.tmrState n = 1 → s.on (F.TMRn_CTRL.ENABLE n) = true →
    w = s.wr (F.TMRn_CTRL.STATE n) 2) ∧
    ((s.tmrS n).moveAt ≤ s.now → s.tmrState n = 3 → s.on (F.TMRn_CTRL.ENABLE n) = false →
    w = s.wr (F.TMRn_CTRL.STATE n) 0) ∧
    ((s.tmrS n).wrapped = false → (s.tmrS n).hit = 0 → s.tmrFlush n = s) ∧
    (let f := s.tmrFlush n
     let u := (if f.tmrState n = 1 then f.reach (f.tmrS n).moveAt else f).tmrFollow n
     let c := u.tmrS n
     (u.tmrState n ≠ 2 ∨ c.frozen.isSome = true → Leaves (.countClock n) s u) ∧
     (u.tmrState n = 2 → c.frozen = none → u.clearDue n c.nextAt = true → Leaves (.countClock n) s (u.reach c.nextAt)) ∧
     (u.tmrState n = 2 → c.frozen = none → u.clearDue n c.nextAt = false → Runs (.countClock n) s (fun t =>
       (t.tmrS n).count = (if c.period ≤ c.count then 0 else c.count + 1) ∧
       (t.tmrS n).wrapped = decide (c.period ≤ c.count) ∧
       (∀ k, k < 4 → (t.tmrS n).hit.testBit k = decide (Tbl.get 0 c.cmp k = (t.tmrS n).count)) ∧
       (t.tmrS n).nextAt = c.nextAt + u.tmrTick n ∧ t.now = max u.now c.nextAt ∧
       (t.tmrS n).width = (if c.armed then min 0xFFFFFFFF (c.width + 1) else c.width) ∧
       (t.tmrS n).clock = some (c.nextAt / 3, c.width) ∧
       (∀ m, m ≠ n → t.tmrS m = u.tmrS m) ∧ t.mem = s.mem ∧ t.cores = s.cores ∧ RegsKept u t []))) ∧
    ((s.tmrS n).wrapped = false → Leaves (.periodEvent n) s s) ∧
    ((s.tmrS n).wrapped = true → Runs (.periodEvent n) s (fun t => t.on (F.TMRn_STATUS.PERIOD n) = true ∧
      (t.tmrS n).wrapped = false ∧ (t.tmrS n).cmpBuf = [] ∧ (t.tmrS n).count = (s.tmrS n).count ∧
      (∀ k, k < 4 → (t.rd (F.TMRn_OUT.LVL n)).testBit k =
        actLevel (bitsOf (s.rd (F.TMRn_OUT.PACT n)) (2 * k) 2) ((s.rd (F.TMRn_OUT.LVL n)).testBit k)) ∧
      (s.on (F.TMRn_CTRL.ONESHOT n) = true → t.on (F.TMRn_CTRL.ENABLE n) = false ∧ t.tmrState n = 3 ∧
        (t.tmrS n).moveAt = s.now + 3) ∧
      (s.on (F.TMRn_CTRL.ONESHOT n) = false → t.on (F.TMRn_CTRL.ENABLE n) = s.on (F.TMRn_CTRL.ENABLE n) ∧
        t.tmrState n = s.tmrState n) ∧
      (∀ m, m ≠ n → t.tmrS m = s.tmrS m) ∧ t.mem = s.mem ∧ t.cores = s.cores)) ∧
    (∀ k, k < 4 → (s.tmrS n).hit.testBit k = false → Leaves (.compareMatch n k) s s) ∧
    (∀ k, k < 4 → (s.tmrS n).hit.testBit k = true → let p := s.tmrPeriod n
      Runs (.compareMatch n k) s (fun t =>
      (t.rd (F.TMRn_STATUS.CMP n)).testBit k = true ∧ (t.tmrS n).hit.testBit k = false ∧ (t.tmrS n).wrapped = false ∧
      (t.tmrS n).count = (s.tmrS n).count ∧
      (∀ j, j < 4 → (t.rd (F.TMRn_OUT.LVL n)).testBit j = if j = k
        then actLevel (bitsOf (p.rd (F.TMRn_OUT.ACT n)) (2 * k) 2) ((p.rd (F.TMRn_OUT.LVL n)).testBit k)
        else (p.rd (F.TMRn_OUT.LVL n)).testBit j) ∧
      (∀ m, m ≠ n → t.tmrS m = s.tmrS m) ∧ t.mem = s.mem ∧ t.cores = s.cores)) ∧
    (let w := s.pinsDue.tmrFollow n
    (w.capOn n = false ∨ w.capNow n = false ∨ (w.tmrS n).capLevel = true → Leaves (.captureRise n) s w) ∧
    (w.capOn n = false ∨ w.capNow n = true ∨ (w.tmrS n).capLevel = false → Leaves (.captureFall n) s w) ∧
    (w.capOn n = true → w.capNow n = true → (w.tmrS n).capLevel = false → Runs (.captureRise n) s (fun t =>
      (t.tmrS n).capr = (w.tmrS n).count ∧ (t.tmrS n).width = 0 ∧ (t.tmrS n).armed = true ∧
      (t.tmrS n).count = (w.tmrS n).count ∧ t.on (F.TMRn_STATUS.CAPTURED_R n) = true ∧
      (w.on (F.TMRn_STATUS.CAPTURED_R n) = true → t.on (F.TMRn_STATUS.OVR_R n) = true) ∧ t.mem = s.mem ∧
      t.cores = s.cores ∧ RegsKept w t [R.TMRn_STATUS n])) ∧
    (w.capOn n = true → w.capNow n = false → (w.tmrS n).capLevel = true → Runs (.captureFall n) s (fun t =>
      (t.tmrS n).capf = (w.tmrS n).count ∧ (t.tmrS n).armed = false ∧ (t.tmrS n).count = (w.tmrS n).count ∧
      t.rd (F.TMRn_WIDTH.WIDTH n) = (if (w.tmrS n).armed then (w.tmrS n).width % 2 ^ 32 else w.rd (F.TMRn_WIDTH.WIDTH n)) ∧
      t.on (F.TMRn_STATUS.CAPTURED_F n) = true ∧
      (w.on (F.TMRn_STATUS.CAPTURED_F n) = true → t.on (F.TMRn_STATUS.OVR_F n) = true) ∧ t.mem = s.mem ∧
      t.cores = s.cores ∧ RegsKept w t [R.TMRn_STATUS n, R.TMRn_WIDTH n]))) ∧
    (s.slcTake 2 n = none ∨ s.rd (F.TMRn_TASK.ACTION n) = 2 → Leaves (.tmrTaskClear n) s s) ∧
    (s.slcTake 2 n = none ∨ s.rd (F.TMRn_TASK.ACTION n) ≠ 2 → Leaves (.tmrTaskEnable n) s s) ∧
    (∀ t0 x, s.slcTake 2 n = some (t0, x) → let y := (x.reach t0).tmrFollow n
      (s.rd (F.TMRn_TASK.ACTION n) = 1 → Runs (.tmrTaskClear n) s (fun t => (t.tmrS n).count = 0 ∧
        t.now = max s.now t0 ∧ (t.tmrS n).nextAt = max y.now (y.tmrS n).moveAt + y.tmrTick n ∧
        (∀ p v, (y.tmrS n).clock = some (p, v) → p = t0 / 3 →
          (t.tmrS n).wrapped = false ∧ (t.tmrS n).hit = 0 ∧ (t.tmrS n).width = v) ∧
        ((∀ p v, (y.tmrS n).clock = some (p, v) → p ≠ t0 / 3) → (t.tmrS n).wrapped = (y.tmrS n).wrapped ∧
          (t.tmrS n).hit = (y.tmrS n).hit ∧ (t.tmrS n).width = (y.tmrS n).width) ∧ t.mem = s.mem ∧ t.cores = s.cores ∧
        RegsKept y t [])) ∧
      (s.rd (F.TMRn_TASK.ACTION n) ≠ 1 → s.rd (F.TMRn_TASK.ACTION n) ≠ 2 → Leaves (.tmrTaskClear n) s y) ∧
      (s.rd (F.TMRn_TASK.ACTION n) = 2 → (y.tmrS n).shot ≠ some (y.now / 3) → Runs (.tmrTaskEnable n) s (fun t =>
        t.on (F.TMRn_CTRL.ENABLE n) = true ∧ t.tmrState n = (if y.tmrState n = 0 then 1 else y.tmrState n) ∧
        t.now = max s.now t0 ∧ t.mem = s.mem ∧ t.cores = s.cores)) ∧
      (s.rd (F.TMRn_TASK.ACTION n) = 2 → (y.tmrS n).shot = some (y.now / 3) → Runs (.tmrTaskEnable n) s (fun t =>
        t.on (F.TMRn_CTRL.ENABLE n) = false ∧ t.mem = s.mem ∧ t.cores = s.cores))) ∧
    (w.tmrState n = 0 →
      (∀ v, v < 2 ^ 32 → Runs (.countHiWrite n v) s (fun t => (t.tmrS n).count = v * 2 ^ 32 + (w.tmrS n).countHold ∧
        (∀ m, m ≠ n → t.tmrS m = s.tmrS m) ∧ t.mem = s.mem ∧ t.cores = s.cores ∧ RegsKept w t [])) ∧
      (∀ v, v.testBit 0 = true → (w.tmrS n).shot ≠ some (w.now / 3) → Runs (.tmrEnable n v) s (fun t =>
        t.on (F.TMRn_CTRL.ENABLE n) = true ∧ t.tmrState n = 1 ∧ (t.tmrS n).moveAt = s.now + 6 ∧
        t.rd (F.TMRn_CTRL.PRE n) = bitsOf v 4 4 ∧ (t.tmrS n).count = (w.tmrS n).count ∧ t.mem = s.mem ∧
        t.cores = s.cores)) ∧
      (∀ v, v.testBit 0 = false ∨ (w.tmrS n).shot = some (w.now / 3) → Runs (.tmrEnable n v) s (fun t =>
        t.on (F.TMRn_CTRL.ENABLE n) = false ∧ t.tmrState n = 0 ∧ t.rd (F.TMRn_CTRL.PRE n) = bitsOf v 4 4 ∧
        (t.tmrS n).count = (w.tmrS n).count ∧ t.mem = s.mem ∧ t.cores = s.cores))) ∧
    (w.tmrState n ≠ 0 →
      (∀ v, Leaves (.countHiWrite n v) s (w.wr (F.TMRn_STATUS.CFG_REJECT n) 1)) ∧
      (∀ v, v.testBit 0 = true → (w.tmrS n).shot ≠ some (w.now / 3) → Runs (.tmrEnable n v) s (fun t =>
        t.rd (F.TMRn_CTRL.PRE n) = w.rd (F.TMRn_CTRL.PRE n) ∧
        (bitsOf v 4 4 ≠ w.rd (F.TMRn_CTRL.PRE n) → t.on (F.TMRn_STATUS.CFG_REJECT n) = true) ∧
        t.tmrState n = w.tmrState n ∧ t.mem = s.mem ∧ t.cores = s.cores))) ∧
    (w.tmrState n = 2 → ∀ v, v.testBit 0 = false → Runs (.tmrEnable n v) s (fun t =>
      t.on (F.TMRn_CTRL.ENABLE n) = false ∧ t.tmrState n = 3 ∧ (t.tmrS n).moveAt = s.now + 3 ∧
      (t.tmrS n).count = (w.tmrS n).count ∧ t.mem = s.mem ∧ t.cores = s.cores)) ∧
    (∀ v, v < 2 ^ 32 → Runs (.periodHiWrite n v) s (fun t =>
      (t.tmrS n).period = s.rd (F.TMRn_PERIOD_LO.PERIOD_LO n) + v * 2 ^ 32 ∧ (t.tmrS n).count = (s.tmrS n).count ∧
      (∀ m, m ≠ n → t.tmrS m = s.tmrS m) ∧ t.mem = s.mem ∧ t.cores = s.cores ∧ RegsKept s t [R.TMRn_PERIOD_HI n])) ∧
    (∀ k v, k < 4 → v < 2 ^ 32 → Runs (.cmpHiWrite n k v) s (fun t =>
      (s.on (F.TMRn_CTRL.CMP_BUF n) = false →
        Tbl.get 0 (t.tmrS n).cmp k = s.rd (F.TMRn_CMPk_LO.CMP_LO n k) + v * 2 ^ 32 ∧
        (t.tmrS n).cmpBuf = (s.tmrS n).cmpBuf.del k) ∧
      (s.on (F.TMRn_CTRL.CMP_BUF n) = true → (t.tmrS n).cmp = (s.tmrS n).cmp ∧
        Tbl.find (t.tmrS n).cmpBuf k = some (s.rd (F.TMRn_CMPk_LO.CMP_LO n k) + v * 2 ^ 32)) ∧
      (∀ m, m ≠ n → t.tmrS m = s.tmrS m) ∧ t.mem = s.mem ∧ t.cores = s.cores ∧ RegsKept s t [R.TMRn_CMPk_HI n k])) ∧
    Runs (.countLoRead n) s (fun t => t.rdata = (s.tmrS n).count % 2 ^ 32 ∧
      (t.tmrS n).countLatch = (s.tmrS n).count / 2 ^ 32 % 2 ^ 32 ∧ (t.tmrS n).count = (s.tmrS n).count ∧ t.mem = s.mem ∧
      t.cores = s.cores ∧ RegsKept s t []) ∧
    (s.capOld (s.tmrS n).capROld = none → Runs (.caprLoRead n) s (fun t => t.rdata = (s.tmrS n).capr % 2 ^ 32 ∧
      (t.tmrS n).caprLatch = (s.tmrS n).capr / 2 ^ 32 % 2 ^ 32 ∧ t.on (F.TMRn_STATUS.CAPTURED_R n) = false ∧
      t.mem = s.mem ∧ t.cores = s.cores ∧ RegsKept s t [R.TMRn_STATUS n])) ∧
    (∀ c un ov, s.capOld (s.tmrS n).capROld = some (c, un, ov) → Runs (.caprLoRead n) s (fun t => t.rdata = c % 2 ^ 32 ∧
      (t.tmrS n).caprLatch = c / 2 ^ 32 % 2 ^ 32 ∧ (t.tmrS n).capr = (s.tmrS n).capr ∧
      t.on (F.TMRn_STATUS.CAPTURED_R n) = s.on (F.TMRn_STATUS.CAPTURED_R n) ∧
      t.on (F.TMRn_STATUS.OVR_R n) = (if un && !ov then false else s.on (F.TMRn_STATUS.OVR_R n)) ∧ t.mem = s.mem ∧
      t.cores = s.cores ∧
      RegsKept s t [R.TMRn_STATUS n])) ∧
    (s.capOld (s.tmrS n).capFOld = none → Runs (.capfLoRead n) s (fun t => t.rdata = (s.tmrS n).capf % 2 ^ 32 ∧
      (t.tmrS n).capfLatch = (s.tmrS n).capf / 2 ^ 32 % 2 ^ 32 ∧ t.on (F.TMRn_STATUS.CAPTURED_F n) = false ∧
      t.mem = s.mem ∧ t.cores = s.cores ∧ RegsKept s t [R.TMRn_STATUS n])) ∧
    (∀ c un ov, s.capOld (s.tmrS n).capFOld = some (c, un, ov) → Runs (.capfLoRead n) s (fun t => t.rdata = c % 2 ^ 32 ∧
      (t.tmrS n).capfLatch = c / 2 ^ 32 % 2 ^ 32 ∧ (t.tmrS n).capf = (s.tmrS n).capf ∧
      t.on (F.TMRn_STATUS.CAPTURED_F n) = s.on (F.TMRn_STATUS.CAPTURED_F n) ∧
      t.on (F.TMRn_STATUS.OVR_F n) = (if un && !ov then false else s.on (F.TMRn_STATUS.OVR_F n)) ∧ t.mem = s.mem ∧
      t.cores = s.cores ∧
      RegsKept s t [R.TMRn_STATUS n]))

/-- The session commands of the mailbox (R430-R434, R436, R480, R481), no close being outstanding. A command that is not
at the head of the mailbox's order, or has another CODE, does not run. LEN above 1,008 gives RESULT LEN; a tagged
command that fails a check, and an untagged one that must be tagged, gives its STATUS and has no other effect.
NONCE_REQ issues 48 bytes and keeps at most 4 nonces; OPEN checks nonce, key and privilege in that order, uses the
nonce up, and asks for the signature's verification, which, where it fails or no slot is free, refuses the OPEN, and
else makes the device's key pair; the sign unit agrees on the key and signs; PING and CLOSE answer OK, and CLOSE
closes the session; ATTEST hands the report to the sign unit, whose end answers it; the response to an OPEN opens
the session, which closes at once where Standby has ended it. -/
def Obligations.SessionCommands : Prop :=
  ∀ (s : State) (k : Nat), k < 8 → s.sec.closing = [] →
    (∀ c code priv, (c, code, priv) ∈ [(Instr.nonceReq k, 0x01, 0), (.open k, 0x02, 0), (.close k, 0x10, 1),
      (.ping k, 0x11, 1),
        (.attest k, 0x12, 0), (.otpProgram k, 0x13, 3), (.otpRevoke k, 0x14, 3), (.rollback k, 0x15, 3),
          (.provision k, 0x20, 0)] →
      (s.mbNext ≠ some k ∨ s.mbCode k ≠ code → Leaves c s s) ∧
      (s.mbNext = some k → s.mbCode k = code → 1008 < s.mbLen k →
      Runs c s (fun t => t.mbBytes k 4 4 = [1#8, 0#8, 0#8, 0#8] ∧
        t.slotSt k = (if s.on (F.HST_CQq_CFG.EN (s.mbQueue k)) then 2 else 3) ∧ t.sec = s.sec ∧ t.mem = s.mem ∧
        t.cores = s.cores)) ∧
      (∀ st i, s.tagCheck k priv = .inl (st, i) → s.mbNext = some k → s.mbCode k = code → s.mbLen k ≤ 1008 →
        s.mbTagged k = true → Runs c s (fun t => s.Answered t k (s.envelope k i [BitVec.ofNat 8 st]) ∧
          { t.sec with authFaultT := s.sec.authFaultT } = s.sec ∧
          (∀ j, j < 4 → t.reg (R.SEC_SESSs_CTRL j) = s.reg (R.SEC_SESSs_CTRL j) ∧
            t.reg (R.SEC_SESSs_SEQ j) = s.reg (R.SEC_SESSs_SEQ j)))) ∧
      (s.mbNext = some k → s.mbCode k = code → s.mbLen k ≤ 1008 → s.mbTagged k = false →
        code ∈ [0x10, 0x11, 0x13, 0x14, 0x15] → Runs c s (fun t => s.Answered t k [6#8] ∧ t.sec = s.sec))) ∧
    (s.mbNext = some k → s.mbLen k ≤ 1008 → s.mbTagged k = false →
      (s.mbCode k = 0x01 → s.sec.trngBad = true → Runs (.nonceReq k) s (fun t => s.Answered t k [10#8] ∧
        t.sec.nonces = s.sec.nonces)) ∧
      (s.mbCode k = 0x01 → s.sec.trngBad = false → Runs (.nonceReq k) s (fun t => ∃ n : List Byte, n.length = 48 ∧
        s.Answered t k ([0#8, 0#8, 0#8, 0#8] ++ n) ∧
        t.sec.nonces = (if 4 ≤ s.sec.nonces.length then s.sec.nonces.drop 1 else s.sec.nonces) ++ [(n, s.now)])) ∧
      (s.mbCode k = 0x02 →
        let b := s.mbBytes k 0x10 248
        let priv := leAt b 0x30 1
        let key := leAt b 0x31 1
        let left := s.sec.nonces.filter (fun e => e.1 != b.take 48)
        ((∀ e ∈ s.sec.nonces, e.1 = b.take 48 → e.2 + s.nonceTtl ≤ s.now) → Runs (.open k) s (fun t =>
          s.Answered t k (openFail 1) ∧ t.sec.nonces = s.sec.nonces ∧ t.sec.opening = s.sec.opening)) ∧
        ((∃ e ∈ s.sec.nonces, e.1 = b.take 48 ∧ s.now < e.2 + s.nonceTtl) →
          (s.sec.operators[key]? = none → Runs (.open k) s (fun t => s.Answered t k (openFail 2) ∧
          t.sec.nonces = left)) ∧
          (∀ op, s.sec.operators[key]? = some op → priv = 0 ∨ 3 < priv ∨ op.2 < priv → Runs (.open k) s (fun t =>
            s.Answered t k (openFail 3) ∧ t.sec.nonces = left)) ∧
          (∀ op, s.sec.operators[key]? = some op → 1 ≤ priv → priv ≤ 3 → priv ≤ op.2 → Runs (.open k) s (fun t =>
            t.sec.nonces = left ∧ t.hst.exec = some k ∧ t.slotSt k = 2 ∧
            (∃ o, t.sec.opening = some o ∧ o.nonce = b.take 48 ∧ o.priv = priv ∧ o.keyIdx = key ∧
              o.epk = (b.drop 0x34).take 97) ∧
            VerJob.session k ∈ t.sec.verRun.map Prod.fst ++ t.sec.verQ ∧ t.mem = s.mem ∧ t.cores = s.cores)))) ∧
      (s.mbCode k = 0x12 → Runs (.attest k) s (fun t => t.sec.signJob = some (.attest k) ∧
      t.sec.signT = s.now + 300000 ∧
        t.sec.report = s.attestReport (s.mbBytes k 0x10 48) ∧ t.hst.exec = some k ∧ t.slotSt k = 2 ∧ t.mem = s.mem ∧
        t.cores = s.cores))) ∧
    (∀ i, s.tagCheck k 1 = .inr i → s.mbNext = some k → s.mbLen k ≤ 1008 → s.mbTagged k = true →
      (s.mbCode k = 0x11 → Runs (.ping k) s (fun t => s.Answered t k (s.envelope k (some i) [0#8]) ∧
        t.rd (F.SEC_SESSs_SEQ.SEQ i) = leVal (s.mbBytes k 0x14 4) ∧
        (∀ j, j < 4 → t.reg (R.SEC_SESSs_CTRL j) = s.reg (R.SEC_SESSs_CTRL j) ∧
          (j ≠ i → t.reg (R.SEC_SESSs_SEQ j) = s.reg (R.SEC_SESSs_SEQ j))))) ∧
      (s.mbCode k = 0x10 → Runs (.close k) s (fun t => s.Answered t k (s.envelope k (some i) [0#8]) ∧
        t.on (F.SEC_SESSs_CTRL.OPEN i) = false ∧ t.rd (F.SEC_SESSs_SID.SID i) = 0 ∧ t.on F.SEC_STATUS.SESS_EVT = true ∧
        (∀ j, j < 4 → j ≠ i → t.reg (R.SEC_SESSs_CTRL j) = s.reg (R.SEC_SESSs_CTRL j))))) ∧
    (s.sec.signJob = some (.attest k) → s.sec.report.length = 288 → Runs .signDone s (fun t => ∃ sig : List Byte,
      sig.length = 96 ∧ s.Answered t k (s.envelope k s.sec.busy ([0#8, 0#8, 0#8, 0#8] ++ s.sec.report ++ sig)) ∧
      t.sec.signJob = none ∧ t.now = max s.now s.sec.signT)) ∧
    (∀ o op t0 rest, s.sec.verRun = (.session k, t0) :: rest → s.sec.opening = some o → s.sec.busy = none →
      s.sec.operators[o.keyIdx]? = some op →
      let b := s.mbBytes k (s.mbBody k) 248
      let ok := ecVerify op.1 (sha384 (b.take 0x98 ++ leBytes 8 s.sec.devId)) (b.drop 0x98)
      (ok = false → Runs .verifyDone s (fun t => s.Answered t k (openFail 4) ∧ t.sec.opening = none ∧
      t.now = max s.now t0)) ∧
      (ok = true → (∀ j, j < 4 → s.on (F.SEC_SESSs_CTRL.OPEN j) = true) → Runs .verifyDone s (fun t =>
        s.Answered t k (openFail 5) ∧ t.sec.opening = none ∧ t.now = max s.now t0)) ∧
      (∀ j, ok = true → j < 4 → s.on (F.SEC_SESSs_CTRL.OPEN j) = false → s.sec.trngBad = false →
      Runs .verifyDone s (fun t =>
        t.now = max s.now t0 ∧ t.sec.signJob = some (.ecdh k) ∧ t.sec.signT = t.now + 300000 ∧
        (∃ sid d, 1 ≤ sid ∧ sid < 2 ^ 32 ∧ s.sessOf sid = none ∧ 1 ≤ d ∧ d < ecN ∧
          t.sec.opening = some { o with sid := sid, eph := d, devEpk := 4#8 :: ecPublic d }) ∧ t.mem = s.mem ∧
        t.cores = s.cores))) ∧
    (∀ o, s.sec.opening = some o → s.sec.signJob = some (.ecdh k) → Runs .signDone s (fun t =>
      t.now = max s.now s.sec.signT ∧ t.sec.signJob = some (.openRsp k) ∧ t.sec.signT = t.now + 300000 ∧
      t.sec.opening = some { o with z := beBytes 48 ((ecShared o.epk o.eph).getD (Config.badShare o.epk o.eph)) } ∧
      t.mem = s.mem ∧ t.cores = s.cores)) ∧
    (∀ o, s.sec.opening = some o → s.sec.signJob = some (.openRsp k) → s.sec.busy = none → o.devEpk.length = 97 →
      o.shut = true → (∃ j, j < 4 ∧ s.on (F.SEC_SESSs_CTRL.OPEN j) = false) → Runs .signDone s (fun t =>
        (∃ sig : List Byte, sig.length = 96 ∧ s.Answered t k (o.head ++ sig)) ∧ t.sec.opening = none ∧
        (∀ j, j < 4 → t.on (F.SEC_SESSs_CTRL.OPEN j) = s.on (F.SEC_SESSs_CTRL.OPEN j)))) ∧
    (∀ o, s.sec.opening = some o → s.sec.signJob = some (.openRsp k) → s.sec.busy = none → o.devEpk.length = 97 →
      o.shut = false → o.priv ≤ 3 → o.keyIdx < 8 → o.sid < 2 ^ 32 →
      ∀ j, (List.range 4).find? (fun j => !s.on (F.SEC_SESSs_CTRL.OPEN j)) = some j →
      Runs .signDone s (fun t => (∃ sig : List Byte, sig.length = 96 ∧ s.Answered t k (o.head ++ sig)) ∧
        t.on (F.SEC_SESSs_CTRL.OPEN j) = true ∧ t.rd (F.SEC_SESSs_CTRL.PRIV j) = o.priv ∧
        t.rd (F.SEC_SESSs_CTRL.KEYIDX j) = o.keyIdx ∧ t.rd (F.SEC_SESSs_SID.SID j) = o.sid ∧
        t.rd (F.SEC_SESSs_SEQ.SEQ j) = 0 ∧ Tbl.get [] t.sec.keys j = sha384 (o.z ++ o.nonce) ∧ t.sec.opening = none ∧
        t.on F.SEC_STATUS.SESS_EVT = true)) ∧
    (∀ i, i < 4 →
      (s.on (F.SEC_SESSs_CTRL.OPEN i) = false ∨ s.sec.busy = some i → Leaves (.sessionTimeout i) s s) ∧
      (s.on (F.SEC_SESSs_CTRL.OPEN i) = true → s.sec.busy ≠ some i →
        (∀ c tm, (c, tm) ∈ [(Instr.sessionTimeout i, max s.now (Tbl.get 0 s.sec.idleT i + s.sessTimeout)),
          (.sessClose i, s.now)] →
          Runs c s (fun t => t.on (F.SEC_SESSs_CTRL.OPEN i) = false ∧
          t.rd (F.SEC_SESSs_SID.SID i) = 0 ∧ t.on F.SEC_STATUS.SESS_EVT = true ∧
          t.now = tm ∧
          (∀ j, j < 4 → j ≠ i → t.reg (R.SEC_SESSs_CTRL j) = s.reg (R.SEC_SESSs_CTRL j)) ∧ t.sec.nonces = s.sec.nonces ∧
          t.mem = s.mem ∧ t.cores = s.cores))) ∧
      (s.sec.busy = some i → Leaves (.sessClose i) s { s with sec := { s.sec with closing := [i] } }) ∧
      (s.on (F.SEC_SESSs_CTRL.OPEN i) = false → s.sec.busy ≠ some i → Leaves (.sessClose i) s s)) ∧
    (s.sec.nonces = [] → Leaves .nonceExpire s s) ∧
    (∀ n rest, s.sec.nonces = n :: rest → Leaves .nonceExpire s
      { s with now := max s.now (n.2 + s.nonceTtl), sec := { s.sec with nonces := rest } }) ∧
    (s.sec.signJob = none → Leaves .signDone s s)

/-- OTP and the TRNG (R419, R420, R422-R425). A slot is refused a hash that lacks a bit it holds; a revocation is
refused where it would leave no usable slot; PROVISION is refused once a slot is programmed: each answers FAIL and
sets OTP_ERR. Otherwise the operation is under way, or done at once where no bit is left. ADVANCE is taken from
C0-C3 only. A bit programmed reads 1, and no bit that reads 1 reads 0 again; a failure programs nothing. A failure
of the TRNG is fault 0x3C; it retests 100 ms later. -/
def Obligations.OtpAndTrng : Prop :=
  ∀ s : State, s.sec.closing = [] →
    (∀ k, k < 8 → ∀ i, s.tagCheck k 3 = .inr i → s.mbNext = some k → s.mbLen k ≤ 1008 → s.mbTagged k = true →
      (s.mbCode k = 0x13 →
        let b := s.mbBytes k 0x30 52
        let n := leAt b 0 1
        let h := beVal (b.drop 4)
        (4 ≤ n ∨ s.otpHash n &&& h ≠ s.otpHash n → Runs (.otpProgram k) s (fun t =>
          s.Answered t k (s.envelope k (some i) [11#8]) ∧ t.on F.SEC_STATUS.OTP_ERR = true ∧
          t.sec.otpHash = s.sec.otpHash ∧
          t.sec.ops = s.sec.ops)) ∧
        (n < 4 → s.otpHash n &&& h = s.otpHash n → s.sec.ops = [] →
          (s.otpNext { item := n, val := h }).isSome = true → Runs (.otpProgram k) s (fun t =>
            t.sec.ops = [{ item := n, val := h, slot := some k }] ∧ t.sec.opT = s.now ∧ t.hst.exec = some k ∧
            t.sec.otpHash = s.sec.otpHash ∧ t.mem = s.mem ∧ t.cores = s.cores))) ∧
      (s.mbCode k = 0x14 →
        let n := leAt (s.mbBytes k 0x30 1) 0 1
        (4 ≤ n ∨ (∀ j, j < 4 → j ≠ n → s.usable j = false) → Runs (.otpRevoke k) s (fun t =>
          s.Answered t k (s.envelope k (some i) [11#8]) ∧ t.on F.SEC_STATUS.OTP_ERR = true ∧
          t.sec.revoked = s.sec.revoked ∧
          t.sec.ops = s.sec.ops)) ∧
        (∀ j, n < 4 → j < 4 → j ≠ n → s.usable j = true → s.sec.revoked.testBit n = false → s.sec.ops = [] →
          Runs (.otpRevoke k) s (fun t => t.sec.ops = [{ item := 4, val := n, slot := some k }] ∧ t.sec.opT = s.now ∧
            t.hst.exec = some k ∧ t.sec.revoked = s.sec.revoked ∧ t.mem = s.mem ∧ t.cores = s.cores))) ∧
      (s.mbCode k = 0x15 → s.sec.ops = [] →
        (s.rd F.SEC_OTP.SVN ≤ ones64 s.sec.counter → Runs (.rollback k) s (fun t =>
          s.Answered t k (s.envelope k (some i) [0#8, BitVec.ofNat 8 (ones64 s.sec.counter)]) ∧
          t.on F.SEC_STATUS.OTP_DONE = true ∧ t.sec.counter = s.sec.counter ∧ t.sec.ops = [])) ∧
        (ones64 s.sec.counter < s.rd F.SEC_OTP.SVN → ones64 s.sec.counter < 64 → Runs (.rollback k) s (fun t =>
          t.sec.ops = [{ item := 5, val := s.rd F.SEC_OTP.SVN, slot := some k }] ∧ t.hst.exec = some k ∧
          t.sec.counter = s.sec.counter ∧ t.mem = s.mem ∧ t.cores = s.cores)))) ∧
    (∀ k, k < 8 → s.mbNext = some k → s.mbLen k ≤ 1008 → s.mbTagged k = false → s.mbCode k = 0x20 →
      (s.provisioned = true → Runs (.provision k) s (fun t => s.Answered t k [11#8] ∧ t.on F.SEC_STATUS.OTP_ERR = true ∧
        t.sec.otpHash = s.sec.otpHash)) ∧
      (s.provisioned = false → s.sec.ops = [] →
        let b := s.mbBytes k 0x10 52
        leAt b 0 1 < 4 → (s.otpNext { item := leAt b 0 1, val := beVal (b.drop 4) }).isSome = true →
        Runs (.provision k) s (fun t => t.sec.ops = [{ item := leAt b 0 1, val := beVal (b.drop 4), slot := some k }] ∧
          t.sec.opT = s.now ∧ t.hst.exec = some k ∧ t.sec.otpHash = s.sec.otpHash ∧ t.mem = s.mem ∧
          t.cores = s.cores))) ∧
    (∀ r, r < 0x20 ∨ 0x23 < r → Leaves (.advance r) s (s.wr F.SEC_STATUS.DENIED 1)) ∧
    (∀ r, 0x20 ≤ r → r ≤ 0x23 → s.sec.ops = [] →
      (s.rd F.SEC_OTP.SVN ≤ ones64 s.sec.counter → Runs (.advance r) s (fun t => t.on F.SEC_STATUS.OTP_DONE = true ∧
        t.sec.ops = [] ∧ t.sec.counter = s.sec.counter ∧ t.mem = s.mem ∧ t.cores = s.cores)) ∧
      (ones64 s.sec.counter < s.rd F.SEC_OTP.SVN → ones64 s.sec.counter < 64 → Runs (.advance r) s (fun t =>
        t.sec.ops = [{ item := 5, val := s.rd F.SEC_OTP.SVN }] ∧ t.sec.opT = s.now ∧ t.sec.counter = s.sec.counter ∧
        t.mem = s.mem ∧ t.cores = s.cores))) ∧
    (∀ fails, s.sec.ops = [] → Leaves (.otpBitDone fails) s s) ∧
    (∀ o rest, s.sec.ops = o :: rest →
      Runs (.otpBitDone true) s (fun t => t.on F.SEC_STATUS.OTP_ERR = true ∧ t.sec.otpHash = s.sec.otpHash ∧
        t.sec.revoked = s.sec.revoked ∧ t.sec.counter = s.sec.counter ∧ t.now = max s.now (s.sec.opT + 60000) ∧
        t.mem = s.mem ∧ t.cores = s.cores) ∧
      (∀ b, s.otpNext o = some b → Runs (.otpBitDone false) s (fun t => t.now = max s.now (s.sec.opT + 60000) ∧
        (o.item < 4 → (t.otpHash o.item).testBit b = true ∧ (s.otpHash o.item).testBit b = false) ∧
        (o.item = 4 → t.sec.revoked.testBit b = true) ∧
        (4 < o.item → ones64 t.sec.counter = ones64 s.sec.counter + 1) ∧
        (∀ m j, (s.otpHash m).testBit j = true → (t.otpHash m).testBit j = true) ∧
        (∀ j, s.sec.revoked.testBit j = true → t.sec.revoked.testBit j = true) ∧
        (∀ j, s.sec.counter.testBit j = true → t.sec.counter.testBit j = true) ∧
        t.rd F.SEC_OTP.ROLLBACK = ones64 t.sec.counter ∧ t.mem = s.mem ∧ t.cores = s.cores))) ∧
    (s.sec.trngBad = true → Leaves .trngFail s s) ∧
    (s.sec.trngBad = false → Runs .trngFail s (fun t => t.sec.trngBad = true ∧ t.sec.retestAt = s.now + 60000000 ∧
      t.on F.SEC_STATUS.TRNG_FAIL = true ∧
      (s.Calm → t.rd (F.FLT_SRCs_CNT.COUNT 0x3C) = min 255 (s.rd (F.FLT_SRCs_CNT.COUNT 0x3C) + 1)) ∧
      RegsKept s t [R.SEC_STATUS] ∧ t.mem = s.mem ∧ t.cores = s.cores)) ∧
    (∀ pass, s.sec.trngBad = false → Leaves (.trngRetest pass) s s) ∧
    (s.sec.trngBad = true →
      Leaves (.trngRetest false) s { s with now := max s.now s.sec.retestAt, sec := { s.sec with
        retestAt := max s.now s.sec.retestAt + 60000000 } } ∧
      Runs (.trngRetest true) s (fun t => t.sec.trngBad = false ∧ t.now = max s.now s.sec.retestAt ∧ t.mem = s.mem ∧
        t.cores = s.cores))

/-- The boot and its lists (R423, R427, R437, R445, R446, R448, R449, R494, R502, R517). At PORST_N release XSPI_RST_N
rises after 50 µs, and the boot goes on 100 µs after that; an unprovisioned device then waits in its ROM, and a
provisioned one without a flash halts with every port OFF. A stack of another height than BOOT_DEVID says halts the
boot with ERR 0x15; otherwise HBM is initialised and TRAINED is set. A section whose digest fails, and that the boot
can do without, is counted and left out; a list section whose digest passes extends M1. A list entry acts only for
its own OP: WAIT goes on when the masked word matches and stops the list after 50 ms, DELAY waits its microseconds,
END ends the list. A list that stops during a boot halts it with ERR 0x20. -/
def Obligations.BootAndLists : Prop :=
  ∀ s : State,
    (∀ size mode, s.boot.start.isSome = true → Leaves (.porstRelease size mode) s s) ∧
    (∀ size mode, s.boot.start = none →
      (s.provisioned = false → Runs (.porstRelease size mode) s (fun t => t.boot.start = some s.now ∧
        t.now = s.now + 90000 ∧ Emit.xspiRst true (s.now + 30000) ∈ t.sent ∧ t.rd F.BOOT_STATUS.PHASE = 0 ∧
        t.rd F.BOOT_FLASH.SIZE = min 512 size ∧ t.on F.SEC_STATUS.PROVISIONED = false ∧
        t.sec.otpHash = s.sec.otpHash ∧ t.mem = s.mem ∧ t.cores = s.cores)) ∧
      (s.provisioned = true → size = 0 → Runs (.porstRelease size mode) s (fun t => t.boot.start = some s.now ∧
        t.now = s.now + 90000 ∧ Emit.xspiRst true (s.now + 30000) ∈ t.sent ∧ t.rd F.BOOT_STATUS.PHASE = 11 ∧
        t.rd F.BOOT_FLASH.SIZE = 0 ∧
        (∀ p, p < 24 → t.rd (F.PLKn_CTRL.STATE p) = 0 ∧ t.on (F.PLKn_CTRL.ENABLE p) = false) ∧ t.mem = s.mem ∧
        t.cores = s.cores))) ∧
    (∀ h, s.boot.did.testBit 1 = false ∨ s.boot.did.testBit 2 = true ∨ s.rd F.BOOT_STATUS.PHASE = 11 →
      Leaves (.hbmTrainDone h) s s) ∧
    (∀ h, h < 16 → s.boot.did.testBit 1 = true → s.boot.did.testBit 2 = false → s.rd F.BOOT_STATUS.PHASE ≠ 11 →
      (2 * h ≠ s.gib → Runs (.hbmTrainDone h) s (fun t => t.rd F.BOOT_STATUS.PHASE = 11 ∧
      t.rd F.BOOT_STATUS.ERR = 0x15 ∧
        t.rd F.HBM_STATUS.HEIGHT = h ∧ t.on F.HBM_STATUS.TRAINED = s.on F.HBM_STATUS.TRAINED ∧ t.mem = s.mem ∧
        t.cores = s.cores)) ∧
      (2 * h = s.gib → Runs (.hbmTrainDone h) s (fun t => t.on F.HBM_STATUS.TRAINED = true ∧
      t.rd F.HBM_STATUS.HEIGHT = h ∧
        t.boot.did.testBit 2 = true ∧ (∀ a, t.byte a = if a < s.gib * 2 ^ 30 then 0#8 else s.byte a) ∧
        t.cores = s.cores))) ∧
    (s.boot.secs = [] ∨ s.on F.HBM_STATUS.TRAINED = false → Leaves .sectionLoaded s s) ∧
    (∀ step i rest, s.boot.secs = (step, i) :: rest → s.on F.HBM_STATUS.TRAINED = true →
      (step = 3 ∨ s.boot.did.testBit 3 = true) → (step = 8 → s.boot.list = none) →
      let ix := s.rd F.BOOT_STATUS.IMAGE
      let e := s.section_ ix i
      let b := s.flashBytes (s.imageAt ix + e.off) e.size
      (sha384 b ≠ e.digest → step = 9 ∨ (e.flags % 2 = 0 ∧ e.typ ≠ 1) → Runs .sectionLoaded s (fun t =>
        t.rd F.BOOT_SEC_FAIL.COUNT = min 65535 (s.rd F.BOOT_SEC_FAIL.COUNT + 1) ∧ t.on F.BOOT_STATUS.PARTIAL = true ∧
        t.boot.secs.length ≤ rest.length ∧ t.sec = s.sec ∧ t.mem = s.mem ∧ t.cores = s.cores)) ∧
      (sha384 b = e.digest → e.typ = 1 ∨ e.typ = 2 ∨ e.typ = 3 → Runs .sectionLoaded s (fun t =>
        t.sec.sections = s.sec.sections + 1 ∧
        Tbl.get 0 t.sec.meas 1 = beVal (sha384 (beBytes 48 (Tbl.get 0 s.sec.meas 1) ++ leBytes 4 e.typ ++ e.digest)) ∧
        t.rd F.BOOT_SEC_FAIL.COUNT = s.rd F.BOOT_SEC_FAIL.COUNT ∧ (s.memc.sc = [] → t.cores = s.cores)))) ∧
    (∀ c op, (c, op) ∈ [(Instr.listWrite, 0), (.listWait, 1), (.listWaitTimeout, 1), (.listDelay, 2), (.listEnd, 3)] →
      s.listEntry op = none → Leaves c s s) ∧
    (∀ op r, s.listEntry op = some r → r.which < 4 → r.ix < 65536 →
      (op = 0 → r.word 1 % 4 = 0 →
        let u := s.regWrite 0x30 (r.word 1) (r.word 2)
        u.boot.list = some r → 16 * (r.ix + 1) + 16 ≤ r.bytes.length →
        ({ r with ix := r.ix + 1, t := u.now } : ListRun).word 0 ≤ 3 →
        Leaves .listWrite s { u with boot := { u.boot with list := some { r with ix := r.ix + 1, t := u.now } } }) ∧
      (op = 1 → r.word 1 % 4 = 0 →
        let x := s.regRead 0x30 (r.word 1)
        (x.1 &&& r.word 3 ≠ r.word 2 → Leaves .listWait s x.2) ∧
        (x.1 &&& r.word 3 = r.word 2 → 16 * (r.ix + 1) + 16 ≤ r.bytes.length →
          ({ r with ix := r.ix + 1, t := x.2.now } : ListRun).word 0 ≤ 3 →
          Leaves .listWait s { x.2 with boot := { x.2.boot with list := some { r with ix := r.ix + 1, t := x.2.now } } })) ∧
      (op = 1 → Runs .listWaitTimeout s (fun t => t.boot.list = none ∧ t.on F.BOOT_STATUS.LIST_ERR = true ∧
        t.rd F.BOOT_STATUS.LIST = r.which ∧ t.rd F.BOOT_LIST_IDX.INDEX = r.ix ∧ t.now = max s.now (r.t + 30000000) ∧
        (s.boot.did.testBit 9 = false → t.rd F.BOOT_STATUS.PHASE = 11 ∧ t.rd F.BOOT_STATUS.ERR = 0x20) ∧ t.mem = s.mem ∧
        t.cores = s.cores)) ∧
      (op = 2 → 16 * (r.ix + 1) + 16 ≤ r.bytes.length →
        let n := max s.now (r.t + min 100000 (r.word 3) * 600)
        ({ r with ix := r.ix + 1, t := n } : ListRun).word 0 ≤ 3 → Leaves .listDelay s
          { s with now := n, boot := { s.boot with list := some { r with ix := r.ix + 1, t := n } } }) ∧
      (op = 3 →
        (s.boot.sby = 6 → Leaves .listEnd s { s with boot := { s.boot with list := none } }) ∧
        (s.boot.sby ≠ 6 → r.which = 1 → Runs .listEnd s (fun t => t.boot.did.testBit 3 = true ∧ t.mem = s.mem ∧
          t.cores = s.cores)) ∧
        (s.boot.sby ≠ 6 → r.which = 2 → Runs .listEnd s (fun t => t.boot.show_ = 1 ∧ t.mem = s.mem ∧
        t.cores = s.cores)))) ∧
    Runs .thermtrip s (fun t => t.boot.tripped = true ∧ t.cores = [] ∧ t.dma = [] ∧ t.boot.list = none ∧
    t.tick.at_ = none ∧
      (∀ p, p < 24 → t.laneSt p = 0 ∧ t.rd (F.PLKn_CTRL.STATE p) = 0) ∧ t.mem = s.mem)

/-- Resets, Standby and the wake (R360, R420, R434, R444, R451-R459, R483, R491, R493). ENTER is refused outside PHASE 9
and RUN; without ticks it takes effect at once: sessions close, one whose command executes once that is complete.
Entry cuts work off at T + 1 ms, where the record takes the hash of the wake area as the Skokor wrote it, puts HBM
into self-refresh at T + 1.2 ms and reaches Standby at T + 2 ms: HBM keeps its bytes, SRAM does not. The first event
of a watched source begins the wake, and FIRST is the lowest slot of its FCLK cycle; the wake restores HBM and the
wake area, or becomes a full boot, starts ports, and ends with the tick at W + 30 ms. -/
def Obligations.StandbyAndWake : Prop :=
  ∀ s : State,
    (let w := s.showDue
    (∀ v, 2 ≤ w.boot.sby ∨ (w.rd F.BOOT_STATUS.PHASE ≠ 9 ∧ w.rd F.BOOT_STATUS.PHASE ≠ 10) →
      Leaves (.sbyEnter v) s (w.wr F.BOOT_STATUS.SBY_REJECT 1)) ∧
    (∀ v, w.boot.sby < 2 → w.rd F.BOOT_STATUS.PHASE = 9 ∨ w.rd F.BOOT_STATUS.PHASE = 10 →
      Runs (.sbyEnter v) s (fun t => t.on F.BOOT_SBY_CTRL.TILES = v.testBit 1 ∧ t.cores = s.cores ∧
        (s.running = true → t.boot = { w.boot with sby := 1 } ∧ t.sec = s.sec ∧ t.mem = s.mem ∧
          RegsKept w t [R.BOOT_SBY_CTRL]) ∧
        (s.running = false → t.boot.sby = 2 ∧ t.boot.sbyAt = s.now ∧ t.sec.nonces = [] ∧ t.tick.at_ = none ∧
          (∀ i, i < 4 → s.sec.busy ≠ some i → t.on (F.SEC_SESSs_CTRL.OPEN i) = false) ∧
          (∀ i, i < 4 → s.sec.busy = some i → i ∈ t.sec.closing))))) ∧
    (s.boot.sby ≠ 2 → Leaves .sbyCutoff s s) ∧
    (s.boot.sby = 2 → Runs .sbyCutoff s (fun t => t.boot.sby = 3 ∧ t.now = max s.now (s.boot.sbyAt + 600000) ∧
      (s.memc.sc = [] → t.cores = []) ∧ t.dma = [] ∧ (∀ p, p < 24 → t.laneSt p = 0 ∧ t.rd (F.PLKn_CTRL.STATE p) = 0) ∧
      t.boot.rec_.meas = s.sec.meas ∧ t.boot.rec_.frameCnt = s.tick.frameCnt ∧
      t.boot.rec_.svn = s.rd F.SEC_OTP.SVN ∧ t.boot.rec_.hash = sha384 t.wakeBytes)) ∧
    (s.boot.sby ≠ 3 → Leaves .sbySelfRefresh s s) ∧
    (s.boot.sby = 3 → Runs .sbySelfRefresh s (fun t => t.boot.sby = 4 ∧ t.now = max s.now (s.boot.sbyAt + 720000) ∧
      t.on F.HBM_STATUS.SELF_REFRESH = true ∧ t.on F.GPIO_SBY_CTRL.HELD = true ∧ t.mem = s.mem ∧ t.cores = s.cores)) ∧
    (s.boot.sby ≠ 4 → Leaves .sbyReached s s) ∧
    (s.boot.sby = 4 → Runs .sbyReached s (fun t => t.boot.flash = s.boot.flash ∧ t.sec.otpHash = s.sec.otpHash ∧
      t.sec.counter = s.sec.counter ∧ t.boot.rec_ = s.boot.rec_ ∧ t.cores = [] ∧
      (∀ a, t.byte a = if a < s.gib * 2 ^ 30 then s.byte a else 0#8) ∧
      t.on F.BOOT_SBY_CTRL.TILES = s.on F.BOOT_SBY_CTRL.TILES ∧ t.on F.HBM_STATUS.TRAINED = false ∧
      (s.boot.wakeT = none → t.boot.sby = 5 ∧ t.now = max s.now (s.boot.sbyAt + 1200000)) ∧
      (∀ w, s.boot.wakeT = some w → t.boot.sby = 6 ∧ t.now = max (max s.now (s.boot.sbyAt + 1200000)) w ∧
        t.boot.wakeAt = t.now ∧ t.rd F.BOOT_STATUS.PHASE = 12 ∧
        t.rd F.BOOT_WAKE.WAKES = min (2 ^ 32 - 1) (s.rd F.BOOT_WAKE.WAKES + 1)))) ∧
    (s.boot.wakeDue = [] → Leaves .wakeEvent s s) ∧
    (∀ n t0, s.boot.wakeDue = [(n, t0)] →
      (s.wakeSlots n = [] → Leaves .wakeEvent s { s with boot := { s.boot with wakeDue := [] } }) ∧
      (∀ k rest, s.wakeSlots n = k :: rest → s.boot.sby = 5 → s.boot.wakeT = none → Runs .wakeEvent s (fun t =>
        t.boot.sby = 6 ∧ t.boot.wakeAt = max s.now t0 ∧ t.now = max s.now t0 ∧ t.rd F.BOOT_STATUS.PHASE = 12 ∧
        t.rd F.IRQ_WAKE_STATUS.FIRST = k ∧ t.on F.IRQ_WAKE_STATUS.WOKE = true ∧
        (∀ j, j ∈ s.wakeSlots n → (t.rd F.IRQ_WAKE_HIT.HIT).testBit j = true) ∧
        t.rd F.BOOT_WAKE.WAKES = min (2 ^ 32 - 1) (s.rd F.BOOT_WAKE.WAKES + 1) ∧ t.mem = s.mem ∧ t.cores = s.cores)) ∧
      (∀ k rest w, s.wakeSlots n = k :: rest → 2 ≤ s.boot.sby → s.boot.wakeT = some w → Runs .wakeEvent s (fun t =>
        t.rd F.IRQ_WAKE_STATUS.FIRST = (if w / 12 = t0 / 12 then min k (s.rd F.IRQ_WAKE_STATUS.FIRST)
          else s.rd F.IRQ_WAKE_STATUS.FIRST) ∧ t.boot = { s.boot with wakeDue := t.boot.wakeDue } ∧
        (∀ j, j ∈ s.wakeSlots n → (t.rd F.IRQ_WAKE_HIT.HIT).testBit j = true) ∧ t.mem = s.mem ∧ t.cores = s.cores))) ∧
    (∀ ok, s.boot.sby ≠ 6 ∨ s.boot.wakeStep ≠ 0 → Leaves (.wakeHbm ok) s s) ∧
    (s.boot.sby = 6 → s.boot.wakeStep = 0 →
      Runs (.wakeHbm true) s (fun t => t.boot.wakeStep = 1 ∧ t.now = max s.now (s.boot.wakeAt + 1200000) ∧
        t.on F.HBM_STATUS.TRAINED = true ∧ t.rd F.HBM_STATUS.HEIGHT = s.gib / 2 % 16 ∧
        t.on F.HBM_STATUS.SELF_REFRESH = false ∧ RegsKept s t [R.HBM_STATUS] ∧ t.mem = s.mem ∧ t.cores = s.cores) ∧
      Runs (.wakeHbm false) s (fun t => t.on F.BOOT_STATUS.WAKE_COLD = true ∧ t.boot.sby = 0 ∧
        t.boot.start = some (max s.now (s.boot.wakeAt + 3600000)) ∧ t.on F.HBM_STATUS.TRAINED = false ∧ t.mem = s.mem ∧
        t.cores = s.cores)) ∧
    (s.boot.sby ≠ 6 ∨ s.boot.wakeStep ≠ 1 → Leaves .wakeRestore s s) ∧
    (s.boot.sby = 6 → s.boot.wakeStep = 1 → ∀ b x,
      ({ s with now := max s.now (s.boot.wakeAt + 3600000), boot := { s.boot with wakeStep := 2 } } : State).busRead 0x30
        s.boot.wakeBase s.boot.wakeSize = (.ok b, x) →
      (sha384 b ≠ s.boot.rec_.hash → Runs .wakeRestore s (fun t => t.on F.BOOT_STATUS.WAKE_COLD = true ∧
      t.boot.sby = 0 ∧
        t.on F.HBM_STATUS.TRAINED = false)) ∧
      (sha384 b = s.boot.rec_.hash → Runs .wakeRestore s (fun t => t.boot.wakeStep = 2 ∧ t.boot.sby = 6 ∧
        t.tick.frameCnt = s.boot.rec_.frameCnt ∧ t.sec.meas = s.boot.rec_.meas ∧ t.on F.SEC_STATUS.IMG_OK = true))) ∧
    (s.boot.sby ≠ 6 ∨ s.boot.wakeStep ≠ 2 ∨ s.boot.list ≠ none → Leaves .wakePorts s s) ∧
    (s.boot.sby = 6 → s.boot.wakeStep = 2 → s.boot.list = none → Runs .wakePorts s (fun t => t.boot.wakeStep = 3 ∧
      t.boot.sby = 6 ∧ t.now = max s.now (s.boot.wakeAt + 6600000))) ∧
    (s.boot.sby ≠ 6 ∨ s.boot.wakeStep ≠ 3 → Leaves .wakeFirstTick s s) ∧
    (s.boot.sby = 6 → s.boot.wakeStep = 3 → Runs .wakeFirstTick s (fun t => t.boot.sby = 0 ∧
      t.rd F.BOOT_STATUS.PHASE = 10 ∧ t.now = max s.now (s.boot.wakeAt + 18000000) ∧
      (s.boot.runHeld = true → t.on F.ENG_TICK_CTRL.RUN = true) ∧
      (s.boot.runHeld = false → t.mem = s.mem ∧ t.cores = s.cores ∧ RegsKept s t [R.BOOT_STATUS]))) ∧
    Runs .porstN s (fun t => t.boot.start = none ∧ t.boot.porst = true ∧ Emit.xspiRst false s.now ∈ t.sent ∧
    t.now = s.now ∧ t.boot.flash = s.boot.flash ∧ t.sec.otpHash = s.sec.otpHash ∧
      t.sec.revoked = s.sec.revoked ∧ t.sec.counter = s.sec.counter ∧ t.rd F.BOOT_STATUS.PHASE = 0 ∧
      t.on F.ENG_TICK_CTRL.RUN = false ∧ t.cores = [] ∧ t.hst = {} ∧
      (∀ a, t.byte a = if a < s.gib * 2 ^ 30 then s.byte a else 0#8)) ∧
    Runs .railLoss s (fun t => t.boot.start = none ∧ t.mem = [] ∧ t.cores = [] ∧
      (∀ k j, (s.otpHash k).testBit j = true → (t.otpHash k).testBit j = true) ∧
      (∀ j, s.sec.revoked.testBit j = true → t.sec.revoked.testBit j = true) ∧
      (∀ j, s.sec.counter.testBit j = true → t.sec.counter.testBit j = true)) ∧
    (s.hst.resetAt = none → Leaves .deviceResetEffect s s) ∧
    (∀ t0, s.hst.resetAt = some t0 → Runs .deviceResetEffect s (fun t => t.boot.start = some (max s.now t0) ∧
      t.now = max s.now t0 + 90000 ∧ Emit.xspiRst false (max s.now t0) ∈ t.sent ∧
      Emit.xspiRst true (max s.now t0 + 30000) ∈ t.sent ∧ t.boot.flash = s.boot.flash ∧
      t.sec.otpHash = s.sec.otpHash ∧ t.cores = [] ∧
      (∀ o, 0x40000 ≤ o → o < 0x80000 → o ≠ R.HST_MB_STATE → t.reg o = s.reg o) ∧ t.reg R.HST_MB_STATE % 2 ^ 16 = 0 ∧
      t.hst.mb = s.hst.mb ∧ t.hst.msix = s.hst.msix ∧ t.hst.resetAt = none ∧
      (∀ i, i < 4 → t.on (F.SEC_SESSs_CTRL.OPEN i) = false)))

/-- A write of FLT_ACK (R468). With no fault in its cycle so far, for each class whose bit is 1 it clears PEND and sets
LVL to 0; the other classes, DEGRADED or FROZEN, and the quiet timer stay. A fault of the same cycle is taken after
it, in a class that is no longer pending. -/
def Obligations.FaultAcknowledgement : Prop :=
  ∀ (s : State) (v : Nat), s.Calm →
    (s.fltNow = none → Runs (.fltAck v) s (fun t =>
      (∀ c, c < 8 → (t.rd F.FLT_CLASS.PEND).testBit c = ((s.rd F.FLT_CLASS.PEND).testBit c && !v.testBit c) ∧
        bitsOf (t.rd F.FLT_CLASS.LVL) (2 * c) 2 = (if v.testBit c then 0 else bitsOf (s.rd F.FLT_CLASS.LVL) (2 * c) 2)) ∧
      t.rd F.FLT_STATUS.STATE = s.rd F.FLT_STATUS.STATE ∧ t.flt = s.flt ∧ t.quietTimer = s.quietTimer ∧
      (∀ o, o ≠ R.FLT_CLASS → t.reg o = s.reg o) ∧ t.mem = s.mem ∧ t.cores = s.cores)) ∧
    (∀ y, s.fltNow = some y → ∀ src inst, y.set = [(src, inst)] → ∀ cls sev0, faultInfo src = some (cls, sev0) →
      y.rec_ = false → s.on (F.FLT_SRCs_CFG.EN src) = true → v.testBit cls = true → Runs (.fltAck v) s (fun t =>
      (t.rd F.FLT_CLASS.PEND).testBit cls = true ∧
      bitsOf (t.rd F.FLT_CLASS.LVL) (2 * cls) 2 = s.rd (F.FLT_SRCs_CFG.SEV src) ∧
      (∀ c, c < 8 → c ≠ cls → (t.rd F.FLT_CLASS.PEND).testBit c = (y.cls.testBit c && !v.testBit c) ∧
        bitsOf (t.rd F.FLT_CLASS.LVL) (2 * c) 2 = (if v.testBit c then 0 else bitsOf y.cls (8 + 2 * c) 2)) ∧
      t.mem = s.mem ∧ t.cores = s.cores))

/-- The taking of one raised fault, the first of its cycle (R462): with EN = 0 it is counted and has no other effect;
with EN = 1 the effective level follows from the severity, the class's PEND and LVL, and its cap, PEND is set and
LVL rises to it, and the fault is counted, logged and acted on at that level: DEGRADED is entered at 2, FROZEN at 3
(R464), but for an entry into Standby in the same cycle (`entry`), which ends a freeze (R467). -/
def Obligations.FaultsEscalate : Prop :=
  ∀ (s : State) (src inst cls sev0 : Nat), s.raised = [(src, inst)] → ({ s with raised := [] } : State).Calm →
    s.fltNow = none → faultInfo src = some (cls, sev0) →
    let sev := s.rd (F.FLT_SRCs_CFG.SEV src)
    let lvl := bitsOf (s.rd F.FLT_CLASS.LVL) (2 * cls) 2
    let cap := bitsOf (s.rd F.FLT_ESC_CAP.CAP) (2 * cls) 2
    let e := if (s.rd F.FLT_CLASS.PEND).testBit cls then max sev (min (max sev lvl + 1) cap) else sev
    s.settle.rd (F.FLT_SRCs_CNT.COUNT src) = min 255 (s.rd (F.FLT_SRCs_CNT.COUNT src) + 1) ∧
    let entry := decide (s.boot.sby = 2) && decide (s.boot.sbyAt = s.now)
    (s.on (F.FLT_SRCs_CFG.EN src) = false → s.settle.flt = { s.flt with cyc := s.settle.flt.cyc } ∧
      ∀ o, o ≠ R.FLT_SRCs_CNT src → o ≠ R.FLT_STATUS ∨ entry = false → s.settle.reg o = s.reg o) ∧
    (s.on (F.FLT_SRCs_CFG.EN src) = true →
      (∀ c, c < 8 → (s.settle.rd F.FLT_CLASS.PEND).testBit c = (decide (c = cls) || (s.rd F.FLT_CLASS.PEND).testBit c) ∧
        bitsOf (s.settle.rd F.FLT_CLASS.LVL) (2 * c) 2 =
          (if c = cls then max lvl e else bitsOf (s.rd F.FLT_CLASS.LVL) (2 * c) 2)) ∧
      (s.flt.log.length < 32 → ∃ l, s.settle.flt.log = s.flt.log ++ [l] ∧ l.src = src ∧ l.level = e ∧
        l.esc = decide (sev < e) ∧ l.inst = inst % 4096) ∧
      (32 ≤ s.flt.log.length → s.settle.flt.log = s.flt.log ∧ s.settle.on F.FLT_LOG_STATUS.OVERFLOW = true) ∧
      (let st := if e = 3 then 2 else if e = 2 ∧ s.rd F.FLT_STATUS.STATE ≠ 2 then 1 else s.rd F.FLT_STATUS.STATE
       s.settle.rd F.FLT_STATUS.STATE = if entry = true ∧ st = 2 then 0 else st) ∧
      (s.rd F.FLT_PIN.LEVEL ≤ e → s.settle.on F.FLT_STATUS.PULSING = true ∧
        s.settle.flt.pulseEnd = s.now + clampN 1 1000 (s.rd F.FLT_PIN.MINW) * 600) ∧
      (e < s.rd F.FLT_PIN.LEVEL → s.settle.on F.FLT_STATUS.PULSING = s.on F.FLT_STATUS.PULSING ∧
        s.settle.flt.pulseEnd = s.flt.pulseEnd) ∧
      s.settle.flt.lastT = (if 2 ≤ e then s.now else s.flt.lastT) ∧
      s.settle.rd (F.IRQ_SRCs.COUNT 62) = (if s.rd F.FLT_CTRL.IRQ_LEVEL ≤ e ∧ s.boot.sby < 5
        then min 255 (s.rd (F.IRQ_SRCs.COUNT 62) + 1) else s.rd (F.IRQ_SRCs.COUNT 62)))

/-- The faults of one cycle (R463), raised by one command or by two: they are taken in ascending SRC, and within a
source in ascending INST, whatever the order in which they were raised. -/
def Obligations.FaultsOfOneCycle : Prop :=
  ∀ (s : State) (f g : Nat × Nat), s.raised = [f] → ({ s with raised := [] } : State).Calm → s.fltNow = none →
    s.flt.log.length ≤ 30 → (faultInfo f.1).isSome = true → (faultInfo g.1).isSome = true →
    s.on (F.FLT_SRCs_CFG.EN f.1) = true → s.on (F.FLT_SRCs_CFG.EN g.1) = true → f.2 < 4096 → g.2 < 4096 →
    let order := if g.1 < f.1 ∨ (g.1 = f.1 ∧ g.2 < f.2) then [g, f] else [f, g]
    (∀ u ∈ [({ s.settle with raised := [g] } : State).settle, ({ s with raised := [f, g] } : State).settle,
        ({ s with raised := [g, f] } : State).settle],
      u.flt.log.take s.flt.log.length = s.flt.log ∧
      (u.flt.log.drop s.flt.log.length).map (fun e => (e.src, e.inst)) = order)

/-- The fault unit's other commands (R465, R469, R471-R473), no fault and no pulse being outstanding. The end of an
ERR_N pulse gives the pin SW's level. The end of the quiet period recovers with AUTO = 1: NORMAL, no class pending,
one recovery more. RECOVER recovers a device that is not NORMAL, unless a fault of its cycle was taken at DEGRADE or
above; an AUTO write one whose quiet timer has passed MS; LOCK stays set and keeps the fields it locks. POP drops
the oldest log entry, beside an addition of its cycle. A measured temperature that rises to a threshold is that
threshold's fault once, until it has fallen 5.0 °C below. -/
def Obligations.FaultUnitCommands : Prop :=
  ∀ s : State, s.Calm →
    (s.on F.FLT_STATUS.PULSING = false → Leaves .errNPulseEnd s s) ∧
    (s.on F.FLT_STATUS.PULSING = true → Runs .errNPulseEnd s (fun t => t.on F.FLT_STATUS.PULSING = false ∧
      t.flt.errLow = s.on F.FLT_PIN.SW ∧ t.now = max s.now s.flt.pulseEnd ∧
      t.rd F.FLT_STATUS.STATE = s.rd F.FLT_STATUS.STATE ∧ RegsKept s t [] ∧ t.mem = s.mem ∧ t.cores = s.cores)) ∧
    (s.rd F.FLT_STATUS.STATE = 0 ∨ s.on F.FLT_CTRL.AUTO = false → Runs .quietExpire s (fun t => t = s)) ∧
    (s.rd F.FLT_STATUS.STATE ≠ 0 → s.on F.FLT_CTRL.AUTO = true → Runs .quietExpire s (fun t =>
      t.rd F.FLT_STATUS.STATE = 0 ∧ t.rd F.FLT_CLASS.PEND = 0 ∧ t.rd F.FLT_CLASS.LVL = 0 ∧
      t.rd F.FLT_RECOV.COUNT = min 65535 (s.rd F.FLT_RECOV.COUNT + 1) ∧
      t.now = max s.now (s.flt.lastT + s.quietMs * 600000))) ∧
    (∀ v, Runs (.fltRecover v) s (fun t =>
      (s.rd F.FLT_STATUS.STATE ≠ 0 → s.flt.lastT ≠ s.now → t.rd F.FLT_STATUS.STATE = 0 ∧ t.rd F.FLT_CLASS.PEND = 0 ∧
      t.rd F.FLT_CLASS.LVL = 0 ∧
        t.rd F.FLT_RECOV.COUNT = min 65535 (s.rd F.FLT_RECOV.COUNT + 1)) ∧
      (s.rd F.FLT_STATUS.STATE = 0 ∨ s.flt.lastT = s.now → t.rd F.FLT_STATUS.STATE = s.rd F.FLT_STATUS.STATE ∧
        t.rd F.FLT_RECOV.COUNT = s.rd F.FLT_RECOV.COUNT ∧ t.reg R.FLT_CLASS = s.reg R.FLT_CLASS ∧
        t.mem = s.mem ∧ t.cores = s.cores))) ∧
    (∀ v, v.testBit 1 = false → Runs (.fltAutoWrite v) s (fun t =>
      (s.fltLocked = false → t.on F.FLT_CTRL.AUTO = true ∧ t.on F.FLT_CTRL.FREEZE_AUDIO = v.testBit 2 ∧
        t.rd F.FLT_CTRL.IRQ_LEVEL = bitsOf v 4 2 ∧
        (s.rd F.FLT_STATUS.STATE ≠ 0 → s.quietMs ≤ s.quietTimer → t.rd F.FLT_STATUS.STATE = 0 ∧
          t.rd F.FLT_RECOV.COUNT = min 65535 (s.rd F.FLT_RECOV.COUNT + 1))) ∧
      (s.quietTimer < s.quietMs → t.rd F.FLT_STATUS.STATE = s.rd F.FLT_STATUS.STATE ∧
        t.rd F.FLT_RECOV.COUNT = s.rd F.FLT_RECOV.COUNT ∧ t.mem = s.mem ∧ t.cores = s.cores))) ∧
    (∀ v, Runs (.fltLock v) s (fun t => t.on F.FLT_CTRL.LOCK = true ∧
      (s.fltLocked = true → t.on F.FLT_CTRL.AUTO = s.on F.FLT_CTRL.AUTO ∧
        t.on F.FLT_CTRL.FREEZE_AUDIO = s.on F.FLT_CTRL.FREEZE_AUDIO ∧
        t.rd F.FLT_CTRL.IRQ_LEVEL = s.rd F.FLT_CTRL.IRQ_LEVEL) ∧
      (s.rd F.FLT_STATUS.STATE = 0 → RegsKept s t [R.FLT_CTRL] ∧ t.mem = s.mem ∧ t.cores = s.cores))) ∧
    (∀ v, v.testBit 0 = false → Runs (.fltLogPop v) s (fun t => t = s)) ∧
    (∀ v, v.testBit 0 = true → s.flt.log.length ≤ 32 → s.fltNow = none →
    Runs (.fltLogPop v) s (fun t => t.flt.log = s.flt.log.drop 1 ∧
      t.rd F.FLT_LOG_STATUS.COUNT = s.flt.log.length - 1 ∧
      t.on F.FLT_LOG_STATUS.OVERFLOW = s.on F.FLT_LOG_STATUS.OVERFLOW ∧
      (∀ o, o ≠ R.FLT_LOG_STATUS → t.reg o = s.reg o) ∧ t.mem = s.mem ∧ t.cores = s.cores)) ∧
    (∀ y, s.fltNow = some y → ∀ src inst, y.set = [(src, inst)] → ∀ v, v.testBit 0 = true → y.rec_ = false →
      (faultInfo src).isSome = true → s.on (F.FLT_SRCs_CFG.EN src) = true → y.log.length ≤ 32 → 0 < y.log.length →
      Runs (.fltLogPop v) s (fun t => t.flt.log.length = y.log.length ∧
        t.flt.log.take (y.log.length - 1) = y.log.drop 1 ∧
        (t.flt.log.getLast?.map (fun e => (e.src, e.inst))) = some (src, inst % 4096) ∧
        t.rd F.FLT_LOG_STATUS.COUNT = y.log.length ∧ t.mem = s.mem ∧ t.cores = s.cores)) ∧
    (∀ x, s.boot.sby = 5 → Runs (.tempMeasure x) s (fun t => t = s)) ∧
    (∀ x, s.boot.sby ≠ 5 → Runs (.tempMeasure x) s (fun t => t.rd F.FLT_TEMP.TJ = x % 65536 ∧
      t.now = max s.now s.flt.tempAt ∧ t.flt.tempAt = t.now + 600000 ∧ t.flt.measured = true ∧
      (sext 16 (s.rd F.FLT_THERM.HOT) ≤ sext 16 x → t.flt.hotArmed = false ∧
        (s.flt.hotArmed = true → t.rd (F.FLT_SRCs_CNT.COUNT 0x45) = min 255 (s.rd (F.FLT_SRCs_CNT.COUNT 0x45) + 1)) ∧
        (s.flt.hotArmed = false → t.rd (F.FLT_SRCs_CNT.COUNT 0x45) = s.rd (F.FLT_SRCs_CNT.COUNT 0x45))) ∧
      (sext 16 x < sext 16 (s.rd F.FLT_THERM.HOT) → t.flt.hotArmed =
        (s.flt.hotArmed || decide (sext 16 x ≤ sext 16 (s.rd F.FLT_THERM.HOT) - 0x500))) ∧
      (sext 16 (s.rd F.FLT_THERM.CRIT) ≤ sext 16 x → s.flt.critArmed = true →
        t.rd (F.FLT_SRCs_CNT.COUNT 0x46) = min 255 (s.rd (F.FLT_SRCs_CNT.COUNT 0x46) + 1)) ∧
      RegsKept s t [R.FLT_TEMP] ∧ t.mem = s.mem ∧ t.cores = s.cores))

/-- The host port's link, power state and BARs, and the end of an outbound read (R429, R475-R479, R487). The link's
change and the function's power state set their flags; a link that goes down leaves HST_LINK 0 and configuration
space at reset. A malformed BAR0 request sets BAD_ACCESS; a read of it completes with Unsupported Request. BAR2
needs VIEW to read and MAINTAIN to write; a refused access is counted, and a refused read returns ones. An outbound
read fails only while the link carries outbound requests: of a core, with LOAD_BUS; of an engine, a line not yet
output is poisoned (which one is free, log 53); of the sound unit, a start is dropped, or a voice or delay line has
zeros (log 53); of a schedule check, ERR 0x12; of the frame store, where a buffer lies in host memory, MEM_DECODE
alone (log 53); of DMA, blitter and object loader, as for a bus error. -/
def Obligations.HostLinkAndBars : Prop :=
  ∀ s : State,
    (∀ up sp w l1 b m f, s.boot.sby = 5 → Leaves (.pcieLinkChange up sp w l1 b m f) s s) ∧
    (∀ sp w l1 b m f, s.boot.sby ≠ 5 →
      Runs (.pcieLinkChange true sp w l1 b m f) s (fun t => t.on F.HST_LINK.UP = true ∧ t.rd F.HST_LINK.SPEED = sp % 8 ∧
        t.rd F.HST_LINK.WIDTH = w % 16 ∧ t.on F.HST_LINK.BME = b ∧ t.on F.HST_LINK.MSIX_EN = m ∧ t.hst.fmask = f ∧
        (s.on F.HST_LINK.UP = false → t.on F.HST_STATUS.LINK_CHG = true) ∧ t.mem = s.mem ∧ t.cores = s.cores ∧
        RegsKept s t [R.HST_LINK, R.HST_STATUS]) ∧
      Runs (.pcieLinkChange false sp w l1 b m f) s (fun t => t.rd F.HST_LINK.UP = 0 ∧ t.rd F.HST_LINK.SPEED = 0 ∧
        t.rd F.HST_LINK.BME = 0 ∧ t.rd F.HST_LINK.MSIX_EN = 0 ∧ t.rd F.HST_LINK.D3HOT = 0 ∧ t.sent = s.sent ∧
        t.hst.cfg = {} ∧
        (s.on F.HST_LINK.UP = true → t.on F.HST_STATUS.LINK_CHG = true) ∧ t.mem = s.mem ∧ t.cores = s.cores ∧
        RegsKept s t [R.HST_LINK, R.HST_STATUS])) ∧
    (∀ d b m f, s.on F.HST_LINK.UP = false → Leaves (.pmChange d b m f) s s) ∧
    (∀ b m f, s.on F.HST_LINK.UP = true → Runs (.pmChange true b m f) s (fun t => t.on F.HST_LINK.D3HOT = true ∧
      t.on F.HST_LINK.BME = b ∧ t.on F.HST_LINK.MSIX_EN = m ∧
      (s.on F.HST_LINK.D3HOT = false → t.on F.HST_STATUS.PM_CHG = true) ∧ t.sent = s.sent ∧ t.mem = s.mem ∧
      t.cores = s.cores ∧ RegsKept s t [R.HST_LINK, R.HST_STATUS])) ∧
    (∀ b m f, s.on F.HST_LINK.UP = true → s.hst.ents = [] → Runs (.pmChange false b m f) s (fun t =>
      t.on F.HST_LINK.D3HOT = false ∧ t.on F.HST_LINK.BME = b ∧ t.on F.HST_LINK.MSIX_EN = m ∧
      (s.on F.HST_LINK.D3HOT = true → t.on F.HST_STATUS.PM_CHG = true) ∧
      (∀ q, q < 4 → (s.cqS q).held = true → m = true → f = false →
        s.msixWord (4 * s.rd (F.HST_CQq_CFG.VEC q) + 3) = 0 → (t.cqS q).held = false) ∧ t.mem = s.mem ∧
        t.cores = s.cores)) ∧
    Leaves (.bar0BadAccess true) s (s.wr F.HST_STATUS.BAD_ACCESS 1) ∧
    Leaves (.bar0BadAccess false) s { s.wr F.HST_STATUS.BAD_ACCESS 1 with
      sent := Emit.completion 2 [] :: s.sent, hst := { s.hst with cfg := { s.hst.cfg with unsupported := true } } } ∧
    (∀ off n (bs : List Nat), s.hostPriv < 3 → Leaves (.bar2Access true off n bs) s
      ((s.wr F.SEC_STATUS.DENIED 1).inc F.SEC_DENY_CNT.COUNT)) ∧
    (∀ off n (bs : List Nat), s.hostPriv = 0 →
    Leaves (.bar2Access false off n bs) s { (s.wr F.SEC_STATUS.DENIED 1).inc F.SEC_DENY_CNT.COUNT
      with sent := Emit.completion 0 (List.replicate n 0xFF#8) :: s.sent }) ∧
    (∀ off n (bs : List Nat), 1 ≤ s.hostPriv → n ≤ 2 ^ 34 - (s.rd F.HST_BAR2_WIN.BASE * 2 ^ 20 + off) % 2 ^ 34 →
      ∀ b x, s.busRead 0x86 ((s.rd F.HST_BAR2_WIN.BASE * 2 ^ 20 + off) % 2 ^ 34) n = (.ok b, x) →
      Leaves (.bar2Access false off n bs) s { x with sent := Emit.completion 0 b :: x.sent }) ∧
    (∀ off n (bs : List Nat), s.hostPriv = 3 →
      bs.length ≤ 2 ^ 34 - (s.rd F.HST_BAR2_WIN.BASE * 2 ^ 20 + off) % 2 ^ 34 →
      Leaves (.bar2Access true off n bs) s
        (s.busWrite 0x86 ((s.rd F.HST_BAR2_WIN.BASE * 2 ^ 20 + off) % 2 ^ 34) (bs.map (BitVec.ofNat 8))).2) ∧
    (∀ req, s.hostUp = false ∨ s.boot.tripped = true → Leaves (.outboundTimeout req) s s) ∧
    (s.hostUp = true → s.boot.tripped = false →
      (∀ req, (0x10 < req ∧ req < 0x20) ∨ (0x24 ≤ req ∧ req < 0x40) ∨ 0x84 < req → Leaves (.outboundTimeout req) s s) ∧
      Leaves (.outboundTimeout 0x84) s (if s.fsHost then s.memFault 0x23 0x84 else s) ∧
      (∀ n, n ≤ 0x10 →
        ((s.engS n).live = false ∨ s.vActive n ≤ (s.engS n).linesOut → Leaves (.outboundTimeout n) s s) ∧
        ((s.engS n).live = true → (s.engS n).linesOut < s.vActive n → Runs (.outboundTimeout n) s (fun t =>
          (∃ k, (s.engS n).linesOut ≤ k ∧ k < s.vActive n ∧ (t.engS n).poison =
            (if (s.engS n).poison.contains k then (s.engS n).poison else k :: (s.engS n).poison)) ∧
          (∀ m, m ≠ n → t.engS m = s.engS m) ∧ t.mem = s.mem ∧ t.cores = s.cores ∧ RegsKept s t []))) ∧
      (∀ c, c < 4 →
        (s.loadWord c = none → Leaves (.outboundTimeout (0x20 + c)) s s) ∧
        (∀ w, s.loadWord c = some w → s.hostLoad c w = none → Leaves (.outboundTimeout (0x20 + c)) s s) ∧
        (∀ w a, s.loadWord c = some w → s.hostLoad c w = some a → s.coreExc c = false → (s.coreS c).haltReq = 0 →
          s.on (F.CPUn_CTRL.RESET c) = false → Enters (.outboundTimeout (0x20 + c)) s c 4 (s.coreS c).pc (some a) 0)) ∧
      ((∀ n, n < 17 → ∀ b, (s.engS n).checking = some b → hostAddr b = false) → Leaves (.outboundTimeout 0x82) s s) ∧
      (∀ n b, n < 17 → (s.engS n).checking = some b → hostAddr b = true →
        (∀ m, m < n → ∀ b, (s.engS m).checking = some b → hostAddr b = false) → Runs (.outboundTimeout 0x82) s (fun t =>
          t.rd (F.ENGn_SCHED_STATUS.LD_STATE n) = 3 ∧ t.rd (F.ENGn_SCHED_STATUS.ERR n) = 0x12 ∧
          (t.engS n).checking = none ∧ (t.engS n).ready = none ∧ (t.engS n).active = (s.engS n).active ∧ t.mem = s.mem ∧
          t.cores = s.cores)) ∧
      (s.outAudList = [] → Leaves (.outboundTimeout 0x83) s s) ∧
      (s.outAudList ≠ [] → Runs (.outboundTimeout 0x83) s (fun t => (∃ e ∈ s.outAudList,
        (e.1 = 0 → t.on F.AUD_STATUS.CFG_REJECT = true) ∧
        (e.1 = 1 → (s.voiceS e.2).buf.any (fun b => hostAddr (32 * b.1)) = true →
        ∃ b, Tbl.find (t.voiceS e.2).buf b = some []) ∧ (e.1 = 2 → (t.busS e.2).dlyBad = true)) ∧
        t.mem = s.mem ∧ t.cores = s.cores ∧ RegsKept s t [R.AUD_STATUS])) ∧
      (let u := s.bltTo
       (u.blt.run = none → Leaves (.outboundTimeout 0x80) s u) ∧
       (∀ b, u.blt.run = some b →
        (b.rows < b.height → hostAddr (bltSrc b.words) = true ∨ hostAddr (bltDst b.words) = true →
          Runs (.outboundTimeout 0x80) s (fun t => t.blt = { u.blt with run := some { b with err := true } } ∧
            t.mem = u.mem ∧ t.cores = u.cores ∧ RegsKept u t [])) ∧
        (b.height ≤ b.rows ∨ (hostAddr (bltSrc b.words) = false ∧ hostAddr (bltDst b.words) = false) →
          Leaves (.outboundTimeout 0x80) s u))) ∧
      (∀ n, n < 64 →
        ((s.dmaS n).phase = .move → hostAddr ((s.dmaS n).desc.srcAt (s.dmaS n).pos) = true →
          Runs (.outboundTimeout (0x40 + n)) s (fun t => t.dmaS n = { s.dmaS n with phase := .error } ∧
            (∀ m, m ≠ n → t.dmaS m = s.dmaS m) ∧ t.mem = s.mem ∧ t.cores = s.cores ∧ RegsKept s t [])) ∧
        ((s.dmaS n).phase ≠ .move → (s.dmaS n).phase ≠ .fetch → Leaves (.outboundTimeout (0x40 + n)) s s)) ∧
      (s.obj.left = 0 ∨ hostAddr s.obj.src = false → Leaves (.outboundTimeout 0x81) s s) ∧
      (s.obj.left ≠ 0 → hostAddr s.obj.src = true → Runs (.outboundTimeout 0x81) s (fun t => t.obj.left = 0 ∧
        t.mem = s.mem ∧ t.cores = s.cores)))

/-- The mailbox's order and the completion queues (R480, R481, R485-R487). A doorbell queues the slots that are IDLE or
DONE, in ascending order, and rejects the others. The oldest waiting entry is written at TAIL of a queue with room,
its slot is DONE, and the queue's interrupt falls due by count or at once, or its timer starts; a full queue, or
D3hot, holds it, and the next entry that comes to wait for a full queue sets CQ_FULL; the host's writes stand under
the privilege gate (R429); while the link carries no outbound request it is lost with a decode error (log 75). An
interrupt that falls due is sent, or held while MSI-X is disabled; unmasking a vector sends what it held. -/
def Obligations.CompletionQueues : Prop :=
  ∀ s : State,
    (∀ v, Runs (.mbDoorbell v) s (fun t =>
      (∀ k, k < 8 → t.slotSt k = if v.testBit k && (s.slotSt k == 0 || s.slotSt k == 3) then 1 else s.slotSt k) ∧
      t.hst = { s.hst with order := s.hst.order ++
        (List.range 8).filter (fun k => v.testBit k && (s.slotSt k == 0 || s.slotSt k == 3)) } ∧
      ((∃ k, k < 8 ∧ v.testBit k = true ∧ (s.slotSt k = 1 ∨ s.slotSt k = 2)) → t.on F.HST_STATUS.MB_REJECT = true) ∧
      RegsKept s t [R.HST_MB_STATE, R.HST_STATUS] ∧ t.mem = s.mem ∧ t.cores = s.cores)) ∧
    (s.hst.ents = [] → Leaves .cqEntryWrite s s) ∧
    (∀ k rest, s.hst.ents = k :: rest → s.on F.HST_LINK.D3HOT = true ∨ s.cqFull (s.mbQueue k) = true →
      Leaves .cqEntryWrite s s) ∧
    (∀ k rest, s.hst.ents = k :: rest → k < 8 → s.hostUp = true → s.cqFull (s.mbQueue k) = false →
      let q := s.mbQueue k
      let tail := s.rd (F.HST_CQq_TAIL.TAIL q)
      Runs .cqEntryWrite s (fun t =>
        Emit.hostWrite (s.reg (R.HST_CQq_BASE_LO q) + s.reg (R.HST_CQq_BASE_HI q) * 2 ^ 32 + 16 * tail) (s.cqEntry k q) ∈ t.sent ∧
        t.rd (F.HST_CQq_TAIL.TAIL q) = (tail + 1) % s.cqSize q ∧
        (t.cqS q).phase = (if tail + 1 = s.cqSize q then !(s.cqS q).phase else (s.cqS q).phase) ∧ t.slotSt k = 3 ∧
        t.hst.ents = rest ∧
        (∀ j r, rest = j :: r → t.cqFull (s.mbQueue j) = true → t.on F.HST_STATUS.CQ_FULL = true) ∧
        (s.hst.resetSlot ≠ some k → (s.cqS q).held = false → (s.cqS q).unc + 1 < max 1 (s.rd (F.HST_CQq_MOD.COUNT q)) →
          s.rd (F.HST_CQq_MOD.TIMER q) ≠ 0 → (t.cqS q).unc = (s.cqS q).unc + 1 ∧ (t.cqS q).held = false ∧
          (t.cqS q).timer = some ((s.cqS q).timer.getD s.now)) ∧
        (s.hst.resetSlot ≠ some k → (s.cqS q).held = false → s.on F.HST_LINK.MSIX_EN = true → s.hst.fmask = false →
          s.msixWord (4 * s.rd (F.HST_CQq_CFG.VEC q) + 3) = 0 →
          max 1 (s.rd (F.HST_CQq_MOD.COUNT q)) ≤ (s.cqS q).unc + 1 ∨ s.rd (F.HST_CQq_MOD.TIMER q) = 0 →
          (t.cqS q).unc = 0 ∧ (t.cqS q).timer = none ∧ (t.cqS q).held = false ∧
          t.sent.head? = some (.msix (s.msixWord (4 * s.rd (F.HST_CQq_CFG.VEC q)) +
            s.msixWord (4 * s.rd (F.HST_CQq_CFG.VEC q) + 1) * 2 ^ 32) (s.msixWord (4 * s.rd (F.HST_CQq_CFG.VEC q) + 2)))) ∧
        RegsKept s t [R.HST_MB_STATE, R.HST_CQq_TAIL q, R.HST_LINK, R.HST_STATUS] ∧ t.mem = s.mem ∧
        t.cores = s.cores)) ∧
    (∀ k rest, s.hst.ents = k :: rest → k < 8 → s.hostUp = false → s.on F.HST_LINK.D3HOT = false →
      s.cqFull (s.mbQueue k) = false → Runs .cqEntryWrite s (fun t =>
        t.rd (F.HST_CQq_TAIL.TAIL (s.mbQueue k)) = (s.rd (F.HST_CQq_TAIL.TAIL (s.mbQueue k)) + 1) % s.cqSize (s.mbQueue k) ∧
        t.slotSt k = 3 ∧ t.hst.ents = rest ∧
        t.rd F.MEM_DECODE_CNT.COUNT = min (2 ^ 32 - 1) (s.rd F.MEM_DECODE_CNT.COUNT + 1) ∧
        (∀ e ∈ t.sent, e ∈ s.sent ∨ ∃ a d, e = .msix a d) ∧ t.mem = s.mem ∧ t.cores = s.cores)) ∧
    (∀ c o, (∃ q v, q < 4 ∧ c = Instr.cqHeadWrite q v ∧ o = R.HST_CQq_HEAD q) ∨
        (∃ v, v < 64 ∧ c = Instr.msixUnmask v ∧ o = 0x60000 + 16 * v + 12) →
      (s.boot.sby = 5 → Leaves c s s) ∧
      (s.boot.sby ≠ 5 → hostWrites s.hostPriv o = false →
        Leaves c s ((s.wr F.SEC_STATUS.DENIED 1).inc F.SEC_DENY_CNT.COUNT))) ∧
    (∀ q v, q < 4 → s.boot.sby ≠ 5 → hostWrites s.hostPriv (R.HST_CQq_HEAD q) = true →
    Runs (.cqHeadWrite q v) s (fun t =>
      t.rd (F.HST_CQq_HEAD.HEAD q) = v % 2 ^ 16 ∧ t.hst = s.hst ∧
      RegsKept s t [R.HST_CQq_HEAD q] ∧ t.mem = s.mem ∧ t.cores = s.cores)) ∧
    (∀ q, (s.cqS q).timer = none → Leaves (.cqModTimer q) s s) ∧
    (∀ q t0, (s.cqS q).timer = some t0 → q < 4 → Runs (.cqModTimer q) s (fun t =>
      t.now = max s.now (t0 + s.rd (F.HST_CQq_MOD.TIMER q) * 600) ∧ (t.cqS q).unc = 0 ∧ (t.cqS q).timer = none ∧
      (s.on F.HST_LINK.MSIX_EN = false → (t.cqS q).held = true) ∧
      (s.on F.HST_LINK.MSIX_EN = true → s.on F.HST_LINK.D3HOT = false → s.hst.fmask = false →
        s.msixWord (4 * s.rd (F.HST_CQq_CFG.VEC q) + 3) = 0 → (t.cqS q).held = false ∧
        t.sent = .msix (s.msixWord (4 * s.rd (F.HST_CQq_CFG.VEC q)) + s.msixWord (4 * s.rd (F.HST_CQq_CFG.VEC q) + 1) * 2 ^ 32)
          (s.msixWord (4 * s.rd (F.HST_CQq_CFG.VEC q) + 2)) :: s.sent) ∧
      RegsKept s t [R.HST_LINK] ∧ t.mem = s.mem ∧ t.cores = s.cores)) ∧
    (∀ v, v < 64 → s.boot.sby ≠ 5 → hostWrites s.hostPriv (0x60000 + 16 * v + 12) = true →
    Runs (.msixUnmask v) s (fun t =>
      t.msixWord (4 * v + 3) = 0 ∧
      (∀ q, q < 4 → (s.cqS q).held = true → s.rd (F.HST_CQq_CFG.VEC q) = v → s.on F.HST_LINK.MSIX_EN = true →
        s.on F.HST_LINK.D3HOT = false → s.hst.fmask = false → (t.cqS q).held = false) ∧
      RegsKept s t [R.HST_LINK] ∧ t.mem = s.mem ∧ t.cores = s.cores))

/-- The firmware, flash and reset commands of the mailbox (R480-R484), no close being outstanding. A firmware code that
READY does not admit, or an unknown code, gives RESULT CODE; one that passes its checks loads HST_FW_CMD and waits
for HST_FW_DONE, which answers it. FLASH_ERASE, FLASH_WRITE and FLASH_READ within the flash act on the flash bytes
they name and answer OK; else they answer FAIL and change nothing. DEVICE_RESET answers OK, and the reset falls due. -/
def Obligations.FirmwareAndFlashCommands : Prop :=
  ∀ (s : State) (k : Nat), k < 8 → s.sec.closing = [] →
    (s.mbNext ≠ some k ∨ coreCode (s.mbCode k) = true → Leaves (.fwCommand k) s s) ∧
    (s.mbNext = some k → coreCode (s.mbCode k) = false →
      (s.mbLen k ≤ 1008 → s.mbCode k < 0x40 ∨ 0x7F < s.mbCode k ∨ s.on F.HST_FW_CTRL.READY = false →
        Runs (.fwCommand k) s (fun t => t.mbBytes k 4 4 = [2#8, 0#8, 0#8, 0#8] ∧ t.sec = s.sec ∧
          t.slotSt k = (if s.on (F.HST_CQq_CFG.EN (s.mbQueue k)) then 2 else 3) ∧ t.mem = s.mem ∧ t.cores = s.cores)) ∧
      (∀ i, s.mbLen k ≤ 1008 → 0x40 ≤ s.mbCode k → s.mbCode k ≤ 0x7F → s.on F.HST_FW_CTRL.READY = true →
        s.mbTagged k = true → s.tagCheck k (fwPriv (s.mbCode k)) = .inr i → Runs (.fwCommand k) s (fun t =>
          t.rd F.HST_FW_CMD.SLOT = k ∧ t.rd F.HST_FW_CMD.PRIV = s.rd (F.SEC_SESSs_CTRL.PRIV i) ∧
          t.rd F.HST_FW_CMD.SESS = i ∧
          t.rd F.HST_FW_CMD.CODE = s.mbCode k ∧ t.rd F.HST_FW_CMD.LEN = s.mbLen k - 32 ∧
          t.on F.HST_STATUS.FW_CMD = true ∧
          t.hst.fw = true ∧ t.hst.exec = some k ∧ t.slotSt k = 2 ∧
          t.rd (F.SEC_SESSs_SEQ.SEQ i) = leVal (s.mbBytes k 0x14 4) ∧ t.mem = s.mem ∧ t.cores = s.cores))) ∧
    (∀ v, s.hst.exec = none ∨ s.hst.fw = false → Leaves (.fwDone v) s s) ∧
    (∀ v, s.hst.exec = some k → s.hst.fw = true → s.sec.busy = none ∨ s.mbTagged k = true → Runs (.fwDone v) s (fun t =>
      s.Answered t k (s.envelope k s.sec.busy
        (s.mbBytes k (s.mbBody k) (min (bitsOf v 0 10) (if s.mbTagged k then 976 else 1008)))) ∧ t.hst.fw = false)) ∧
    (∀ c code, (c, code) ∈ [(Instr.flashErase k, 0x30), (.flashWrite k, 0x31), (.flashRead k, 0x32), (.deviceReset k,
      0x33)] →
      (s.mbNext ≠ some k ∨ s.mbCode k ≠ code → Leaves c s (if code ≤ 0x31 then s.showDue else s)) ∧
      (s.mbNext = some k → s.mbCode k = code → s.mbLen k ≤ 1008 → s.mbTagged k = false → s.flashFree = false →
        Runs c s (fun t => s.Answered t k [6#8] ∧ t.boot.flash = s.boot.flash))) ∧
    (∀ i, s.mbNext = some k → s.mbLen k ≤ 1008 →
      let o := leAt (s.mbBytes k (s.mbBody k) 8) 0 4
      let n := leAt (s.mbBytes k (s.mbBody k) 8) 4 4
      let by_ := fun priv => (s.mbTagged k = false ∧ s.flashFree = true ∧ i = none) ∨
        (s.mbTagged k = true ∧ ∃ j, s.tagCheck k priv = .inr j ∧ i = some j)
      (s.mbCode k = 0x30 → by_ 3 →
        (s.showDue.flashBusy = true ∨ o % 65536 ≠ 0 ∨ n % 65536 ≠ 0 ∨ s.flashSize < o + n →
        Runs (.flashErase k) s (fun t =>
          s.Answered t k (s.envelope k i [11#8]) ∧ t.boot.flash = s.boot.flash)) ∧
        (s.showDue.flashBusy = false → o % 65536 = 0 → n % 65536 = 0 → o + n ≤ s.flashSize →
        Runs (.flashErase k) s (fun t =>
          s.Answered t k (s.envelope k i [0#8, 0#8, 0#8, 0#8]) ∧
          ∀ a, Tbl.get 0xFF#8 t.boot.flash a = if o ≤ a ∧ a < o + n then 0xFF#8 else Tbl.get 0xFF#8 s.boot.flash a))) ∧
      (s.mbCode k = 0x31 → by_ 3 →
        (s.showDue.flashBusy = true ∨ n = 0 ∨ 960 < n ∨ s.flashSize < o + n → Runs (.flashWrite k) s (fun t =>
          s.Answered t k (s.envelope k i [11#8]) ∧ t.boot.flash = s.boot.flash)) ∧
        (s.showDue.flashBusy = false → 1 ≤ n → n ≤ 960 → o + n ≤ s.flashSize → Runs (.flashWrite k) s (fun t =>
          s.Answered t k (s.envelope k i [0#8, 0#8, 0#8, 0#8]) ∧ t.flashBytes o n = s.mbBytes k (s.mbBody k + 8) n ∧
          ∀ a, a < o ∨ o + n ≤ a → Tbl.get 0xFF#8 t.boot.flash a = Tbl.get 0xFF#8 s.boot.flash a))) ∧
      (s.mbCode k = 0x32 → by_ 1 →
        (n = 0 ∨ 960 < n ∨ s.flashSize < o + n → Runs (.flashRead k) s (fun t =>
          s.Answered t k (s.envelope k i [11#8]) ∧ t.boot.flash = s.boot.flash)) ∧
        (1 ≤ n → n ≤ 960 → o + n ≤ s.flashSize → Runs (.flashRead k) s (fun t =>
          s.Answered t k (s.envelope k i ([0#8, 0#8, 0#8, 0#8] ++ s.flashBytes o n)) ∧ t.boot.flash = s.boot.flash))) ∧
      (s.mbCode k = 0x33 → by_ 3 → Runs (.deviceReset k) s (fun t =>
        s.Answered t k (s.envelope k i [0#8, 0#8, 0#8, 0#8]) ∧
        (s.on (F.HST_CQq_CFG.EN (s.mbQueue k)) = false → t.hst.resetAt = some (s.now + 600000) ∧
        t.hst.resetSlot = none) ∧
        (s.on (F.HST_CQq_CFG.EN (s.mbQueue k)) = true → t.hst.resetSlot = some k ∧ t.hst.resetAt = s.hst.resetAt) ∧
        t.boot.flash = s.boot.flash)))

/-- Writes and reads of register space (R13-R18, R32, R429, R477). In Standby nothing is there to write. A misaligned
access is a decode error without effect, and through BAR0 it is dropped with BAD_ACCESS, a read with Unsupported
Request. A host access that its privilege does not admit sets DENIED and counts; such a read returns ones. A read
goes to `rdata` (log 76), and to the host in a completion. Where the write is admitted: an RW field takes the value,
and bits outside every field stay; a 1 clears a W1C bit that hardware does not set in the same cycle; an RO register
keeps its value; an RWS field changes its shadow, and its active value follows at once only while no ticks come; an
unassigned offset ignores the write. -/
def Obligations.RegisterWrites : Prop :=
  ∀ (s : State) (req v : Nat),
    (∀ o, o % 4 = 0 → s.boot.sby = 5 → Leaves (.regWrite req o (some v)) s s) ∧
    (∀ o, o % 4 ≠ 0 → req = 0x86 → Leaves (.regWrite req o (some v)) s (s.hwSet F.HST_STATUS.BAD_ACCESS)) ∧
    (∀ o, o % 4 ≠ 0 → req ≠ 0x86 → Runs (.regWrite req o (some v)) s (fun t =>
      t.rd F.MEM_DECODE_CNT.COUNT = min (2 ^ 32 - 1) (s.rd F.MEM_DECODE_CNT.COUNT + 1) ∧
      RegsKept s t [R.MEM_DECODE_CNT, R.MEM_LOG_STATUS, R.MEM_STATUS] ∧ t.mem = s.mem ∧ t.cores = s.cores)) ∧
    (∀ o, o % 4 ≠ 0 → req = 0x86 → Leaves (.regWrite req o none) s { s.hwSet F.HST_STATUS.BAD_ACCESS with
      sent := Emit.completion 2 [] :: s.sent, hst := { s.hst with cfg := { s.hst.cfg with unsupported := true } } }) ∧
    (∀ o, o % 4 ≠ 0 → req ≠ 0x86 → Runs (.regWrite req o none) s (fun t =>
      t.rd F.MEM_DECODE_CNT.COUNT = min (2 ^ 32 - 1) (s.rd F.MEM_DECODE_CNT.COUNT + 1) ∧ t.rdata = s.rdata ∧
      RegsKept s t [R.MEM_DECODE_CNT, R.MEM_LOG_STATUS, R.MEM_STATUS] ∧ t.mem = s.mem ∧ t.cores = s.cores)) ∧
    (∀ o, o % 4 = 0 → s.boot.sby ≠ 5 → s.hostPriv = 0 → hostReads o = false → Runs (.regWrite 0x86 o none) s (fun t =>
      t.rdata = 0xFFFFFFFF ∧ t.sent = Emit.completion 0 [0xFF#8, 0xFF#8, 0xFF#8, 0xFF#8] :: s.sent ∧
      t.on F.SEC_STATUS.DENIED = true ∧ t.rd F.SEC_DENY_CNT.COUNT = min (2 ^ 32 - 1) (s.rd F.SEC_DENY_CNT.COUNT + 1) ∧
      RegsKept s t [R.SEC_STATUS, R.SEC_DENY_CNT] ∧ t.mem = s.mem ∧ t.cores = s.cores)) ∧
    (∀ n, n < 16 → s.boot.sby ≠ 5 → (req = 0x86 → s.hostPriv ≠ 0) →
    Runs (.regWrite req (R.CLVn_CLKDIV n) none) s (fun t =>
      t.rdata = s.reg (R.CLVn_CLKDIV n) % 2 ^ 32 ∧ (req ≠ 0x86 → t.sent = s.sent) ∧
      (req = 0x86 → t.sent = Emit.completion 0 (leBytes 4 (s.reg (R.CLVn_CLKDIV n))) :: s.sent) ∧
      RegsKept (s.clvFollow n) t [] ∧ t.mem = s.mem ∧ t.cores = s.cores)) ∧
    (∀ o, o % 4 = 0 → s.boot.sby ≠ 5 → req = 0x86 → hostWrites s.hostPriv o = false →
    Runs (.regWrite req o (some v)) s (fun t =>
      t.on F.SEC_STATUS.DENIED = true ∧ t.rd F.SEC_DENY_CNT.COUNT = min (2 ^ 32 - 1) (s.rd F.SEC_DENY_CNT.COUNT + 1) ∧
      RegsKept s t [R.SEC_STATUS, R.SEC_DENY_CNT] ∧ t.mem = s.mem ∧ t.cores = s.cores)) ∧
    (s.boot.sby ≠ 5 → (req = 0x86 → s.hostPriv = 3) →
      (∀ n, n < 16 →
      Runs (.regWrite req (R.CLVn_CLKDIV n) (some v)) s (fun t => t.rd (F.CLVn_CLKDIV.FRAC n) = bitsOf v 0 8 ∧
        t.rd (F.CLVn_CLKDIV.INT n) = bitsOf v 8 16 ∧
        bitsOf (t.reg (R.CLVn_CLKDIV n)) 24 8 = bitsOf (s.reg (R.CLVn_CLKDIV n)) 24 8 ∧
        RegsKept (s.clvFollow n) t [R.CLVn_CLKDIV n] ∧ t.clv = (s.clvFollow n).clv ∧ t.mem = s.mem ∧
        t.cores = s.cores)) ∧
      Runs (.regWrite req R.HST_STATUS (some v)) s (fun t => (∀ j, j < 6 → (t.reg R.HST_STATUS).testBit j =
          ((s.reg R.HST_STATUS).testBit j && (!v.testBit j || (s.setNow R.HST_STATUS).testBit j))) ∧
          RegsKept s t [R.HST_STATUS] ∧ t.mem = s.mem ∧
        t.cores = s.cores) ∧
      (∀ q, q < 4 → Runs (.regWrite req (R.HST_CQq_TAIL q) (some v)) s (fun t =>
        t.rd (F.HST_CQq_TAIL.TAIL q) = s.rd (F.HST_CQq_TAIL.TAIL q) ∧ RegsKept s t [R.HST_CQq_TAIL q] ∧ t.hst = s.hst ∧
        t.mem = s.mem ∧ t.cores = s.cores)) ∧
      (∀ n, n < 16 → Runs (.regWrite req (R.ENGn_BACKDROP0 n) (some v)) s (fun t =>
        t.rd (F.ENGn_BACKDROP0.B n) = bitsOf v 0 12 ∧ t.rd (F.ENGn_BACKDROP0.G n) = bitsOf v 12 12 ∧
        t.act (F.ENGn_BACKDROP0.B n) = (if s.running then s.act (F.ENGn_BACKDROP0.B n) else bitsOf v 0 12) ∧
        t.act (F.ENGn_BACKDROP0.G n) = (if s.running then s.act (F.ENGn_BACKDROP0.G n) else bitsOf v 12 12) ∧
        RegsKept s t [R.ENGn_BACKDROP0 n, R.ENGn_BACKDROP0 16] ∧ t.mem = s.mem ∧ t.cores = s.cores)) ∧
      (∀ o, o % 4 = 0 → (0x14000 ≤ o ∧ o < 0x20000) ∨ (0x210000 ≤ o ∧ o < 0x300000) ∨ (0x410000 ≤ o ∧ o < 0x500000) ∨
        (0x780000 ≤ o ∧ o < 0x800000) → Leaves (.regWrite req o (some v)) s s))

/-- A step takes the command at the front of the queue and runs it with the queue's rest. On an empty queue one ECLK
cycle passes (the empty queue is the model's choice, log 2): nothing else changes but what the Sluice does by then. -/
def Obligations.StepTakesTheFrontCommand : Prop :=
  (∀ (s : State) (c : Instr) (rest : List Instr), s.pending = c :: rest → step s = exec c { s with pending := rest }) ∧
  (∀ s : State, s.pending = [] → s.Calm → ∃ t, step s = .next t ∧ ({ s with now := s.now + 1 } : State).Quiet t ∧
    (s.slc.act = [] → t = { s with now := s.now + 1 }))

/-- Every step from a calm state ends in one: all faults of a cycle are taken in that cycle, and taking them raises none
(R463); the pulses of a command have risen, and what is due in the fabric by the time at hand has happened (R362,
R371). -/
def Obligations.StepsEndCalm : Prop :=
  ∀ s t : State, s.Calm → step s = .next t → t.Calm

/-- The machine after reset (R16, R22, R104, R378, R404, R461, R517): the values of the Reset columns in some registers
of each block, memory that lists nothing, in canonical form, no command waiting, no fault raised, no pulse high. -/
def Obligations.ResetState : Prop :=
  State.reset.pending = [] ∧ State.reset.mem = [] ∧ Memory.wf State.reset.mem = true ∧ State.reset.Calm ∧
  State.reset.rd F.ENG_TICK_PERIOD.PERIOD = 10000000 ∧ State.reset.on F.ENG_TICK_CTRL.RUN = false ∧
  State.reset.rd F.BOOT_STATUS.PHASE = 0 ∧ State.reset.rd F.SEC_SESS_CFG.TIMEOUT = 300 ∧
  State.reset.rd F.SEC_SESS_CFG.NONCE_TTL = 10 ∧ State.reset.rd F.FLT_QUIET.MS = 2000 ∧
  State.reset.rd F.FLT_PIN.MINW = 100 ∧
  State.reset.on F.FLT_CTRL.AUTO = true ∧ State.reset.rd F.FLT_ESC_CAP.CAP = 0xFFFF ∧
  State.reset.rd F.FLT_THERM.HOT = 0x6400 ∧
  (∀ e ∈ faultTable, State.reset.rd (F.FLT_SRCs_CFG.SEV e.1) = e.2.2 ∧ State.reset.on (F.FLT_SRCs_CFG.EN e.1) = true) ∧
  (∀ n, n < 16 → State.reset.rd (F.CLVn_WRAP.TOP n) = 31 ∧ State.reset.rd (F.CLVn_CLKDIV.INT n) = 1 ∧
    (State.reset.tmrS n).period = 2 ^ 64 - 1 ∧ State.reset.rd (F.TMRn_CTRL.DBG_CORE n) = 0xF) ∧
  (∀ p, p < 96 → State.reset.func p = 0) ∧ State.reset.cores = [] ∧ State.reset.now = 0
end

