-- ==== Sys2Proof/Laws/State.lean ====
section
/-! SUPPORT. What each update of the state leaves unchanged: one lemma per field per update. -/

namespace Sys2Proof.Machine

variable (s : State)

@[simp] theorem State.modCyc_now (f : CycS → CycS) : (s.modCyc f).now = s.now := rfl
@[simp] theorem State.modCyc_gib (f : CycS → CycS) : (s.modCyc f).gib = s.gib := rfl
@[simp] theorem State.modCyc_regs (f : CycS → CycS) : (s.modCyc f).regs = s.regs := rfl
@[simp] theorem State.modCyc_ovr (f : CycS → CycS) : (s.modCyc f).ovr = s.ovr := rfl
@[simp] theorem State.modCyc_mem (f : CycS → CycS) : (s.modCyc f).mem = s.mem := rfl
@[simp] theorem State.modCyc_freeCnt (f : CycS → CycS) : (s.modCyc f).freeCnt = s.freeCnt := rfl
@[simp] theorem State.modCyc_raised (f : CycS → CycS) : (s.modCyc f).raised = s.raised := rfl
@[simp] theorem State.modCyc_sent (f : CycS → CycS) : (s.modCyc f).sent = s.sent := rfl
@[simp] theorem State.modCyc_tick (f : CycS → CycS) : (s.modCyc f).tick = s.tick := rfl
@[simp] theorem State.modCyc_eng (f : CycS → CycS) : (s.modCyc f).eng = s.eng := rfl
@[simp] theorem State.modCyc_obj (f : CycS → CycS) : (s.modCyc f).obj = s.obj := rfl
@[simp] theorem State.modCyc_pld (f : CycS → CycS) : (s.modCyc f).pld = s.pld := rfl
@[simp] theorem State.modCyc_ward (f : CycS → CycS) : (s.modCyc f).ward = s.ward := rfl
@[simp] theorem State.modCyc_pvw (f : CycS → CycS) : (s.modCyc f).pvw = s.pvw := rfl
@[simp] theorem State.modCyc_lane (f : CycS → CycS) : (s.modCyc f).lane = s.lane := rfl
@[simp] theorem State.modCyc_port (f : CycS → CycS) : (s.modCyc f).port = s.port := rfl
@[simp] theorem State.modCyc_tile (f : CycS → CycS) : (s.modCyc f).tile = s.tile := rfl
@[simp] theorem State.modCyc_chain (f : CycS → CycS) : (s.modCyc f).chain = s.chain := rfl
@[simp] theorem State.modCyc_sec (f : CycS → CycS) : (s.modCyc f).sec = s.sec := rfl
@[simp] theorem State.modCyc_memc (f : CycS → CycS) : (s.modCyc f).memc = s.memc := rfl
@[simp] theorem State.modCyc_slc (f : CycS → CycS) : (s.modCyc f).slc = s.slc := rfl
@[simp] theorem State.modCyc_flt (f : CycS → CycS) : (s.modCyc f).flt = s.flt := rfl
@[simp] theorem State.modCyc_blt (f : CycS → CycS) : (s.modCyc f).blt = s.blt := rfl
@[simp] theorem State.modCyc_dma (f : CycS → CycS) : (s.modCyc f).dma = s.dma := rfl
@[simp] theorem State.modCyc_dmaServed (f : CycS → CycS) : (s.modCyc f).dmaServed = s.dmaServed := rfl
@[simp] theorem State.modCyc_boot (f : CycS → CycS) : (s.modCyc f).boot = s.boot := rfl
@[simp] theorem State.modCyc_cores (f : CycS → CycS) : (s.modCyc f).cores = s.cores := rfl
@[simp] theorem State.modCyc_irqStk (f : CycS → CycS) : (s.modCyc f).irqStk = s.irqStk := rfl
@[simp] theorem State.modCyc_pin (f : CycS → CycS) : (s.modCyc f).pin = s.pin := rfl
@[simp] theorem State.modCyc_tickOut (f : CycS → CycS) : (s.modCyc f).tickOut = s.tickOut := rfl
@[simp] theorem State.modCyc_clv (f : CycS → CycS) : (s.modCyc f).clv = s.clv := rfl
@[simp] theorem State.modCyc_tmr (f : CycS → CycS) : (s.modCyc f).tmr = s.tmr := rfl
@[simp] theorem State.modCyc_aud (f : CycS → CycS) : (s.modCyc f).aud = s.aud := rfl
@[simp] theorem State.modCyc_hst (f : CycS → CycS) : (s.modCyc f).hst = s.hst := rfl
@[simp] theorem State.modCyc_rdata (f : CycS → CycS) : (s.modCyc f).rdata = s.rdata := rfl
@[simp] theorem State.modCyc_pending (f : CycS → CycS) : (s.modCyc f).pending = s.pending := rfl

@[simp] theorem State.arrive_now (k i : Nat) : (s.arrive k i).now = s.now := rfl
@[simp] theorem State.arrive_gib (k i : Nat) : (s.arrive k i).gib = s.gib := rfl
@[simp] theorem State.arrive_regs (k i : Nat) : (s.arrive k i).regs = s.regs := rfl
@[simp] theorem State.arrive_ovr (k i : Nat) : (s.arrive k i).ovr = s.ovr := rfl
@[simp] theorem State.arrive_mem (k i : Nat) : (s.arrive k i).mem = s.mem := rfl
@[simp] theorem State.arrive_freeCnt (k i : Nat) : (s.arrive k i).freeCnt = s.freeCnt := rfl
@[simp] theorem State.arrive_raised (k i : Nat) : (s.arrive k i).raised = s.raised := rfl
@[simp] theorem State.arrive_sent (k i : Nat) : (s.arrive k i).sent = s.sent := rfl
@[simp] theorem State.arrive_tick (k i : Nat) : (s.arrive k i).tick = s.tick := rfl
@[simp] theorem State.arrive_eng (k i : Nat) : (s.arrive k i).eng = s.eng := rfl
@[simp] theorem State.arrive_obj (k i : Nat) : (s.arrive k i).obj = s.obj := rfl
@[simp] theorem State.arrive_pld (k i : Nat) : (s.arrive k i).pld = s.pld := rfl
@[simp] theorem State.arrive_ward (k i : Nat) : (s.arrive k i).ward = s.ward := rfl
@[simp] theorem State.arrive_pvw (k i : Nat) : (s.arrive k i).pvw = s.pvw := rfl
@[simp] theorem State.arrive_lane (k i : Nat) : (s.arrive k i).lane = s.lane := rfl
@[simp] theorem State.arrive_port (k i : Nat) : (s.arrive k i).port = s.port := rfl
@[simp] theorem State.arrive_tile (k i : Nat) : (s.arrive k i).tile = s.tile := rfl
@[simp] theorem State.arrive_chain (k i : Nat) : (s.arrive k i).chain = s.chain := rfl
@[simp] theorem State.arrive_sec (k i : Nat) : (s.arrive k i).sec = s.sec := rfl
@[simp] theorem State.arrive_memc (k i : Nat) : (s.arrive k i).memc = s.memc := rfl
@[simp] theorem State.arrive_slc (k i : Nat) : (s.arrive k i).slc = s.slc := rfl
@[simp] theorem State.arrive_flt (k i : Nat) : (s.arrive k i).flt = s.flt := rfl
@[simp] theorem State.arrive_blt (k i : Nat) : (s.arrive k i).blt = s.blt := rfl
@[simp] theorem State.arrive_dma (k i : Nat) : (s.arrive k i).dma = s.dma := rfl
@[simp] theorem State.arrive_dmaServed (k i : Nat) : (s.arrive k i).dmaServed = s.dmaServed := rfl
@[simp] theorem State.arrive_boot (k i : Nat) : (s.arrive k i).boot = s.boot := rfl
@[simp] theorem State.arrive_cores (k i : Nat) : (s.arrive k i).cores = s.cores := rfl
@[simp] theorem State.arrive_irqStk (k i : Nat) : (s.arrive k i).irqStk = s.irqStk := rfl
@[simp] theorem State.arrive_pin (k i : Nat) : (s.arrive k i).pin = s.pin := rfl
@[simp] theorem State.arrive_tickOut (k i : Nat) : (s.arrive k i).tickOut = s.tickOut := rfl
@[simp] theorem State.arrive_clv (k i : Nat) : (s.arrive k i).clv = s.clv := rfl
@[simp] theorem State.arrive_tmr (k i : Nat) : (s.arrive k i).tmr = s.tmr := rfl
@[simp] theorem State.arrive_aud (k i : Nat) : (s.arrive k i).aud = s.aud := rfl
@[simp] theorem State.arrive_hst (k i : Nat) : (s.arrive k i).hst = s.hst := rfl
@[simp] theorem State.arrive_rdata (k i : Nat) : (s.arrive k i).rdata = s.rdata := rfl
@[simp] theorem State.arrive_pending (k i : Nat) : (s.arrive k i).pending = s.pending := rfl

@[simp] theorem State.hwSet_now (f : Fld) : (s.hwSet f).now = s.now := rfl
@[simp] theorem State.hwSet_gib (f : Fld) : (s.hwSet f).gib = s.gib := rfl
@[simp] theorem State.hwSet_ovr (f : Fld) : (s.hwSet f).ovr = s.ovr := rfl
@[simp] theorem State.hwSet_mem (f : Fld) : (s.hwSet f).mem = s.mem := rfl
@[simp] theorem State.hwSet_freeCnt (f : Fld) : (s.hwSet f).freeCnt = s.freeCnt := rfl
@[simp] theorem State.hwSet_raised (f : Fld) : (s.hwSet f).raised = s.raised := rfl
@[simp] theorem State.hwSet_sent (f : Fld) : (s.hwSet f).sent = s.sent := rfl
@[simp] theorem State.hwSet_tick (f : Fld) : (s.hwSet f).tick = s.tick := rfl
@[simp] theorem State.hwSet_eng (f : Fld) : (s.hwSet f).eng = s.eng := rfl
@[simp] theorem State.hwSet_obj (f : Fld) : (s.hwSet f).obj = s.obj := rfl
@[simp] theorem State.hwSet_pld (f : Fld) : (s.hwSet f).pld = s.pld := rfl
@[simp] theorem State.hwSet_ward (f : Fld) : (s.hwSet f).ward = s.ward := rfl
@[simp] theorem State.hwSet_pvw (f : Fld) : (s.hwSet f).pvw = s.pvw := rfl
@[simp] theorem State.hwSet_lane (f : Fld) : (s.hwSet f).lane = s.lane := rfl
@[simp] theorem State.hwSet_port (f : Fld) : (s.hwSet f).port = s.port := rfl
@[simp] theorem State.hwSet_tile (f : Fld) : (s.hwSet f).tile = s.tile := rfl
@[simp] theorem State.hwSet_chain (f : Fld) : (s.hwSet f).chain = s.chain := rfl
@[simp] theorem State.hwSet_sec (f : Fld) : (s.hwSet f).sec = s.sec := rfl
@[simp] theorem State.hwSet_memc (f : Fld) : (s.hwSet f).memc = s.memc := rfl
@[simp] theorem State.hwSet_slc (f : Fld) : (s.hwSet f).slc = s.slc := rfl
@[simp] theorem State.hwSet_flt (f : Fld) : (s.hwSet f).flt = s.flt := rfl
@[simp] theorem State.hwSet_blt (f : Fld) : (s.hwSet f).blt = s.blt := rfl
@[simp] theorem State.hwSet_dma (f : Fld) : (s.hwSet f).dma = s.dma := rfl
@[simp] theorem State.hwSet_dmaServed (f : Fld) : (s.hwSet f).dmaServed = s.dmaServed := rfl
@[simp] theorem State.hwSet_boot (f : Fld) : (s.hwSet f).boot = s.boot := rfl
@[simp] theorem State.hwSet_cores (f : Fld) : (s.hwSet f).cores = s.cores := rfl
@[simp] theorem State.hwSet_irqStk (f : Fld) : (s.hwSet f).irqStk = s.irqStk := rfl
@[simp] theorem State.hwSet_pin (f : Fld) : (s.hwSet f).pin = s.pin := rfl
@[simp] theorem State.hwSet_tickOut (f : Fld) : (s.hwSet f).tickOut = s.tickOut := rfl
@[simp] theorem State.hwSet_clv (f : Fld) : (s.hwSet f).clv = s.clv := rfl
@[simp] theorem State.hwSet_tmr (f : Fld) : (s.hwSet f).tmr = s.tmr := rfl
@[simp] theorem State.hwSet_aud (f : Fld) : (s.hwSet f).aud = s.aud := rfl
@[simp] theorem State.hwSet_hst (f : Fld) : (s.hwSet f).hst = s.hst := rfl
@[simp] theorem State.hwSet_rdata (f : Fld) : (s.hwSet f).rdata = s.rdata := rfl
@[simp] theorem State.hwSet_pending (f : Fld) : (s.hwSet f).pending = s.pending := rfl

@[simp] theorem State.hwSetBit_now (f : Fld) (i : Nat) : (s.hwSetBit f i).now = s.now := rfl
@[simp] theorem State.hwSetBit_gib (f : Fld) (i : Nat) : (s.hwSetBit f i).gib = s.gib := rfl
@[simp] theorem State.hwSetBit_ovr (f : Fld) (i : Nat) : (s.hwSetBit f i).ovr = s.ovr := rfl
@[simp] theorem State.hwSetBit_mem (f : Fld) (i : Nat) : (s.hwSetBit f i).mem = s.mem := rfl
@[simp] theorem State.hwSetBit_freeCnt (f : Fld) (i : Nat) : (s.hwSetBit f i).freeCnt = s.freeCnt := rfl
@[simp] theorem State.hwSetBit_raised (f : Fld) (i : Nat) : (s.hwSetBit f i).raised = s.raised := rfl
@[simp] theorem State.hwSetBit_sent (f : Fld) (i : Nat) : (s.hwSetBit f i).sent = s.sent := rfl
@[simp] theorem State.hwSetBit_tick (f : Fld) (i : Nat) : (s.hwSetBit f i).tick = s.tick := rfl
@[simp] theorem State.hwSetBit_eng (f : Fld) (i : Nat) : (s.hwSetBit f i).eng = s.eng := rfl
@[simp] theorem State.hwSetBit_obj (f : Fld) (i : Nat) : (s.hwSetBit f i).obj = s.obj := rfl
@[simp] theorem State.hwSetBit_pld (f : Fld) (i : Nat) : (s.hwSetBit f i).pld = s.pld := rfl
@[simp] theorem State.hwSetBit_ward (f : Fld) (i : Nat) : (s.hwSetBit f i).ward = s.ward := rfl
@[simp] theorem State.hwSetBit_pvw (f : Fld) (i : Nat) : (s.hwSetBit f i).pvw = s.pvw := rfl
@[simp] theorem State.hwSetBit_lane (f : Fld) (i : Nat) : (s.hwSetBit f i).lane = s.lane := rfl
@[simp] theorem State.hwSetBit_port (f : Fld) (i : Nat) : (s.hwSetBit f i).port = s.port := rfl
@[simp] theorem State.hwSetBit_tile (f : Fld) (i : Nat) : (s.hwSetBit f i).tile = s.tile := rfl
@[simp] theorem State.hwSetBit_chain (f : Fld) (i : Nat) : (s.hwSetBit f i).chain = s.chain := rfl
@[simp] theorem State.hwSetBit_sec (f : Fld) (i : Nat) : (s.hwSetBit f i).sec = s.sec := rfl
@[simp] theorem State.hwSetBit_memc (f : Fld) (i : Nat) : (s.hwSetBit f i).memc = s.memc := rfl
@[simp] theorem State.hwSetBit_slc (f : Fld) (i : Nat) : (s.hwSetBit f i).slc = s.slc := rfl
@[simp] theorem State.hwSetBit_flt (f : Fld) (i : Nat) : (s.hwSetBit f i).flt = s.flt := rfl
@[simp] theorem State.hwSetBit_blt (f : Fld) (i : Nat) : (s.hwSetBit f i).blt = s.blt := rfl
@[simp] theorem State.hwSetBit_dma (f : Fld) (i : Nat) : (s.hwSetBit f i).dma = s.dma := rfl
@[simp] theorem State.hwSetBit_dmaServed (f : Fld) (i : Nat) : (s.hwSetBit f i).dmaServed = s.dmaServed := rfl
@[simp] theorem State.hwSetBit_boot (f : Fld) (i : Nat) : (s.hwSetBit f i).boot = s.boot := rfl
@[simp] theorem State.hwSetBit_cores (f : Fld) (i : Nat) : (s.hwSetBit f i).cores = s.cores := rfl
@[simp] theorem State.hwSetBit_irqStk (f : Fld) (i : Nat) : (s.hwSetBit f i).irqStk = s.irqStk := rfl
@[simp] theorem State.hwSetBit_pin (f : Fld) (i : Nat) : (s.hwSetBit f i).pin = s.pin := rfl
@[simp] theorem State.hwSetBit_tickOut (f : Fld) (i : Nat) : (s.hwSetBit f i).tickOut = s.tickOut := rfl
@[simp] theorem State.hwSetBit_clv (f : Fld) (i : Nat) : (s.hwSetBit f i).clv = s.clv := rfl
@[simp] theorem State.hwSetBit_tmr (f : Fld) (i : Nat) : (s.hwSetBit f i).tmr = s.tmr := rfl
@[simp] theorem State.hwSetBit_aud (f : Fld) (i : Nat) : (s.hwSetBit f i).aud = s.aud := rfl
@[simp] theorem State.hwSetBit_hst (f : Fld) (i : Nat) : (s.hwSetBit f i).hst = s.hst := rfl
@[simp] theorem State.hwSetBit_rdata (f : Fld) (i : Nat) : (s.hwSetBit f i).rdata = s.rdata := rfl
@[simp] theorem State.hwSetBit_pending (f : Fld) (i : Nat) : (s.hwSetBit f i).pending = s.pending := rfl

@[simp] theorem State.incRcBy_now (f : Fld) (n : Nat) : (s.incRcBy f n).now = s.now := rfl
@[simp] theorem State.incRcBy_gib (f : Fld) (n : Nat) : (s.incRcBy f n).gib = s.gib := rfl
@[simp] theorem State.incRcBy_ovr (f : Fld) (n : Nat) : (s.incRcBy f n).ovr = s.ovr := rfl
@[simp] theorem State.incRcBy_mem (f : Fld) (n : Nat) : (s.incRcBy f n).mem = s.mem := rfl
@[simp] theorem State.incRcBy_freeCnt (f : Fld) (n : Nat) : (s.incRcBy f n).freeCnt = s.freeCnt := rfl
@[simp] theorem State.incRcBy_raised (f : Fld) (n : Nat) : (s.incRcBy f n).raised = s.raised := rfl
@[simp] theorem State.incRcBy_sent (f : Fld) (n : Nat) : (s.incRcBy f n).sent = s.sent := rfl
@[simp] theorem State.incRcBy_tick (f : Fld) (n : Nat) : (s.incRcBy f n).tick = s.tick := rfl
@[simp] theorem State.incRcBy_eng (f : Fld) (n : Nat) : (s.incRcBy f n).eng = s.eng := rfl
@[simp] theorem State.incRcBy_obj (f : Fld) (n : Nat) : (s.incRcBy f n).obj = s.obj := rfl
@[simp] theorem State.incRcBy_pld (f : Fld) (n : Nat) : (s.incRcBy f n).pld = s.pld := rfl
@[simp] theorem State.incRcBy_ward (f : Fld) (n : Nat) : (s.incRcBy f n).ward = s.ward := rfl
@[simp] theorem State.incRcBy_pvw (f : Fld) (n : Nat) : (s.incRcBy f n).pvw = s.pvw := rfl
@[simp] theorem State.incRcBy_lane (f : Fld) (n : Nat) : (s.incRcBy f n).lane = s.lane := rfl
@[simp] theorem State.incRcBy_port (f : Fld) (n : Nat) : (s.incRcBy f n).port = s.port := rfl
@[simp] theorem State.incRcBy_tile (f : Fld) (n : Nat) : (s.incRcBy f n).tile = s.tile := rfl
@[simp] theorem State.incRcBy_chain (f : Fld) (n : Nat) : (s.incRcBy f n).chain = s.chain := rfl
@[simp] theorem State.incRcBy_sec (f : Fld) (n : Nat) : (s.incRcBy f n).sec = s.sec := rfl
@[simp] theorem State.incRcBy_memc (f : Fld) (n : Nat) : (s.incRcBy f n).memc = s.memc := rfl
@[simp] theorem State.incRcBy_slc (f : Fld) (n : Nat) : (s.incRcBy f n).slc = s.slc := rfl
@[simp] theorem State.incRcBy_flt (f : Fld) (n : Nat) : (s.incRcBy f n).flt = s.flt := rfl
@[simp] theorem State.incRcBy_blt (f : Fld) (n : Nat) : (s.incRcBy f n).blt = s.blt := rfl
@[simp] theorem State.incRcBy_dma (f : Fld) (n : Nat) : (s.incRcBy f n).dma = s.dma := rfl
@[simp] theorem State.incRcBy_dmaServed (f : Fld) (n : Nat) : (s.incRcBy f n).dmaServed = s.dmaServed := rfl
@[simp] theorem State.incRcBy_boot (f : Fld) (n : Nat) : (s.incRcBy f n).boot = s.boot := rfl
@[simp] theorem State.incRcBy_cores (f : Fld) (n : Nat) : (s.incRcBy f n).cores = s.cores := rfl
@[simp] theorem State.incRcBy_irqStk (f : Fld) (n : Nat) : (s.incRcBy f n).irqStk = s.irqStk := rfl
@[simp] theorem State.incRcBy_pin (f : Fld) (n : Nat) : (s.incRcBy f n).pin = s.pin := rfl
@[simp] theorem State.incRcBy_tickOut (f : Fld) (n : Nat) : (s.incRcBy f n).tickOut = s.tickOut := rfl
@[simp] theorem State.incRcBy_clv (f : Fld) (n : Nat) : (s.incRcBy f n).clv = s.clv := rfl
@[simp] theorem State.incRcBy_tmr (f : Fld) (n : Nat) : (s.incRcBy f n).tmr = s.tmr := rfl
@[simp] theorem State.incRcBy_aud (f : Fld) (n : Nat) : (s.incRcBy f n).aud = s.aud := rfl
@[simp] theorem State.incRcBy_hst (f : Fld) (n : Nat) : (s.incRcBy f n).hst = s.hst := rfl
@[simp] theorem State.incRcBy_rdata (f : Fld) (n : Nat) : (s.incRcBy f n).rdata = s.rdata := rfl
@[simp] theorem State.incRcBy_pending (f : Fld) (n : Nat) : (s.incRcBy f n).pending = s.pending := rfl

@[simp] theorem State.incRc_now (f : Fld) : (s.incRc f).now = s.now := rfl
@[simp] theorem State.incRc_gib (f : Fld) : (s.incRc f).gib = s.gib := rfl
@[simp] theorem State.incRc_ovr (f : Fld) : (s.incRc f).ovr = s.ovr := rfl
@[simp] theorem State.incRc_mem (f : Fld) : (s.incRc f).mem = s.mem := rfl
@[simp] theorem State.incRc_freeCnt (f : Fld) : (s.incRc f).freeCnt = s.freeCnt := rfl
@[simp] theorem State.incRc_raised (f : Fld) : (s.incRc f).raised = s.raised := rfl
@[simp] theorem State.incRc_sent (f : Fld) : (s.incRc f).sent = s.sent := rfl
@[simp] theorem State.incRc_tick (f : Fld) : (s.incRc f).tick = s.tick := rfl
@[simp] theorem State.incRc_eng (f : Fld) : (s.incRc f).eng = s.eng := rfl
@[simp] theorem State.incRc_obj (f : Fld) : (s.incRc f).obj = s.obj := rfl
@[simp] theorem State.incRc_pld (f : Fld) : (s.incRc f).pld = s.pld := rfl
@[simp] theorem State.incRc_ward (f : Fld) : (s.incRc f).ward = s.ward := rfl
@[simp] theorem State.incRc_pvw (f : Fld) : (s.incRc f).pvw = s.pvw := rfl
@[simp] theorem State.incRc_lane (f : Fld) : (s.incRc f).lane = s.lane := rfl
@[simp] theorem State.incRc_port (f : Fld) : (s.incRc f).port = s.port := rfl
@[simp] theorem State.incRc_tile (f : Fld) : (s.incRc f).tile = s.tile := rfl
@[simp] theorem State.incRc_chain (f : Fld) : (s.incRc f).chain = s.chain := rfl
@[simp] theorem State.incRc_sec (f : Fld) : (s.incRc f).sec = s.sec := rfl
@[simp] theorem State.incRc_memc (f : Fld) : (s.incRc f).memc = s.memc := rfl
@[simp] theorem State.incRc_slc (f : Fld) : (s.incRc f).slc = s.slc := rfl
@[simp] theorem State.incRc_flt (f : Fld) : (s.incRc f).flt = s.flt := rfl
@[simp] theorem State.incRc_blt (f : Fld) : (s.incRc f).blt = s.blt := rfl
@[simp] theorem State.incRc_dma (f : Fld) : (s.incRc f).dma = s.dma := rfl
@[simp] theorem State.incRc_dmaServed (f : Fld) : (s.incRc f).dmaServed = s.dmaServed := rfl
@[simp] theorem State.incRc_boot (f : Fld) : (s.incRc f).boot = s.boot := rfl
@[simp] theorem State.incRc_cores (f : Fld) : (s.incRc f).cores = s.cores := rfl
@[simp] theorem State.incRc_irqStk (f : Fld) : (s.incRc f).irqStk = s.irqStk := rfl
@[simp] theorem State.incRc_pin (f : Fld) : (s.incRc f).pin = s.pin := rfl
@[simp] theorem State.incRc_tickOut (f : Fld) : (s.incRc f).tickOut = s.tickOut := rfl
@[simp] theorem State.incRc_clv (f : Fld) : (s.incRc f).clv = s.clv := rfl
@[simp] theorem State.incRc_tmr (f : Fld) : (s.incRc f).tmr = s.tmr := rfl
@[simp] theorem State.incRc_aud (f : Fld) : (s.incRc f).aud = s.aud := rfl
@[simp] theorem State.incRc_hst (f : Fld) : (s.incRc f).hst = s.hst := rfl
@[simp] theorem State.incRc_rdata (f : Fld) : (s.incRc f).rdata = s.rdata := rfl
@[simp] theorem State.incRc_pending (f : Fld) : (s.incRc f).pending = s.pending := rfl

@[simp] theorem State.rwsNote_now (o old : Nat) : (s.rwsNote o old).now = s.now := rfl
@[simp] theorem State.rwsNote_gib (o old : Nat) : (s.rwsNote o old).gib = s.gib := rfl
@[simp] theorem State.rwsNote_regs (o old : Nat) : (s.rwsNote o old).regs = s.regs := rfl
@[simp] theorem State.rwsNote_ovr (o old : Nat) : (s.rwsNote o old).ovr = s.ovr := rfl
@[simp] theorem State.rwsNote_mem (o old : Nat) : (s.rwsNote o old).mem = s.mem := rfl
@[simp] theorem State.rwsNote_freeCnt (o old : Nat) : (s.rwsNote o old).freeCnt = s.freeCnt := rfl
@[simp] theorem State.rwsNote_raised (o old : Nat) : (s.rwsNote o old).raised = s.raised := rfl
@[simp] theorem State.rwsNote_sent (o old : Nat) : (s.rwsNote o old).sent = s.sent := rfl
@[simp] theorem State.rwsNote_tick (o old : Nat) : (s.rwsNote o old).tick = s.tick := rfl
@[simp] theorem State.rwsNote_eng (o old : Nat) : (s.rwsNote o old).eng = s.eng := rfl
@[simp] theorem State.rwsNote_obj (o old : Nat) : (s.rwsNote o old).obj = s.obj := rfl
@[simp] theorem State.rwsNote_pld (o old : Nat) : (s.rwsNote o old).pld = s.pld := rfl
@[simp] theorem State.rwsNote_ward (o old : Nat) : (s.rwsNote o old).ward = s.ward := rfl
@[simp] theorem State.rwsNote_pvw (o old : Nat) : (s.rwsNote o old).pvw = s.pvw := rfl
@[simp] theorem State.rwsNote_lane (o old : Nat) : (s.rwsNote o old).lane = s.lane := rfl
@[simp] theorem State.rwsNote_port (o old : Nat) : (s.rwsNote o old).port = s.port := rfl
@[simp] theorem State.rwsNote_tile (o old : Nat) : (s.rwsNote o old).tile = s.tile := rfl
@[simp] theorem State.rwsNote_chain (o old : Nat) : (s.rwsNote o old).chain = s.chain := rfl
@[simp] theorem State.rwsNote_sec (o old : Nat) : (s.rwsNote o old).sec = s.sec := rfl
@[simp] theorem State.rwsNote_memc (o old : Nat) : (s.rwsNote o old).memc = s.memc := rfl
@[simp] theorem State.rwsNote_slc (o old : Nat) : (s.rwsNote o old).slc = s.slc := rfl
@[simp] theorem State.rwsNote_flt (o old : Nat) : (s.rwsNote o old).flt = s.flt := rfl
@[simp] theorem State.rwsNote_blt (o old : Nat) : (s.rwsNote o old).blt = s.blt := rfl
@[simp] theorem State.rwsNote_dma (o old : Nat) : (s.rwsNote o old).dma = s.dma := rfl
@[simp] theorem State.rwsNote_dmaServed (o old : Nat) : (s.rwsNote o old).dmaServed = s.dmaServed := rfl
@[simp] theorem State.rwsNote_boot (o old : Nat) : (s.rwsNote o old).boot = s.boot := rfl
@[simp] theorem State.rwsNote_cores (o old : Nat) : (s.rwsNote o old).cores = s.cores := rfl
@[simp] theorem State.rwsNote_irqStk (o old : Nat) : (s.rwsNote o old).irqStk = s.irqStk := rfl
@[simp] theorem State.rwsNote_pin (o old : Nat) : (s.rwsNote o old).pin = s.pin := rfl
@[simp] theorem State.rwsNote_tickOut (o old : Nat) : (s.rwsNote o old).tickOut = s.tickOut := rfl
@[simp] theorem State.rwsNote_clv (o old : Nat) : (s.rwsNote o old).clv = s.clv := rfl
@[simp] theorem State.rwsNote_tmr (o old : Nat) : (s.rwsNote o old).tmr = s.tmr := rfl
@[simp] theorem State.rwsNote_aud (o old : Nat) : (s.rwsNote o old).aud = s.aud := rfl
@[simp] theorem State.rwsNote_hst (o old : Nat) : (s.rwsNote o old).hst = s.hst := rfl
@[simp] theorem State.rwsNote_rdata (o old : Nat) : (s.rwsNote o old).rdata = s.rdata := rfl
@[simp] theorem State.rwsNote_pending (o old : Nat) : (s.rwsNote o old).pending = s.pending := rfl

@[simp] theorem State.setReg_now (o v : Nat) : (s.setReg o v).now = s.now := rfl
@[simp] theorem State.setReg_gib (o v : Nat) : (s.setReg o v).gib = s.gib := rfl
@[simp] theorem State.setReg_ovr (o v : Nat) : (s.setReg o v).ovr = s.ovr := rfl
@[simp] theorem State.setReg_mem (o v : Nat) : (s.setReg o v).mem = s.mem := rfl
@[simp] theorem State.setReg_freeCnt (o v : Nat) : (s.setReg o v).freeCnt = s.freeCnt := rfl
@[simp] theorem State.setReg_raised (o v : Nat) : (s.setReg o v).raised = s.raised := rfl
@[simp] theorem State.setReg_sent (o v : Nat) : (s.setReg o v).sent = s.sent := rfl
@[simp] theorem State.setReg_cyc (o v : Nat) : (s.setReg o v).cyc = s.cyc := rfl
@[simp] theorem State.setReg_tick (o v : Nat) : (s.setReg o v).tick = s.tick := rfl
@[simp] theorem State.setReg_eng (o v : Nat) : (s.setReg o v).eng = s.eng := rfl
@[simp] theorem State.setReg_obj (o v : Nat) : (s.setReg o v).obj = s.obj := rfl
@[simp] theorem State.setReg_pld (o v : Nat) : (s.setReg o v).pld = s.pld := rfl
@[simp] theorem State.setReg_ward (o v : Nat) : (s.setReg o v).ward = s.ward := rfl
@[simp] theorem State.setReg_pvw (o v : Nat) : (s.setReg o v).pvw = s.pvw := rfl
@[simp] theorem State.setReg_lane (o v : Nat) : (s.setReg o v).lane = s.lane := rfl
@[simp] theorem State.setReg_port (o v : Nat) : (s.setReg o v).port = s.port := rfl
@[simp] theorem State.setReg_tile (o v : Nat) : (s.setReg o v).tile = s.tile := rfl
@[simp] theorem State.setReg_chain (o v : Nat) : (s.setReg o v).chain = s.chain := rfl
@[simp] theorem State.setReg_sec (o v : Nat) : (s.setReg o v).sec = s.sec := rfl
@[simp] theorem State.setReg_memc (o v : Nat) : (s.setReg o v).memc = s.memc := rfl
@[simp] theorem State.setReg_slc (o v : Nat) : (s.setReg o v).slc = s.slc := rfl
@[simp] theorem State.setReg_flt (o v : Nat) : (s.setReg o v).flt = s.flt := rfl
@[simp] theorem State.setReg_blt (o v : Nat) : (s.setReg o v).blt = s.blt := rfl
@[simp] theorem State.setReg_dma (o v : Nat) : (s.setReg o v).dma = s.dma := rfl
@[simp] theorem State.setReg_dmaServed (o v : Nat) : (s.setReg o v).dmaServed = s.dmaServed := rfl
@[simp] theorem State.setReg_boot (o v : Nat) : (s.setReg o v).boot = s.boot := rfl
@[simp] theorem State.setReg_cores (o v : Nat) : (s.setReg o v).cores = s.cores := rfl
@[simp] theorem State.setReg_irqStk (o v : Nat) : (s.setReg o v).irqStk = s.irqStk := rfl
@[simp] theorem State.setReg_pin (o v : Nat) : (s.setReg o v).pin = s.pin := rfl
@[simp] theorem State.setReg_tickOut (o v : Nat) : (s.setReg o v).tickOut = s.tickOut := rfl
@[simp] theorem State.setReg_clv (o v : Nat) : (s.setReg o v).clv = s.clv := rfl
@[simp] theorem State.setReg_tmr (o v : Nat) : (s.setReg o v).tmr = s.tmr := rfl
@[simp] theorem State.setReg_aud (o v : Nat) : (s.setReg o v).aud = s.aud := rfl
@[simp] theorem State.setReg_hst (o v : Nat) : (s.setReg o v).hst = s.hst := rfl
@[simp] theorem State.setReg_rdata (o v : Nat) : (s.setReg o v).rdata = s.rdata := rfl
@[simp] theorem State.setReg_pending (o v : Nat) : (s.setReg o v).pending = s.pending := rfl

@[simp] theorem State.wr_now (f : Fld) (v : Nat) : (s.wr f v).now = s.now := rfl
@[simp] theorem State.wr_gib (f : Fld) (v : Nat) : (s.wr f v).gib = s.gib := rfl
@[simp] theorem State.wr_ovr (f : Fld) (v : Nat) : (s.wr f v).ovr = s.ovr := rfl
@[simp] theorem State.wr_mem (f : Fld) (v : Nat) : (s.wr f v).mem = s.mem := rfl
@[simp] theorem State.wr_freeCnt (f : Fld) (v : Nat) : (s.wr f v).freeCnt = s.freeCnt := rfl
@[simp] theorem State.wr_raised (f : Fld) (v : Nat) : (s.wr f v).raised = s.raised := rfl
@[simp] theorem State.wr_sent (f : Fld) (v : Nat) : (s.wr f v).sent = s.sent := rfl
@[simp] theorem State.wr_cyc (f : Fld) (v : Nat) : (s.wr f v).cyc = s.cyc := rfl
@[simp] theorem State.wr_tick (f : Fld) (v : Nat) : (s.wr f v).tick = s.tick := rfl
@[simp] theorem State.wr_eng (f : Fld) (v : Nat) : (s.wr f v).eng = s.eng := rfl
@[simp] theorem State.wr_obj (f : Fld) (v : Nat) : (s.wr f v).obj = s.obj := rfl
@[simp] theorem State.wr_pld (f : Fld) (v : Nat) : (s.wr f v).pld = s.pld := rfl
@[simp] theorem State.wr_ward (f : Fld) (v : Nat) : (s.wr f v).ward = s.ward := rfl
@[simp] theorem State.wr_pvw (f : Fld) (v : Nat) : (s.wr f v).pvw = s.pvw := rfl
@[simp] theorem State.wr_lane (f : Fld) (v : Nat) : (s.wr f v).lane = s.lane := rfl
@[simp] theorem State.wr_port (f : Fld) (v : Nat) : (s.wr f v).port = s.port := rfl
@[simp] theorem State.wr_tile (f : Fld) (v : Nat) : (s.wr f v).tile = s.tile := rfl
@[simp] theorem State.wr_chain (f : Fld) (v : Nat) : (s.wr f v).chain = s.chain := rfl
@[simp] theorem State.wr_sec (f : Fld) (v : Nat) : (s.wr f v).sec = s.sec := rfl
@[simp] theorem State.wr_memc (f : Fld) (v : Nat) : (s.wr f v).memc = s.memc := rfl
@[simp] theorem State.wr_slc (f : Fld) (v : Nat) : (s.wr f v).slc = s.slc := rfl
@[simp] theorem State.wr_flt (f : Fld) (v : Nat) : (s.wr f v).flt = s.flt := rfl
@[simp] theorem State.wr_blt (f : Fld) (v : Nat) : (s.wr f v).blt = s.blt := rfl
@[simp] theorem State.wr_dma (f : Fld) (v : Nat) : (s.wr f v).dma = s.dma := rfl
@[simp] theorem State.wr_dmaServed (f : Fld) (v : Nat) : (s.wr f v).dmaServed = s.dmaServed := rfl
@[simp] theorem State.wr_boot (f : Fld) (v : Nat) : (s.wr f v).boot = s.boot := rfl
@[simp] theorem State.wr_cores (f : Fld) (v : Nat) : (s.wr f v).cores = s.cores := rfl
@[simp] theorem State.wr_irqStk (f : Fld) (v : Nat) : (s.wr f v).irqStk = s.irqStk := rfl
@[simp] theorem State.wr_pin (f : Fld) (v : Nat) : (s.wr f v).pin = s.pin := rfl
@[simp] theorem State.wr_tickOut (f : Fld) (v : Nat) : (s.wr f v).tickOut = s.tickOut := rfl
@[simp] theorem State.wr_clv (f : Fld) (v : Nat) : (s.wr f v).clv = s.clv := rfl
@[simp] theorem State.wr_tmr (f : Fld) (v : Nat) : (s.wr f v).tmr = s.tmr := rfl
@[simp] theorem State.wr_aud (f : Fld) (v : Nat) : (s.wr f v).aud = s.aud := rfl
@[simp] theorem State.wr_hst (f : Fld) (v : Nat) : (s.wr f v).hst = s.hst := rfl
@[simp] theorem State.wr_rdata (f : Fld) (v : Nat) : (s.wr f v).rdata = s.rdata := rfl
@[simp] theorem State.wr_pending (f : Fld) (v : Nat) : (s.wr f v).pending = s.pending := rfl

@[simp] theorem State.wrB_now (f : Fld) (b : Bool) : (s.wrB f b).now = s.now := rfl
@[simp] theorem State.wrB_gib (f : Fld) (b : Bool) : (s.wrB f b).gib = s.gib := rfl
@[simp] theorem State.wrB_ovr (f : Fld) (b : Bool) : (s.wrB f b).ovr = s.ovr := rfl
@[simp] theorem State.wrB_mem (f : Fld) (b : Bool) : (s.wrB f b).mem = s.mem := rfl
@[simp] theorem State.wrB_freeCnt (f : Fld) (b : Bool) : (s.wrB f b).freeCnt = s.freeCnt := rfl
@[simp] theorem State.wrB_raised (f : Fld) (b : Bool) : (s.wrB f b).raised = s.raised := rfl
@[simp] theorem State.wrB_sent (f : Fld) (b : Bool) : (s.wrB f b).sent = s.sent := rfl
@[simp] theorem State.wrB_cyc (f : Fld) (b : Bool) : (s.wrB f b).cyc = s.cyc := rfl
@[simp] theorem State.wrB_tick (f : Fld) (b : Bool) : (s.wrB f b).tick = s.tick := rfl
@[simp] theorem State.wrB_eng (f : Fld) (b : Bool) : (s.wrB f b).eng = s.eng := rfl
@[simp] theorem State.wrB_obj (f : Fld) (b : Bool) : (s.wrB f b).obj = s.obj := rfl
@[simp] theorem State.wrB_pld (f : Fld) (b : Bool) : (s.wrB f b).pld = s.pld := rfl
@[simp] theorem State.wrB_ward (f : Fld) (b : Bool) : (s.wrB f b).ward = s.ward := rfl
@[simp] theorem State.wrB_pvw (f : Fld) (b : Bool) : (s.wrB f b).pvw = s.pvw := rfl
@[simp] theorem State.wrB_lane (f : Fld) (b : Bool) : (s.wrB f b).lane = s.lane := rfl
@[simp] theorem State.wrB_port (f : Fld) (b : Bool) : (s.wrB f b).port = s.port := rfl
@[simp] theorem State.wrB_tile (f : Fld) (b : Bool) : (s.wrB f b).tile = s.tile := rfl
@[simp] theorem State.wrB_chain (f : Fld) (b : Bool) : (s.wrB f b).chain = s.chain := rfl
@[simp] theorem State.wrB_sec (f : Fld) (b : Bool) : (s.wrB f b).sec = s.sec := rfl
@[simp] theorem State.wrB_memc (f : Fld) (b : Bool) : (s.wrB f b).memc = s.memc := rfl
@[simp] theorem State.wrB_slc (f : Fld) (b : Bool) : (s.wrB f b).slc = s.slc := rfl
@[simp] theorem State.wrB_flt (f : Fld) (b : Bool) : (s.wrB f b).flt = s.flt := rfl
@[simp] theorem State.wrB_blt (f : Fld) (b : Bool) : (s.wrB f b).blt = s.blt := rfl
@[simp] theorem State.wrB_dma (f : Fld) (b : Bool) : (s.wrB f b).dma = s.dma := rfl
@[simp] theorem State.wrB_dmaServed (f : Fld) (b : Bool) : (s.wrB f b).dmaServed = s.dmaServed := rfl
@[simp] theorem State.wrB_boot (f : Fld) (b : Bool) : (s.wrB f b).boot = s.boot := rfl
@[simp] theorem State.wrB_cores (f : Fld) (b : Bool) : (s.wrB f b).cores = s.cores := rfl
@[simp] theorem State.wrB_irqStk (f : Fld) (b : Bool) : (s.wrB f b).irqStk = s.irqStk := rfl
@[simp] theorem State.wrB_pin (f : Fld) (b : Bool) : (s.wrB f b).pin = s.pin := rfl
@[simp] theorem State.wrB_tickOut (f : Fld) (b : Bool) : (s.wrB f b).tickOut = s.tickOut := rfl
@[simp] theorem State.wrB_clv (f : Fld) (b : Bool) : (s.wrB f b).clv = s.clv := rfl
@[simp] theorem State.wrB_tmr (f : Fld) (b : Bool) : (s.wrB f b).tmr = s.tmr := rfl
@[simp] theorem State.wrB_aud (f : Fld) (b : Bool) : (s.wrB f b).aud = s.aud := rfl
@[simp] theorem State.wrB_hst (f : Fld) (b : Bool) : (s.wrB f b).hst = s.hst := rfl
@[simp] theorem State.wrB_rdata (f : Fld) (b : Bool) : (s.wrB f b).rdata = s.rdata := rfl
@[simp] theorem State.wrB_pending (f : Fld) (b : Bool) : (s.wrB f b).pending = s.pending := rfl

@[simp] theorem State.setAct_now (o v : Nat) : (s.setAct o v).now = s.now := rfl
@[simp] theorem State.setAct_gib (o v : Nat) : (s.setAct o v).gib = s.gib := rfl
@[simp] theorem State.setAct_regs (o v : Nat) : (s.setAct o v).regs = s.regs := rfl
@[simp] theorem State.setAct_mem (o v : Nat) : (s.setAct o v).mem = s.mem := rfl
@[simp] theorem State.setAct_freeCnt (o v : Nat) : (s.setAct o v).freeCnt = s.freeCnt := rfl
@[simp] theorem State.setAct_raised (o v : Nat) : (s.setAct o v).raised = s.raised := rfl
@[simp] theorem State.setAct_sent (o v : Nat) : (s.setAct o v).sent = s.sent := rfl
@[simp] theorem State.setAct_cyc (o v : Nat) : (s.setAct o v).cyc = s.cyc := rfl
@[simp] theorem State.setAct_tick (o v : Nat) : (s.setAct o v).tick = s.tick := rfl
@[simp] theorem State.setAct_eng (o v : Nat) : (s.setAct o v).eng = s.eng := rfl
@[simp] theorem State.setAct_obj (o v : Nat) : (s.setAct o v).obj = s.obj := rfl
@[simp] theorem State.setAct_pld (o v : Nat) : (s.setAct o v).pld = s.pld := rfl
@[simp] theorem State.setAct_ward (o v : Nat) : (s.setAct o v).ward = s.ward := rfl
@[simp] theorem State.setAct_pvw (o v : Nat) : (s.setAct o v).pvw = s.pvw := rfl
@[simp] theorem State.setAct_lane (o v : Nat) : (s.setAct o v).lane = s.lane := rfl
@[simp] theorem State.setAct_port (o v : Nat) : (s.setAct o v).port = s.port := rfl
@[simp] theorem State.setAct_tile (o v : Nat) : (s.setAct o v).tile = s.tile := rfl
@[simp] theorem State.setAct_chain (o v : Nat) : (s.setAct o v).chain = s.chain := rfl
@[simp] theorem State.setAct_sec (o v : Nat) : (s.setAct o v).sec = s.sec := rfl
@[simp] theorem State.setAct_memc (o v : Nat) : (s.setAct o v).memc = s.memc := rfl
@[simp] theorem State.setAct_slc (o v : Nat) : (s.setAct o v).slc = s.slc := rfl
@[simp] theorem State.setAct_flt (o v : Nat) : (s.setAct o v).flt = s.flt := rfl
@[simp] theorem State.setAct_blt (o v : Nat) : (s.setAct o v).blt = s.blt := rfl
@[simp] theorem State.setAct_dma (o v : Nat) : (s.setAct o v).dma = s.dma := rfl
@[simp] theorem State.setAct_dmaServed (o v : Nat) : (s.setAct o v).dmaServed = s.dmaServed := rfl
@[simp] theorem State.setAct_boot (o v : Nat) : (s.setAct o v).boot = s.boot := rfl
@[simp] theorem State.setAct_cores (o v : Nat) : (s.setAct o v).cores = s.cores := rfl
@[simp] theorem State.setAct_irqStk (o v : Nat) : (s.setAct o v).irqStk = s.irqStk := rfl
@[simp] theorem State.setAct_pin (o v : Nat) : (s.setAct o v).pin = s.pin := rfl
@[simp] theorem State.setAct_tickOut (o v : Nat) : (s.setAct o v).tickOut = s.tickOut := rfl
@[simp] theorem State.setAct_clv (o v : Nat) : (s.setAct o v).clv = s.clv := rfl
@[simp] theorem State.setAct_tmr (o v : Nat) : (s.setAct o v).tmr = s.tmr := rfl
@[simp] theorem State.setAct_aud (o v : Nat) : (s.setAct o v).aud = s.aud := rfl
@[simp] theorem State.setAct_hst (o v : Nat) : (s.setAct o v).hst = s.hst := rfl
@[simp] theorem State.setAct_rdata (o v : Nat) : (s.setAct o v).rdata = s.rdata := rfl
@[simp] theorem State.setAct_pending (o v : Nat) : (s.setAct o v).pending = s.pending := rfl

@[simp] theorem State.wrAct_now (f : Fld) (v : Nat) : (s.wrAct f v).now = s.now := rfl
@[simp] theorem State.wrAct_gib (f : Fld) (v : Nat) : (s.wrAct f v).gib = s.gib := rfl
@[simp] theorem State.wrAct_regs (f : Fld) (v : Nat) : (s.wrAct f v).regs = s.regs := rfl
@[simp] theorem State.wrAct_mem (f : Fld) (v : Nat) : (s.wrAct f v).mem = s.mem := rfl
@[simp] theorem State.wrAct_freeCnt (f : Fld) (v : Nat) : (s.wrAct f v).freeCnt = s.freeCnt := rfl
@[simp] theorem State.wrAct_raised (f : Fld) (v : Nat) : (s.wrAct f v).raised = s.raised := rfl
@[simp] theorem State.wrAct_sent (f : Fld) (v : Nat) : (s.wrAct f v).sent = s.sent := rfl
@[simp] theorem State.wrAct_cyc (f : Fld) (v : Nat) : (s.wrAct f v).cyc = s.cyc := rfl
@[simp] theorem State.wrAct_tick (f : Fld) (v : Nat) : (s.wrAct f v).tick = s.tick := rfl
@[simp] theorem State.wrAct_eng (f : Fld) (v : Nat) : (s.wrAct f v).eng = s.eng := rfl
@[simp] theorem State.wrAct_obj (f : Fld) (v : Nat) : (s.wrAct f v).obj = s.obj := rfl
@[simp] theorem State.wrAct_pld (f : Fld) (v : Nat) : (s.wrAct f v).pld = s.pld := rfl
@[simp] theorem State.wrAct_ward (f : Fld) (v : Nat) : (s.wrAct f v).ward = s.ward := rfl
@[simp] theorem State.wrAct_pvw (f : Fld) (v : Nat) : (s.wrAct f v).pvw = s.pvw := rfl
@[simp] theorem State.wrAct_lane (f : Fld) (v : Nat) : (s.wrAct f v).lane = s.lane := rfl
@[simp] theorem State.wrAct_port (f : Fld) (v : Nat) : (s.wrAct f v).port = s.port := rfl
@[simp] theorem State.wrAct_tile (f : Fld) (v : Nat) : (s.wrAct f v).tile = s.tile := rfl
@[simp] theorem State.wrAct_chain (f : Fld) (v : Nat) : (s.wrAct f v).chain = s.chain := rfl
@[simp] theorem State.wrAct_sec (f : Fld) (v : Nat) : (s.wrAct f v).sec = s.sec := rfl
@[simp] theorem State.wrAct_memc (f : Fld) (v : Nat) : (s.wrAct f v).memc = s.memc := rfl
@[simp] theorem State.wrAct_slc (f : Fld) (v : Nat) : (s.wrAct f v).slc = s.slc := rfl
@[simp] theorem State.wrAct_flt (f : Fld) (v : Nat) : (s.wrAct f v).flt = s.flt := rfl
@[simp] theorem State.wrAct_blt (f : Fld) (v : Nat) : (s.wrAct f v).blt = s.blt := rfl
@[simp] theorem State.wrAct_dma (f : Fld) (v : Nat) : (s.wrAct f v).dma = s.dma := rfl
@[simp] theorem State.wrAct_dmaServed (f : Fld) (v : Nat) : (s.wrAct f v).dmaServed = s.dmaServed := rfl
@[simp] theorem State.wrAct_boot (f : Fld) (v : Nat) : (s.wrAct f v).boot = s.boot := rfl
@[simp] theorem State.wrAct_cores (f : Fld) (v : Nat) : (s.wrAct f v).cores = s.cores := rfl
@[simp] theorem State.wrAct_irqStk (f : Fld) (v : Nat) : (s.wrAct f v).irqStk = s.irqStk := rfl
@[simp] theorem State.wrAct_pin (f : Fld) (v : Nat) : (s.wrAct f v).pin = s.pin := rfl
@[simp] theorem State.wrAct_tickOut (f : Fld) (v : Nat) : (s.wrAct f v).tickOut = s.tickOut := rfl
@[simp] theorem State.wrAct_clv (f : Fld) (v : Nat) : (s.wrAct f v).clv = s.clv := rfl
@[simp] theorem State.wrAct_tmr (f : Fld) (v : Nat) : (s.wrAct f v).tmr = s.tmr := rfl
@[simp] theorem State.wrAct_aud (f : Fld) (v : Nat) : (s.wrAct f v).aud = s.aud := rfl
@[simp] theorem State.wrAct_hst (f : Fld) (v : Nat) : (s.wrAct f v).hst = s.hst := rfl
@[simp] theorem State.wrAct_rdata (f : Fld) (v : Nat) : (s.wrAct f v).rdata = s.rdata := rfl
@[simp] theorem State.wrAct_pending (f : Fld) (v : Nat) : (s.wrAct f v).pending = s.pending := rfl

@[simp] theorem State.incBy_now (f : Fld) (n : Nat) : (s.incBy f n).now = s.now := rfl
@[simp] theorem State.incBy_gib (f : Fld) (n : Nat) : (s.incBy f n).gib = s.gib := rfl
@[simp] theorem State.incBy_ovr (f : Fld) (n : Nat) : (s.incBy f n).ovr = s.ovr := rfl
@[simp] theorem State.incBy_mem (f : Fld) (n : Nat) : (s.incBy f n).mem = s.mem := rfl
@[simp] theorem State.incBy_freeCnt (f : Fld) (n : Nat) : (s.incBy f n).freeCnt = s.freeCnt := rfl
@[simp] theorem State.incBy_raised (f : Fld) (n : Nat) : (s.incBy f n).raised = s.raised := rfl
@[simp] theorem State.incBy_sent (f : Fld) (n : Nat) : (s.incBy f n).sent = s.sent := rfl
@[simp] theorem State.incBy_cyc (f : Fld) (n : Nat) : (s.incBy f n).cyc = s.cyc := rfl
@[simp] theorem State.incBy_tick (f : Fld) (n : Nat) : (s.incBy f n).tick = s.tick := rfl
@[simp] theorem State.incBy_eng (f : Fld) (n : Nat) : (s.incBy f n).eng = s.eng := rfl
@[simp] theorem State.incBy_obj (f : Fld) (n : Nat) : (s.incBy f n).obj = s.obj := rfl
@[simp] theorem State.incBy_pld (f : Fld) (n : Nat) : (s.incBy f n).pld = s.pld := rfl
@[simp] theorem State.incBy_ward (f : Fld) (n : Nat) : (s.incBy f n).ward = s.ward := rfl
@[simp] theorem State.incBy_pvw (f : Fld) (n : Nat) : (s.incBy f n).pvw = s.pvw := rfl
@[simp] theorem State.incBy_lane (f : Fld) (n : Nat) : (s.incBy f n).lane = s.lane := rfl
@[simp] theorem State.incBy_port (f : Fld) (n : Nat) : (s.incBy f n).port = s.port := rfl
@[simp] theorem State.incBy_tile (f : Fld) (n : Nat) : (s.incBy f n).tile = s.tile := rfl
@[simp] theorem State.incBy_chain (f : Fld) (n : Nat) : (s.incBy f n).chain = s.chain := rfl
@[simp] theorem State.incBy_sec (f : Fld) (n : Nat) : (s.incBy f n).sec = s.sec := rfl
@[simp] theorem State.incBy_memc (f : Fld) (n : Nat) : (s.incBy f n).memc = s.memc := rfl
@[simp] theorem State.incBy_slc (f : Fld) (n : Nat) : (s.incBy f n).slc = s.slc := rfl
@[simp] theorem State.incBy_flt (f : Fld) (n : Nat) : (s.incBy f n).flt = s.flt := rfl
@[simp] theorem State.incBy_blt (f : Fld) (n : Nat) : (s.incBy f n).blt = s.blt := rfl
@[simp] theorem State.incBy_dma (f : Fld) (n : Nat) : (s.incBy f n).dma = s.dma := rfl
@[simp] theorem State.incBy_dmaServed (f : Fld) (n : Nat) : (s.incBy f n).dmaServed = s.dmaServed := rfl
@[simp] theorem State.incBy_boot (f : Fld) (n : Nat) : (s.incBy f n).boot = s.boot := rfl
@[simp] theorem State.incBy_cores (f : Fld) (n : Nat) : (s.incBy f n).cores = s.cores := rfl
@[simp] theorem State.incBy_irqStk (f : Fld) (n : Nat) : (s.incBy f n).irqStk = s.irqStk := rfl
@[simp] theorem State.incBy_pin (f : Fld) (n : Nat) : (s.incBy f n).pin = s.pin := rfl
@[simp] theorem State.incBy_tickOut (f : Fld) (n : Nat) : (s.incBy f n).tickOut = s.tickOut := rfl
@[simp] theorem State.incBy_clv (f : Fld) (n : Nat) : (s.incBy f n).clv = s.clv := rfl
@[simp] theorem State.incBy_tmr (f : Fld) (n : Nat) : (s.incBy f n).tmr = s.tmr := rfl
@[simp] theorem State.incBy_aud (f : Fld) (n : Nat) : (s.incBy f n).aud = s.aud := rfl
@[simp] theorem State.incBy_hst (f : Fld) (n : Nat) : (s.incBy f n).hst = s.hst := rfl
@[simp] theorem State.incBy_rdata (f : Fld) (n : Nat) : (s.incBy f n).rdata = s.rdata := rfl
@[simp] theorem State.incBy_pending (f : Fld) (n : Nat) : (s.incBy f n).pending = s.pending := rfl

@[simp] theorem State.inc_now (f : Fld) : (s.inc f).now = s.now := rfl
@[simp] theorem State.inc_gib (f : Fld) : (s.inc f).gib = s.gib := rfl
@[simp] theorem State.inc_ovr (f : Fld) : (s.inc f).ovr = s.ovr := rfl
@[simp] theorem State.inc_mem (f : Fld) : (s.inc f).mem = s.mem := rfl
@[simp] theorem State.inc_freeCnt (f : Fld) : (s.inc f).freeCnt = s.freeCnt := rfl
@[simp] theorem State.inc_raised (f : Fld) : (s.inc f).raised = s.raised := rfl
@[simp] theorem State.inc_sent (f : Fld) : (s.inc f).sent = s.sent := rfl
@[simp] theorem State.inc_cyc (f : Fld) : (s.inc f).cyc = s.cyc := rfl
@[simp] theorem State.inc_tick (f : Fld) : (s.inc f).tick = s.tick := rfl
@[simp] theorem State.inc_eng (f : Fld) : (s.inc f).eng = s.eng := rfl
@[simp] theorem State.inc_obj (f : Fld) : (s.inc f).obj = s.obj := rfl
@[simp] theorem State.inc_pld (f : Fld) : (s.inc f).pld = s.pld := rfl
@[simp] theorem State.inc_ward (f : Fld) : (s.inc f).ward = s.ward := rfl
@[simp] theorem State.inc_pvw (f : Fld) : (s.inc f).pvw = s.pvw := rfl
@[simp] theorem State.inc_lane (f : Fld) : (s.inc f).lane = s.lane := rfl
@[simp] theorem State.inc_port (f : Fld) : (s.inc f).port = s.port := rfl
@[simp] theorem State.inc_tile (f : Fld) : (s.inc f).tile = s.tile := rfl
@[simp] theorem State.inc_chain (f : Fld) : (s.inc f).chain = s.chain := rfl
@[simp] theorem State.inc_sec (f : Fld) : (s.inc f).sec = s.sec := rfl
@[simp] theorem State.inc_memc (f : Fld) : (s.inc f).memc = s.memc := rfl
@[simp] theorem State.inc_slc (f : Fld) : (s.inc f).slc = s.slc := rfl
@[simp] theorem State.inc_flt (f : Fld) : (s.inc f).flt = s.flt := rfl
@[simp] theorem State.inc_blt (f : Fld) : (s.inc f).blt = s.blt := rfl
@[simp] theorem State.inc_dma (f : Fld) : (s.inc f).dma = s.dma := rfl
@[simp] theorem State.inc_dmaServed (f : Fld) : (s.inc f).dmaServed = s.dmaServed := rfl
@[simp] theorem State.inc_boot (f : Fld) : (s.inc f).boot = s.boot := rfl
@[simp] theorem State.inc_cores (f : Fld) : (s.inc f).cores = s.cores := rfl
@[simp] theorem State.inc_irqStk (f : Fld) : (s.inc f).irqStk = s.irqStk := rfl
@[simp] theorem State.inc_pin (f : Fld) : (s.inc f).pin = s.pin := rfl
@[simp] theorem State.inc_tickOut (f : Fld) : (s.inc f).tickOut = s.tickOut := rfl
@[simp] theorem State.inc_clv (f : Fld) : (s.inc f).clv = s.clv := rfl
@[simp] theorem State.inc_tmr (f : Fld) : (s.inc f).tmr = s.tmr := rfl
@[simp] theorem State.inc_aud (f : Fld) : (s.inc f).aud = s.aud := rfl
@[simp] theorem State.inc_hst (f : Fld) : (s.inc f).hst = s.hst := rfl
@[simp] theorem State.inc_rdata (f : Fld) : (s.inc f).rdata = s.rdata := rfl
@[simp] theorem State.inc_pending (f : Fld) : (s.inc f).pending = s.pending := rfl

@[simp] theorem State.incWrap_now (f : Fld) : (s.incWrap f).now = s.now := rfl
@[simp] theorem State.incWrap_gib (f : Fld) : (s.incWrap f).gib = s.gib := rfl
@[simp] theorem State.incWrap_ovr (f : Fld) : (s.incWrap f).ovr = s.ovr := rfl
@[simp] theorem State.incWrap_mem (f : Fld) : (s.incWrap f).mem = s.mem := rfl
@[simp] theorem State.incWrap_freeCnt (f : Fld) : (s.incWrap f).freeCnt = s.freeCnt := rfl
@[simp] theorem State.incWrap_raised (f : Fld) : (s.incWrap f).raised = s.raised := rfl
@[simp] theorem State.incWrap_sent (f : Fld) : (s.incWrap f).sent = s.sent := rfl
@[simp] theorem State.incWrap_cyc (f : Fld) : (s.incWrap f).cyc = s.cyc := rfl
@[simp] theorem State.incWrap_tick (f : Fld) : (s.incWrap f).tick = s.tick := rfl
@[simp] theorem State.incWrap_eng (f : Fld) : (s.incWrap f).eng = s.eng := rfl
@[simp] theorem State.incWrap_obj (f : Fld) : (s.incWrap f).obj = s.obj := rfl
@[simp] theorem State.incWrap_pld (f : Fld) : (s.incWrap f).pld = s.pld := rfl
@[simp] theorem State.incWrap_ward (f : Fld) : (s.incWrap f).ward = s.ward := rfl
@[simp] theorem State.incWrap_pvw (f : Fld) : (s.incWrap f).pvw = s.pvw := rfl
@[simp] theorem State.incWrap_lane (f : Fld) : (s.incWrap f).lane = s.lane := rfl
@[simp] theorem State.incWrap_port (f : Fld) : (s.incWrap f).port = s.port := rfl
@[simp] theorem State.incWrap_tile (f : Fld) : (s.incWrap f).tile = s.tile := rfl
@[simp] theorem State.incWrap_chain (f : Fld) : (s.incWrap f).chain = s.chain := rfl
@[simp] theorem State.incWrap_sec (f : Fld) : (s.incWrap f).sec = s.sec := rfl
@[simp] theorem State.incWrap_memc (f : Fld) : (s.incWrap f).memc = s.memc := rfl
@[simp] theorem State.incWrap_slc (f : Fld) : (s.incWrap f).slc = s.slc := rfl
@[simp] theorem State.incWrap_flt (f : Fld) : (s.incWrap f).flt = s.flt := rfl
@[simp] theorem State.incWrap_blt (f : Fld) : (s.incWrap f).blt = s.blt := rfl
@[simp] theorem State.incWrap_dma (f : Fld) : (s.incWrap f).dma = s.dma := rfl
@[simp] theorem State.incWrap_dmaServed (f : Fld) : (s.incWrap f).dmaServed = s.dmaServed := rfl
@[simp] theorem State.incWrap_boot (f : Fld) : (s.incWrap f).boot = s.boot := rfl
@[simp] theorem State.incWrap_cores (f : Fld) : (s.incWrap f).cores = s.cores := rfl
@[simp] theorem State.incWrap_irqStk (f : Fld) : (s.incWrap f).irqStk = s.irqStk := rfl
@[simp] theorem State.incWrap_pin (f : Fld) : (s.incWrap f).pin = s.pin := rfl
@[simp] theorem State.incWrap_tickOut (f : Fld) : (s.incWrap f).tickOut = s.tickOut := rfl
@[simp] theorem State.incWrap_clv (f : Fld) : (s.incWrap f).clv = s.clv := rfl
@[simp] theorem State.incWrap_tmr (f : Fld) : (s.incWrap f).tmr = s.tmr := rfl
@[simp] theorem State.incWrap_aud (f : Fld) : (s.incWrap f).aud = s.aud := rfl
@[simp] theorem State.incWrap_hst (f : Fld) : (s.incWrap f).hst = s.hst := rfl
@[simp] theorem State.incWrap_rdata (f : Fld) : (s.incWrap f).rdata = s.rdata := rfl
@[simp] theorem State.incWrap_pending (f : Fld) : (s.incWrap f).pending = s.pending := rfl

@[simp] theorem State.fault_now (a b : Nat) : (s.fault a b).now = s.now := rfl
@[simp] theorem State.fault_gib (a b : Nat) : (s.fault a b).gib = s.gib := rfl
@[simp] theorem State.fault_regs (a b : Nat) : (s.fault a b).regs = s.regs := rfl
@[simp] theorem State.fault_ovr (a b : Nat) : (s.fault a b).ovr = s.ovr := rfl
@[simp] theorem State.fault_mem (a b : Nat) : (s.fault a b).mem = s.mem := rfl
@[simp] theorem State.fault_freeCnt (a b : Nat) : (s.fault a b).freeCnt = s.freeCnt := rfl
@[simp] theorem State.fault_sent (a b : Nat) : (s.fault a b).sent = s.sent := rfl
@[simp] theorem State.fault_cyc (a b : Nat) : (s.fault a b).cyc = s.cyc := rfl
@[simp] theorem State.fault_tick (a b : Nat) : (s.fault a b).tick = s.tick := rfl
@[simp] theorem State.fault_eng (a b : Nat) : (s.fault a b).eng = s.eng := rfl
@[simp] theorem State.fault_obj (a b : Nat) : (s.fault a b).obj = s.obj := rfl
@[simp] theorem State.fault_pld (a b : Nat) : (s.fault a b).pld = s.pld := rfl
@[simp] theorem State.fault_ward (a b : Nat) : (s.fault a b).ward = s.ward := rfl
@[simp] theorem State.fault_pvw (a b : Nat) : (s.fault a b).pvw = s.pvw := rfl
@[simp] theorem State.fault_lane (a b : Nat) : (s.fault a b).lane = s.lane := rfl
@[simp] theorem State.fault_port (a b : Nat) : (s.fault a b).port = s.port := rfl
@[simp] theorem State.fault_tile (a b : Nat) : (s.fault a b).tile = s.tile := rfl
@[simp] theorem State.fault_chain (a b : Nat) : (s.fault a b).chain = s.chain := rfl
@[simp] theorem State.fault_sec (a b : Nat) : (s.fault a b).sec = s.sec := rfl
@[simp] theorem State.fault_memc (a b : Nat) : (s.fault a b).memc = s.memc := rfl
@[simp] theorem State.fault_slc (a b : Nat) : (s.fault a b).slc = s.slc := rfl
@[simp] theorem State.fault_flt (a b : Nat) : (s.fault a b).flt = s.flt := rfl
@[simp] theorem State.fault_blt (a b : Nat) : (s.fault a b).blt = s.blt := rfl
@[simp] theorem State.fault_dma (a b : Nat) : (s.fault a b).dma = s.dma := rfl
@[simp] theorem State.fault_dmaServed (a b : Nat) : (s.fault a b).dmaServed = s.dmaServed := rfl
@[simp] theorem State.fault_boot (a b : Nat) : (s.fault a b).boot = s.boot := rfl
@[simp] theorem State.fault_cores (a b : Nat) : (s.fault a b).cores = s.cores := rfl
@[simp] theorem State.fault_irqStk (a b : Nat) : (s.fault a b).irqStk = s.irqStk := rfl
@[simp] theorem State.fault_pin (a b : Nat) : (s.fault a b).pin = s.pin := rfl
@[simp] theorem State.fault_tickOut (a b : Nat) : (s.fault a b).tickOut = s.tickOut := rfl
@[simp] theorem State.fault_clv (a b : Nat) : (s.fault a b).clv = s.clv := rfl
@[simp] theorem State.fault_tmr (a b : Nat) : (s.fault a b).tmr = s.tmr := rfl
@[simp] theorem State.fault_aud (a b : Nat) : (s.fault a b).aud = s.aud := rfl
@[simp] theorem State.fault_hst (a b : Nat) : (s.fault a b).hst = s.hst := rfl
@[simp] theorem State.fault_rdata (a b : Nat) : (s.fault a b).rdata = s.rdata := rfl
@[simp] theorem State.fault_pending (a b : Nat) : (s.fault a b).pending = s.pending := rfl

@[simp] theorem State.pulse_now (a : Nat) : (s.pulse a).now = s.now := rfl
@[simp] theorem State.pulse_gib (a : Nat) : (s.pulse a).gib = s.gib := rfl
@[simp] theorem State.pulse_regs (a : Nat) : (s.pulse a).regs = s.regs := rfl
@[simp] theorem State.pulse_ovr (a : Nat) : (s.pulse a).ovr = s.ovr := rfl
@[simp] theorem State.pulse_mem (a : Nat) : (s.pulse a).mem = s.mem := rfl
@[simp] theorem State.pulse_freeCnt (a : Nat) : (s.pulse a).freeCnt = s.freeCnt := rfl
@[simp] theorem State.pulse_raised (a : Nat) : (s.pulse a).raised = s.raised := rfl
@[simp] theorem State.pulse_sent (a : Nat) : (s.pulse a).sent = s.sent := rfl
@[simp] theorem State.pulse_cyc (a : Nat) : (s.pulse a).cyc = s.cyc := rfl
@[simp] theorem State.pulse_tick (a : Nat) : (s.pulse a).tick = s.tick := rfl
@[simp] theorem State.pulse_eng (a : Nat) : (s.pulse a).eng = s.eng := rfl
@[simp] theorem State.pulse_obj (a : Nat) : (s.pulse a).obj = s.obj := rfl
@[simp] theorem State.pulse_pld (a : Nat) : (s.pulse a).pld = s.pld := rfl
@[simp] theorem State.pulse_ward (a : Nat) : (s.pulse a).ward = s.ward := rfl
@[simp] theorem State.pulse_pvw (a : Nat) : (s.pulse a).pvw = s.pvw := rfl
@[simp] theorem State.pulse_lane (a : Nat) : (s.pulse a).lane = s.lane := rfl
@[simp] theorem State.pulse_port (a : Nat) : (s.pulse a).port = s.port := rfl
@[simp] theorem State.pulse_tile (a : Nat) : (s.pulse a).tile = s.tile := rfl
@[simp] theorem State.pulse_chain (a : Nat) : (s.pulse a).chain = s.chain := rfl
@[simp] theorem State.pulse_sec (a : Nat) : (s.pulse a).sec = s.sec := rfl
@[simp] theorem State.pulse_memc (a : Nat) : (s.pulse a).memc = s.memc := rfl
@[simp] theorem State.pulse_flt (a : Nat) : (s.pulse a).flt = s.flt := rfl
@[simp] theorem State.pulse_blt (a : Nat) : (s.pulse a).blt = s.blt := rfl
@[simp] theorem State.pulse_dma (a : Nat) : (s.pulse a).dma = s.dma := rfl
@[simp] theorem State.pulse_dmaServed (a : Nat) : (s.pulse a).dmaServed = s.dmaServed := rfl
@[simp] theorem State.pulse_boot (a : Nat) : (s.pulse a).boot = s.boot := rfl
@[simp] theorem State.pulse_cores (a : Nat) : (s.pulse a).cores = s.cores := rfl
@[simp] theorem State.pulse_irqStk (a : Nat) : (s.pulse a).irqStk = s.irqStk := rfl
@[simp] theorem State.pulse_pin (a : Nat) : (s.pulse a).pin = s.pin := rfl
@[simp] theorem State.pulse_tickOut (a : Nat) : (s.pulse a).tickOut = s.tickOut := rfl
@[simp] theorem State.pulse_clv (a : Nat) : (s.pulse a).clv = s.clv := rfl
@[simp] theorem State.pulse_tmr (a : Nat) : (s.pulse a).tmr = s.tmr := rfl
@[simp] theorem State.pulse_aud (a : Nat) : (s.pulse a).aud = s.aud := rfl
@[simp] theorem State.pulse_hst (a : Nat) : (s.pulse a).hst = s.hst := rfl
@[simp] theorem State.pulse_rdata (a : Nat) : (s.pulse a).rdata = s.rdata := rfl
@[simp] theorem State.pulse_pending (a : Nat) : (s.pulse a).pending = s.pending := rfl

@[simp] theorem State.emit_now (e : Emit) : (s.emit e).now = s.now := rfl
@[simp] theorem State.emit_gib (e : Emit) : (s.emit e).gib = s.gib := rfl
@[simp] theorem State.emit_regs (e : Emit) : (s.emit e).regs = s.regs := rfl
@[simp] theorem State.emit_ovr (e : Emit) : (s.emit e).ovr = s.ovr := rfl
@[simp] theorem State.emit_mem (e : Emit) : (s.emit e).mem = s.mem := rfl
@[simp] theorem State.emit_freeCnt (e : Emit) : (s.emit e).freeCnt = s.freeCnt := rfl
@[simp] theorem State.emit_raised (e : Emit) : (s.emit e).raised = s.raised := rfl
@[simp] theorem State.emit_cyc (e : Emit) : (s.emit e).cyc = s.cyc := rfl
@[simp] theorem State.emit_tick (e : Emit) : (s.emit e).tick = s.tick := rfl
@[simp] theorem State.emit_eng (e : Emit) : (s.emit e).eng = s.eng := rfl
@[simp] theorem State.emit_obj (e : Emit) : (s.emit e).obj = s.obj := rfl
@[simp] theorem State.emit_pld (e : Emit) : (s.emit e).pld = s.pld := rfl
@[simp] theorem State.emit_ward (e : Emit) : (s.emit e).ward = s.ward := rfl
@[simp] theorem State.emit_pvw (e : Emit) : (s.emit e).pvw = s.pvw := rfl
@[simp] theorem State.emit_lane (e : Emit) : (s.emit e).lane = s.lane := rfl
@[simp] theorem State.emit_port (e : Emit) : (s.emit e).port = s.port := rfl
@[simp] theorem State.emit_tile (e : Emit) : (s.emit e).tile = s.tile := rfl
@[simp] theorem State.emit_chain (e : Emit) : (s.emit e).chain = s.chain := rfl
@[simp] theorem State.emit_sec (e : Emit) : (s.emit e).sec = s.sec := rfl
@[simp] theorem State.emit_memc (e : Emit) : (s.emit e).memc = s.memc := rfl
@[simp] theorem State.emit_slc (e : Emit) : (s.emit e).slc = s.slc := rfl
@[simp] theorem State.emit_flt (e : Emit) : (s.emit e).flt = s.flt := rfl
@[simp] theorem State.emit_blt (e : Emit) : (s.emit e).blt = s.blt := rfl
@[simp] theorem State.emit_dma (e : Emit) : (s.emit e).dma = s.dma := rfl
@[simp] theorem State.emit_dmaServed (e : Emit) : (s.emit e).dmaServed = s.dmaServed := rfl
@[simp] theorem State.emit_boot (e : Emit) : (s.emit e).boot = s.boot := rfl
@[simp] theorem State.emit_cores (e : Emit) : (s.emit e).cores = s.cores := rfl
@[simp] theorem State.emit_irqStk (e : Emit) : (s.emit e).irqStk = s.irqStk := rfl
@[simp] theorem State.emit_pin (e : Emit) : (s.emit e).pin = s.pin := rfl
@[simp] theorem State.emit_tickOut (e : Emit) : (s.emit e).tickOut = s.tickOut := rfl
@[simp] theorem State.emit_clv (e : Emit) : (s.emit e).clv = s.clv := rfl
@[simp] theorem State.emit_tmr (e : Emit) : (s.emit e).tmr = s.tmr := rfl
@[simp] theorem State.emit_aud (e : Emit) : (s.emit e).aud = s.aud := rfl
@[simp] theorem State.emit_hst (e : Emit) : (s.emit e).hst = s.hst := rfl
@[simp] theorem State.emit_rdata (e : Emit) : (s.emit e).rdata = s.rdata := rfl
@[simp] theorem State.emit_pending (e : Emit) : (s.emit e).pending = s.pending := rfl

@[simp] theorem State.reach_gib (t : Nat) : (s.reach t).gib = s.gib := rfl
@[simp] theorem State.reach_regs (t : Nat) : (s.reach t).regs = s.regs := rfl
@[simp] theorem State.reach_ovr (t : Nat) : (s.reach t).ovr = s.ovr := rfl
@[simp] theorem State.reach_mem (t : Nat) : (s.reach t).mem = s.mem := rfl
@[simp] theorem State.reach_freeCnt (t : Nat) : (s.reach t).freeCnt = s.freeCnt := rfl
@[simp] theorem State.reach_raised (t : Nat) : (s.reach t).raised = s.raised := rfl
@[simp] theorem State.reach_sent (t : Nat) : (s.reach t).sent = s.sent := rfl
@[simp] theorem State.reach_cyc (t : Nat) : (s.reach t).cyc = s.cyc := rfl
@[simp] theorem State.reach_tick (t : Nat) : (s.reach t).tick = s.tick := rfl
@[simp] theorem State.reach_eng (t : Nat) : (s.reach t).eng = s.eng := rfl
@[simp] theorem State.reach_obj (t : Nat) : (s.reach t).obj = s.obj := rfl
@[simp] theorem State.reach_pld (t : Nat) : (s.reach t).pld = s.pld := rfl
@[simp] theorem State.reach_ward (t : Nat) : (s.reach t).ward = s.ward := rfl
@[simp] theorem State.reach_pvw (t : Nat) : (s.reach t).pvw = s.pvw := rfl
@[simp] theorem State.reach_lane (t : Nat) : (s.reach t).lane = s.lane := rfl
@[simp] theorem State.reach_port (t : Nat) : (s.reach t).port = s.port := rfl
@[simp] theorem State.reach_tile (t : Nat) : (s.reach t).tile = s.tile := rfl
@[simp] theorem State.reach_chain (t : Nat) : (s.reach t).chain = s.chain := rfl
@[simp] theorem State.reach_sec (t : Nat) : (s.reach t).sec = s.sec := rfl
@[simp] theorem State.reach_memc (t : Nat) : (s.reach t).memc = s.memc := rfl
@[simp] theorem State.reach_slc (t : Nat) : (s.reach t).slc = s.slc := rfl
@[simp] theorem State.reach_flt (t : Nat) : (s.reach t).flt = s.flt := rfl
@[simp] theorem State.reach_blt (t : Nat) : (s.reach t).blt = s.blt := rfl
@[simp] theorem State.reach_dma (t : Nat) : (s.reach t).dma = s.dma := rfl
@[simp] theorem State.reach_dmaServed (t : Nat) : (s.reach t).dmaServed = s.dmaServed := rfl
@[simp] theorem State.reach_boot (t : Nat) : (s.reach t).boot = s.boot := rfl
@[simp] theorem State.reach_cores (t : Nat) : (s.reach t).cores = s.cores := rfl
@[simp] theorem State.reach_irqStk (t : Nat) : (s.reach t).irqStk = s.irqStk := rfl
@[simp] theorem State.reach_pin (t : Nat) : (s.reach t).pin = s.pin := rfl
@[simp] theorem State.reach_tickOut (t : Nat) : (s.reach t).tickOut = s.tickOut := rfl
@[simp] theorem State.reach_clv (t : Nat) : (s.reach t).clv = s.clv := rfl
@[simp] theorem State.reach_tmr (t : Nat) : (s.reach t).tmr = s.tmr := rfl
@[simp] theorem State.reach_aud (t : Nat) : (s.reach t).aud = s.aud := rfl
@[simp] theorem State.reach_hst (t : Nat) : (s.reach t).hst = s.hst := rfl
@[simp] theorem State.reach_rdata (t : Nat) : (s.reach t).rdata = s.rdata := rfl
@[simp] theorem State.reach_pending (t : Nat) : (s.reach t).pending = s.pending := rfl

@[simp] theorem State.modEng_now (n : Nat) (f : EngS → EngS) : (s.modEng n f).now = s.now := rfl
@[simp] theorem State.modEng_gib (n : Nat) (f : EngS → EngS) : (s.modEng n f).gib = s.gib := rfl
@[simp] theorem State.modEng_regs (n : Nat) (f : EngS → EngS) : (s.modEng n f).regs = s.regs := rfl
@[simp] theorem State.modEng_ovr (n : Nat) (f : EngS → EngS) : (s.modEng n f).ovr = s.ovr := rfl
@[simp] theorem State.modEng_mem (n : Nat) (f : EngS → EngS) : (s.modEng n f).mem = s.mem := rfl
@[simp] theorem State.modEng_freeCnt (n : Nat) (f : EngS → EngS) : (s.modEng n f).freeCnt = s.freeCnt := rfl
@[simp] theorem State.modEng_raised (n : Nat) (f : EngS → EngS) : (s.modEng n f).raised = s.raised := rfl
@[simp] theorem State.modEng_sent (n : Nat) (f : EngS → EngS) : (s.modEng n f).sent = s.sent := rfl
@[simp] theorem State.modEng_cyc (n : Nat) (f : EngS → EngS) : (s.modEng n f).cyc = s.cyc := rfl
@[simp] theorem State.modEng_tick (n : Nat) (f : EngS → EngS) : (s.modEng n f).tick = s.tick := rfl
@[simp] theorem State.modEng_obj (n : Nat) (f : EngS → EngS) : (s.modEng n f).obj = s.obj := rfl
@[simp] theorem State.modEng_pld (n : Nat) (f : EngS → EngS) : (s.modEng n f).pld = s.pld := rfl
@[simp] theorem State.modEng_ward (n : Nat) (f : EngS → EngS) : (s.modEng n f).ward = s.ward := rfl
@[simp] theorem State.modEng_pvw (n : Nat) (f : EngS → EngS) : (s.modEng n f).pvw = s.pvw := rfl
@[simp] theorem State.modEng_lane (n : Nat) (f : EngS → EngS) : (s.modEng n f).lane = s.lane := rfl
@[simp] theorem State.modEng_port (n : Nat) (f : EngS → EngS) : (s.modEng n f).port = s.port := rfl
@[simp] theorem State.modEng_tile (n : Nat) (f : EngS → EngS) : (s.modEng n f).tile = s.tile := rfl
@[simp] theorem State.modEng_chain (n : Nat) (f : EngS → EngS) : (s.modEng n f).chain = s.chain := rfl
@[simp] theorem State.modEng_sec (n : Nat) (f : EngS → EngS) : (s.modEng n f).sec = s.sec := rfl
@[simp] theorem State.modEng_memc (n : Nat) (f : EngS → EngS) : (s.modEng n f).memc = s.memc := rfl
@[simp] theorem State.modEng_slc (n : Nat) (f : EngS → EngS) : (s.modEng n f).slc = s.slc := rfl
@[simp] theorem State.modEng_flt (n : Nat) (f : EngS → EngS) : (s.modEng n f).flt = s.flt := rfl
@[simp] theorem State.modEng_blt (n : Nat) (f : EngS → EngS) : (s.modEng n f).blt = s.blt := rfl
@[simp] theorem State.modEng_dma (n : Nat) (f : EngS → EngS) : (s.modEng n f).dma = s.dma := rfl
@[simp] theorem State.modEng_dmaServed (n : Nat) (f : EngS → EngS) : (s.modEng n f).dmaServed = s.dmaServed := rfl
@[simp] theorem State.modEng_boot (n : Nat) (f : EngS → EngS) : (s.modEng n f).boot = s.boot := rfl
@[simp] theorem State.modEng_cores (n : Nat) (f : EngS → EngS) : (s.modEng n f).cores = s.cores := rfl
@[simp] theorem State.modEng_irqStk (n : Nat) (f : EngS → EngS) : (s.modEng n f).irqStk = s.irqStk := rfl
@[simp] theorem State.modEng_pin (n : Nat) (f : EngS → EngS) : (s.modEng n f).pin = s.pin := rfl
@[simp] theorem State.modEng_tickOut (n : Nat) (f : EngS → EngS) : (s.modEng n f).tickOut = s.tickOut := rfl
@[simp] theorem State.modEng_clv (n : Nat) (f : EngS → EngS) : (s.modEng n f).clv = s.clv := rfl
@[simp] theorem State.modEng_tmr (n : Nat) (f : EngS → EngS) : (s.modEng n f).tmr = s.tmr := rfl
@[simp] theorem State.modEng_aud (n : Nat) (f : EngS → EngS) : (s.modEng n f).aud = s.aud := rfl
@[simp] theorem State.modEng_hst (n : Nat) (f : EngS → EngS) : (s.modEng n f).hst = s.hst := rfl
@[simp] theorem State.modEng_rdata (n : Nat) (f : EngS → EngS) : (s.modEng n f).rdata = s.rdata := rfl
@[simp] theorem State.modEng_pending (n : Nat) (f : EngS → EngS) : (s.modEng n f).pending = s.pending := rfl

@[simp] theorem State.modTick_now (f : TickS → TickS) : (s.modTick f).now = s.now := rfl
@[simp] theorem State.modTick_gib (f : TickS → TickS) : (s.modTick f).gib = s.gib := rfl
@[simp] theorem State.modTick_regs (f : TickS → TickS) : (s.modTick f).regs = s.regs := rfl
@[simp] theorem State.modTick_ovr (f : TickS → TickS) : (s.modTick f).ovr = s.ovr := rfl
@[simp] theorem State.modTick_mem (f : TickS → TickS) : (s.modTick f).mem = s.mem := rfl
@[simp] theorem State.modTick_freeCnt (f : TickS → TickS) : (s.modTick f).freeCnt = s.freeCnt := rfl
@[simp] theorem State.modTick_raised (f : TickS → TickS) : (s.modTick f).raised = s.raised := rfl
@[simp] theorem State.modTick_sent (f : TickS → TickS) : (s.modTick f).sent = s.sent := rfl
@[simp] theorem State.modTick_cyc (f : TickS → TickS) : (s.modTick f).cyc = s.cyc := rfl
@[simp] theorem State.modTick_eng (f : TickS → TickS) : (s.modTick f).eng = s.eng := rfl
@[simp] theorem State.modTick_obj (f : TickS → TickS) : (s.modTick f).obj = s.obj := rfl
@[simp] theorem State.modTick_pld (f : TickS → TickS) : (s.modTick f).pld = s.pld := rfl
@[simp] theorem State.modTick_ward (f : TickS → TickS) : (s.modTick f).ward = s.ward := rfl
@[simp] theorem State.modTick_pvw (f : TickS → TickS) : (s.modTick f).pvw = s.pvw := rfl
@[simp] theorem State.modTick_lane (f : TickS → TickS) : (s.modTick f).lane = s.lane := rfl
@[simp] theorem State.modTick_port (f : TickS → TickS) : (s.modTick f).port = s.port := rfl
@[simp] theorem State.modTick_tile (f : TickS → TickS) : (s.modTick f).tile = s.tile := rfl
@[simp] theorem State.modTick_chain (f : TickS → TickS) : (s.modTick f).chain = s.chain := rfl
@[simp] theorem State.modTick_sec (f : TickS → TickS) : (s.modTick f).sec = s.sec := rfl
@[simp] theorem State.modTick_memc (f : TickS → TickS) : (s.modTick f).memc = s.memc := rfl
@[simp] theorem State.modTick_slc (f : TickS → TickS) : (s.modTick f).slc = s.slc := rfl
@[simp] theorem State.modTick_flt (f : TickS → TickS) : (s.modTick f).flt = s.flt := rfl
@[simp] theorem State.modTick_blt (f : TickS → TickS) : (s.modTick f).blt = s.blt := rfl
@[simp] theorem State.modTick_dma (f : TickS → TickS) : (s.modTick f).dma = s.dma := rfl
@[simp] theorem State.modTick_dmaServed (f : TickS → TickS) : (s.modTick f).dmaServed = s.dmaServed := rfl
@[simp] theorem State.modTick_boot (f : TickS → TickS) : (s.modTick f).boot = s.boot := rfl
@[simp] theorem State.modTick_cores (f : TickS → TickS) : (s.modTick f).cores = s.cores := rfl
@[simp] theorem State.modTick_irqStk (f : TickS → TickS) : (s.modTick f).irqStk = s.irqStk := rfl
@[simp] theorem State.modTick_pin (f : TickS → TickS) : (s.modTick f).pin = s.pin := rfl
@[simp] theorem State.modTick_tickOut (f : TickS → TickS) : (s.modTick f).tickOut = s.tickOut := rfl
@[simp] theorem State.modTick_clv (f : TickS → TickS) : (s.modTick f).clv = s.clv := rfl
@[simp] theorem State.modTick_tmr (f : TickS → TickS) : (s.modTick f).tmr = s.tmr := rfl
@[simp] theorem State.modTick_aud (f : TickS → TickS) : (s.modTick f).aud = s.aud := rfl
@[simp] theorem State.modTick_hst (f : TickS → TickS) : (s.modTick f).hst = s.hst := rfl
@[simp] theorem State.modTick_rdata (f : TickS → TickS) : (s.modTick f).rdata = s.rdata := rfl
@[simp] theorem State.modTick_pending (f : TickS → TickS) : (s.modTick f).pending = s.pending := rfl

@[simp] theorem State.modObj_now (f : ObjS → ObjS) : (s.modObj f).now = s.now := rfl
@[simp] theorem State.modObj_gib (f : ObjS → ObjS) : (s.modObj f).gib = s.gib := rfl
@[simp] theorem State.modObj_regs (f : ObjS → ObjS) : (s.modObj f).regs = s.regs := rfl
@[simp] theorem State.modObj_ovr (f : ObjS → ObjS) : (s.modObj f).ovr = s.ovr := rfl
@[simp] theorem State.modObj_mem (f : ObjS → ObjS) : (s.modObj f).mem = s.mem := rfl
@[simp] theorem State.modObj_freeCnt (f : ObjS → ObjS) : (s.modObj f).freeCnt = s.freeCnt := rfl
@[simp] theorem State.modObj_raised (f : ObjS → ObjS) : (s.modObj f).raised = s.raised := rfl
@[simp] theorem State.modObj_sent (f : ObjS → ObjS) : (s.modObj f).sent = s.sent := rfl
@[simp] theorem State.modObj_cyc (f : ObjS → ObjS) : (s.modObj f).cyc = s.cyc := rfl
@[simp] theorem State.modObj_tick (f : ObjS → ObjS) : (s.modObj f).tick = s.tick := rfl
@[simp] theorem State.modObj_eng (f : ObjS → ObjS) : (s.modObj f).eng = s.eng := rfl
@[simp] theorem State.modObj_pld (f : ObjS → ObjS) : (s.modObj f).pld = s.pld := rfl
@[simp] theorem State.modObj_ward (f : ObjS → ObjS) : (s.modObj f).ward = s.ward := rfl
@[simp] theorem State.modObj_pvw (f : ObjS → ObjS) : (s.modObj f).pvw = s.pvw := rfl
@[simp] theorem State.modObj_lane (f : ObjS → ObjS) : (s.modObj f).lane = s.lane := rfl
@[simp] theorem State.modObj_port (f : ObjS → ObjS) : (s.modObj f).port = s.port := rfl
@[simp] theorem State.modObj_tile (f : ObjS → ObjS) : (s.modObj f).tile = s.tile := rfl
@[simp] theorem State.modObj_chain (f : ObjS → ObjS) : (s.modObj f).chain = s.chain := rfl
@[simp] theorem State.modObj_sec (f : ObjS → ObjS) : (s.modObj f).sec = s.sec := rfl
@[simp] theorem State.modObj_memc (f : ObjS → ObjS) : (s.modObj f).memc = s.memc := rfl
@[simp] theorem State.modObj_slc (f : ObjS → ObjS) : (s.modObj f).slc = s.slc := rfl
@[simp] theorem State.modObj_flt (f : ObjS → ObjS) : (s.modObj f).flt = s.flt := rfl
@[simp] theorem State.modObj_blt (f : ObjS → ObjS) : (s.modObj f).blt = s.blt := rfl
@[simp] theorem State.modObj_dma (f : ObjS → ObjS) : (s.modObj f).dma = s.dma := rfl
@[simp] theorem State.modObj_dmaServed (f : ObjS → ObjS) : (s.modObj f).dmaServed = s.dmaServed := rfl
@[simp] theorem State.modObj_boot (f : ObjS → ObjS) : (s.modObj f).boot = s.boot := rfl
@[simp] theorem State.modObj_cores (f : ObjS → ObjS) : (s.modObj f).cores = s.cores := rfl
@[simp] theorem State.modObj_irqStk (f : ObjS → ObjS) : (s.modObj f).irqStk = s.irqStk := rfl
@[simp] theorem State.modObj_pin (f : ObjS → ObjS) : (s.modObj f).pin = s.pin := rfl
@[simp] theorem State.modObj_tickOut (f : ObjS → ObjS) : (s.modObj f).tickOut = s.tickOut := rfl
@[simp] theorem State.modObj_clv (f : ObjS → ObjS) : (s.modObj f).clv = s.clv := rfl
@[simp] theorem State.modObj_tmr (f : ObjS → ObjS) : (s.modObj f).tmr = s.tmr := rfl
@[simp] theorem State.modObj_aud (f : ObjS → ObjS) : (s.modObj f).aud = s.aud := rfl
@[simp] theorem State.modObj_hst (f : ObjS → ObjS) : (s.modObj f).hst = s.hst := rfl
@[simp] theorem State.modObj_rdata (f : ObjS → ObjS) : (s.modObj f).rdata = s.rdata := rfl
@[simp] theorem State.modObj_pending (f : ObjS → ObjS) : (s.modObj f).pending = s.pending := rfl

@[simp] theorem State.modPld_now (n : Nat) (f : PldState → PldState) : (s.modPld n f).now = s.now := rfl
@[simp] theorem State.modPld_gib (n : Nat) (f : PldState → PldState) : (s.modPld n f).gib = s.gib := rfl
@[simp] theorem State.modPld_regs (n : Nat) (f : PldState → PldState) : (s.modPld n f).regs = s.regs := rfl
@[simp] theorem State.modPld_ovr (n : Nat) (f : PldState → PldState) : (s.modPld n f).ovr = s.ovr := rfl
@[simp] theorem State.modPld_mem (n : Nat) (f : PldState → PldState) : (s.modPld n f).mem = s.mem := rfl
@[simp] theorem State.modPld_freeCnt (n : Nat) (f : PldState → PldState) : (s.modPld n f).freeCnt = s.freeCnt := rfl
@[simp] theorem State.modPld_raised (n : Nat) (f : PldState → PldState) : (s.modPld n f).raised = s.raised := rfl
@[simp] theorem State.modPld_sent (n : Nat) (f : PldState → PldState) : (s.modPld n f).sent = s.sent := rfl
@[simp] theorem State.modPld_cyc (n : Nat) (f : PldState → PldState) : (s.modPld n f).cyc = s.cyc := rfl
@[simp] theorem State.modPld_tick (n : Nat) (f : PldState → PldState) : (s.modPld n f).tick = s.tick := rfl
@[simp] theorem State.modPld_eng (n : Nat) (f : PldState → PldState) : (s.modPld n f).eng = s.eng := rfl
@[simp] theorem State.modPld_obj (n : Nat) (f : PldState → PldState) : (s.modPld n f).obj = s.obj := rfl
@[simp] theorem State.modPld_ward (n : Nat) (f : PldState → PldState) : (s.modPld n f).ward = s.ward := rfl
@[simp] theorem State.modPld_pvw (n : Nat) (f : PldState → PldState) : (s.modPld n f).pvw = s.pvw := rfl
@[simp] theorem State.modPld_lane (n : Nat) (f : PldState → PldState) : (s.modPld n f).lane = s.lane := rfl
@[simp] theorem State.modPld_port (n : Nat) (f : PldState → PldState) : (s.modPld n f).port = s.port := rfl
@[simp] theorem State.modPld_tile (n : Nat) (f : PldState → PldState) : (s.modPld n f).tile = s.tile := rfl
@[simp] theorem State.modPld_chain (n : Nat) (f : PldState → PldState) : (s.modPld n f).chain = s.chain := rfl
@[simp] theorem State.modPld_sec (n : Nat) (f : PldState → PldState) : (s.modPld n f).sec = s.sec := rfl
@[simp] theorem State.modPld_memc (n : Nat) (f : PldState → PldState) : (s.modPld n f).memc = s.memc := rfl
@[simp] theorem State.modPld_slc (n : Nat) (f : PldState → PldState) : (s.modPld n f).slc = s.slc := rfl
@[simp] theorem State.modPld_flt (n : Nat) (f : PldState → PldState) : (s.modPld n f).flt = s.flt := rfl
@[simp] theorem State.modPld_blt (n : Nat) (f : PldState → PldState) : (s.modPld n f).blt = s.blt := rfl
@[simp] theorem State.modPld_dma (n : Nat) (f : PldState → PldState) : (s.modPld n f).dma = s.dma := rfl
@[simp] theorem State.modPld_dmaServed (n : Nat) (f : PldState → PldState) : (s.modPld n f).dmaServed = s.dmaServed := rfl
@[simp] theorem State.modPld_boot (n : Nat) (f : PldState → PldState) : (s.modPld n f).boot = s.boot := rfl
@[simp] theorem State.modPld_cores (n : Nat) (f : PldState → PldState) : (s.modPld n f).cores = s.cores := rfl
@[simp] theorem State.modPld_irqStk (n : Nat) (f : PldState → PldState) : (s.modPld n f).irqStk = s.irqStk := rfl
@[simp] theorem State.modPld_pin (n : Nat) (f : PldState → PldState) : (s.modPld n f).pin = s.pin := rfl
@[simp] theorem State.modPld_tickOut (n : Nat) (f : PldState → PldState) : (s.modPld n f).tickOut = s.tickOut := rfl
@[simp] theorem State.modPld_clv (n : Nat) (f : PldState → PldState) : (s.modPld n f).clv = s.clv := rfl
@[simp] theorem State.modPld_tmr (n : Nat) (f : PldState → PldState) : (s.modPld n f).tmr = s.tmr := rfl
@[simp] theorem State.modPld_aud (n : Nat) (f : PldState → PldState) : (s.modPld n f).aud = s.aud := rfl
@[simp] theorem State.modPld_hst (n : Nat) (f : PldState → PldState) : (s.modPld n f).hst = s.hst := rfl
@[simp] theorem State.modPld_rdata (n : Nat) (f : PldState → PldState) : (s.modPld n f).rdata = s.rdata := rfl
@[simp] theorem State.modPld_pending (n : Nat) (f : PldState → PldState) : (s.modPld n f).pending = s.pending := rfl

@[simp] theorem State.modWard_now (f : WardS → WardS) : (s.modWard f).now = s.now := rfl
@[simp] theorem State.modWard_gib (f : WardS → WardS) : (s.modWard f).gib = s.gib := rfl
@[simp] theorem State.modWard_regs (f : WardS → WardS) : (s.modWard f).regs = s.regs := rfl
@[simp] theorem State.modWard_ovr (f : WardS → WardS) : (s.modWard f).ovr = s.ovr := rfl
@[simp] theorem State.modWard_mem (f : WardS → WardS) : (s.modWard f).mem = s.mem := rfl
@[simp] theorem State.modWard_freeCnt (f : WardS → WardS) : (s.modWard f).freeCnt = s.freeCnt := rfl
@[simp] theorem State.modWard_raised (f : WardS → WardS) : (s.modWard f).raised = s.raised := rfl
@[simp] theorem State.modWard_sent (f : WardS → WardS) : (s.modWard f).sent = s.sent := rfl
@[simp] theorem State.modWard_cyc (f : WardS → WardS) : (s.modWard f).cyc = s.cyc := rfl
@[simp] theorem State.modWard_tick (f : WardS → WardS) : (s.modWard f).tick = s.tick := rfl
@[simp] theorem State.modWard_eng (f : WardS → WardS) : (s.modWard f).eng = s.eng := rfl
@[simp] theorem State.modWard_obj (f : WardS → WardS) : (s.modWard f).obj = s.obj := rfl
@[simp] theorem State.modWard_pld (f : WardS → WardS) : (s.modWard f).pld = s.pld := rfl
@[simp] theorem State.modWard_pvw (f : WardS → WardS) : (s.modWard f).pvw = s.pvw := rfl
@[simp] theorem State.modWard_lane (f : WardS → WardS) : (s.modWard f).lane = s.lane := rfl
@[simp] theorem State.modWard_port (f : WardS → WardS) : (s.modWard f).port = s.port := rfl
@[simp] theorem State.modWard_tile (f : WardS → WardS) : (s.modWard f).tile = s.tile := rfl
@[simp] theorem State.modWard_chain (f : WardS → WardS) : (s.modWard f).chain = s.chain := rfl
@[simp] theorem State.modWard_sec (f : WardS → WardS) : (s.modWard f).sec = s.sec := rfl
@[simp] theorem State.modWard_memc (f : WardS → WardS) : (s.modWard f).memc = s.memc := rfl
@[simp] theorem State.modWard_slc (f : WardS → WardS) : (s.modWard f).slc = s.slc := rfl
@[simp] theorem State.modWard_flt (f : WardS → WardS) : (s.modWard f).flt = s.flt := rfl
@[simp] theorem State.modWard_blt (f : WardS → WardS) : (s.modWard f).blt = s.blt := rfl
@[simp] theorem State.modWard_dma (f : WardS → WardS) : (s.modWard f).dma = s.dma := rfl
@[simp] theorem State.modWard_dmaServed (f : WardS → WardS) : (s.modWard f).dmaServed = s.dmaServed := rfl
@[simp] theorem State.modWard_boot (f : WardS → WardS) : (s.modWard f).boot = s.boot := rfl
@[simp] theorem State.modWard_cores (f : WardS → WardS) : (s.modWard f).cores = s.cores := rfl
@[simp] theorem State.modWard_irqStk (f : WardS → WardS) : (s.modWard f).irqStk = s.irqStk := rfl
@[simp] theorem State.modWard_pin (f : WardS → WardS) : (s.modWard f).pin = s.pin := rfl
@[simp] theorem State.modWard_tickOut (f : WardS → WardS) : (s.modWard f).tickOut = s.tickOut := rfl
@[simp] theorem State.modWard_clv (f : WardS → WardS) : (s.modWard f).clv = s.clv := rfl
@[simp] theorem State.modWard_tmr (f : WardS → WardS) : (s.modWard f).tmr = s.tmr := rfl
@[simp] theorem State.modWard_aud (f : WardS → WardS) : (s.modWard f).aud = s.aud := rfl
@[simp] theorem State.modWard_hst (f : WardS → WardS) : (s.modWard f).hst = s.hst := rfl
@[simp] theorem State.modWard_rdata (f : WardS → WardS) : (s.modWard f).rdata = s.rdata := rfl
@[simp] theorem State.modWard_pending (f : WardS → WardS) : (s.modWard f).pending = s.pending := rfl

@[simp] theorem State.modPvw_now (n : Nat) (f : PvwS → PvwS) : (s.modPvw n f).now = s.now := rfl
@[simp] theorem State.modPvw_gib (n : Nat) (f : PvwS → PvwS) : (s.modPvw n f).gib = s.gib := rfl
@[simp] theorem State.modPvw_regs (n : Nat) (f : PvwS → PvwS) : (s.modPvw n f).regs = s.regs := rfl
@[simp] theorem State.modPvw_ovr (n : Nat) (f : PvwS → PvwS) : (s.modPvw n f).ovr = s.ovr := rfl
@[simp] theorem State.modPvw_mem (n : Nat) (f : PvwS → PvwS) : (s.modPvw n f).mem = s.mem := rfl
@[simp] theorem State.modPvw_freeCnt (n : Nat) (f : PvwS → PvwS) : (s.modPvw n f).freeCnt = s.freeCnt := rfl
@[simp] theorem State.modPvw_raised (n : Nat) (f : PvwS → PvwS) : (s.modPvw n f).raised = s.raised := rfl
@[simp] theorem State.modPvw_sent (n : Nat) (f : PvwS → PvwS) : (s.modPvw n f).sent = s.sent := rfl
@[simp] theorem State.modPvw_cyc (n : Nat) (f : PvwS → PvwS) : (s.modPvw n f).cyc = s.cyc := rfl
@[simp] theorem State.modPvw_tick (n : Nat) (f : PvwS → PvwS) : (s.modPvw n f).tick = s.tick := rfl
@[simp] theorem State.modPvw_eng (n : Nat) (f : PvwS → PvwS) : (s.modPvw n f).eng = s.eng := rfl
@[simp] theorem State.modPvw_obj (n : Nat) (f : PvwS → PvwS) : (s.modPvw n f).obj = s.obj := rfl
@[simp] theorem State.modPvw_pld (n : Nat) (f : PvwS → PvwS) : (s.modPvw n f).pld = s.pld := rfl
@[simp] theorem State.modPvw_ward (n : Nat) (f : PvwS → PvwS) : (s.modPvw n f).ward = s.ward := rfl
@[simp] theorem State.modPvw_lane (n : Nat) (f : PvwS → PvwS) : (s.modPvw n f).lane = s.lane := rfl
@[simp] theorem State.modPvw_port (n : Nat) (f : PvwS → PvwS) : (s.modPvw n f).port = s.port := rfl
@[simp] theorem State.modPvw_tile (n : Nat) (f : PvwS → PvwS) : (s.modPvw n f).tile = s.tile := rfl
@[simp] theorem State.modPvw_chain (n : Nat) (f : PvwS → PvwS) : (s.modPvw n f).chain = s.chain := rfl
@[simp] theorem State.modPvw_sec (n : Nat) (f : PvwS → PvwS) : (s.modPvw n f).sec = s.sec := rfl
@[simp] theorem State.modPvw_memc (n : Nat) (f : PvwS → PvwS) : (s.modPvw n f).memc = s.memc := rfl
@[simp] theorem State.modPvw_slc (n : Nat) (f : PvwS → PvwS) : (s.modPvw n f).slc = s.slc := rfl
@[simp] theorem State.modPvw_flt (n : Nat) (f : PvwS → PvwS) : (s.modPvw n f).flt = s.flt := rfl
@[simp] theorem State.modPvw_blt (n : Nat) (f : PvwS → PvwS) : (s.modPvw n f).blt = s.blt := rfl
@[simp] theorem State.modPvw_dma (n : Nat) (f : PvwS → PvwS) : (s.modPvw n f).dma = s.dma := rfl
@[simp] theorem State.modPvw_dmaServed (n : Nat) (f : PvwS → PvwS) : (s.modPvw n f).dmaServed = s.dmaServed := rfl
@[simp] theorem State.modPvw_boot (n : Nat) (f : PvwS → PvwS) : (s.modPvw n f).boot = s.boot := rfl
@[simp] theorem State.modPvw_cores (n : Nat) (f : PvwS → PvwS) : (s.modPvw n f).cores = s.cores := rfl
@[simp] theorem State.modPvw_irqStk (n : Nat) (f : PvwS → PvwS) : (s.modPvw n f).irqStk = s.irqStk := rfl
@[simp] theorem State.modPvw_pin (n : Nat) (f : PvwS → PvwS) : (s.modPvw n f).pin = s.pin := rfl
@[simp] theorem State.modPvw_tickOut (n : Nat) (f : PvwS → PvwS) : (s.modPvw n f).tickOut = s.tickOut := rfl
@[simp] theorem State.modPvw_clv (n : Nat) (f : PvwS → PvwS) : (s.modPvw n f).clv = s.clv := rfl
@[simp] theorem State.modPvw_tmr (n : Nat) (f : PvwS → PvwS) : (s.modPvw n f).tmr = s.tmr := rfl
@[simp] theorem State.modPvw_aud (n : Nat) (f : PvwS → PvwS) : (s.modPvw n f).aud = s.aud := rfl
@[simp] theorem State.modPvw_hst (n : Nat) (f : PvwS → PvwS) : (s.modPvw n f).hst = s.hst := rfl
@[simp] theorem State.modPvw_rdata (n : Nat) (f : PvwS → PvwS) : (s.modPvw n f).rdata = s.rdata := rfl
@[simp] theorem State.modPvw_pending (n : Nat) (f : PvwS → PvwS) : (s.modPvw n f).pending = s.pending := rfl

@[simp] theorem State.modLane_now (n : Nat) (f : LaneS → LaneS) : (s.modLane n f).now = s.now := rfl
@[simp] theorem State.modLane_gib (n : Nat) (f : LaneS → LaneS) : (s.modLane n f).gib = s.gib := rfl
@[simp] theorem State.modLane_regs (n : Nat) (f : LaneS → LaneS) : (s.modLane n f).regs = s.regs := rfl
@[simp] theorem State.modLane_ovr (n : Nat) (f : LaneS → LaneS) : (s.modLane n f).ovr = s.ovr := rfl
@[simp] theorem State.modLane_mem (n : Nat) (f : LaneS → LaneS) : (s.modLane n f).mem = s.mem := rfl
@[simp] theorem State.modLane_freeCnt (n : Nat) (f : LaneS → LaneS) : (s.modLane n f).freeCnt = s.freeCnt := rfl
@[simp] theorem State.modLane_raised (n : Nat) (f : LaneS → LaneS) : (s.modLane n f).raised = s.raised := rfl
@[simp] theorem State.modLane_sent (n : Nat) (f : LaneS → LaneS) : (s.modLane n f).sent = s.sent := rfl
@[simp] theorem State.modLane_cyc (n : Nat) (f : LaneS → LaneS) : (s.modLane n f).cyc = s.cyc := rfl
@[simp] theorem State.modLane_tick (n : Nat) (f : LaneS → LaneS) : (s.modLane n f).tick = s.tick := rfl
@[simp] theorem State.modLane_eng (n : Nat) (f : LaneS → LaneS) : (s.modLane n f).eng = s.eng := rfl
@[simp] theorem State.modLane_obj (n : Nat) (f : LaneS → LaneS) : (s.modLane n f).obj = s.obj := rfl
@[simp] theorem State.modLane_pld (n : Nat) (f : LaneS → LaneS) : (s.modLane n f).pld = s.pld := rfl
@[simp] theorem State.modLane_ward (n : Nat) (f : LaneS → LaneS) : (s.modLane n f).ward = s.ward := rfl
@[simp] theorem State.modLane_pvw (n : Nat) (f : LaneS → LaneS) : (s.modLane n f).pvw = s.pvw := rfl
@[simp] theorem State.modLane_port (n : Nat) (f : LaneS → LaneS) : (s.modLane n f).port = s.port := rfl
@[simp] theorem State.modLane_tile (n : Nat) (f : LaneS → LaneS) : (s.modLane n f).tile = s.tile := rfl
@[simp] theorem State.modLane_chain (n : Nat) (f : LaneS → LaneS) : (s.modLane n f).chain = s.chain := rfl
@[simp] theorem State.modLane_sec (n : Nat) (f : LaneS → LaneS) : (s.modLane n f).sec = s.sec := rfl
@[simp] theorem State.modLane_memc (n : Nat) (f : LaneS → LaneS) : (s.modLane n f).memc = s.memc := rfl
@[simp] theorem State.modLane_slc (n : Nat) (f : LaneS → LaneS) : (s.modLane n f).slc = s.slc := rfl
@[simp] theorem State.modLane_flt (n : Nat) (f : LaneS → LaneS) : (s.modLane n f).flt = s.flt := rfl
@[simp] theorem State.modLane_blt (n : Nat) (f : LaneS → LaneS) : (s.modLane n f).blt = s.blt := rfl
@[simp] theorem State.modLane_dma (n : Nat) (f : LaneS → LaneS) : (s.modLane n f).dma = s.dma := rfl
@[simp] theorem State.modLane_dmaServed (n : Nat) (f : LaneS → LaneS) : (s.modLane n f).dmaServed = s.dmaServed := rfl
@[simp] theorem State.modLane_boot (n : Nat) (f : LaneS → LaneS) : (s.modLane n f).boot = s.boot := rfl
@[simp] theorem State.modLane_cores (n : Nat) (f : LaneS → LaneS) : (s.modLane n f).cores = s.cores := rfl
@[simp] theorem State.modLane_irqStk (n : Nat) (f : LaneS → LaneS) : (s.modLane n f).irqStk = s.irqStk := rfl
@[simp] theorem State.modLane_pin (n : Nat) (f : LaneS → LaneS) : (s.modLane n f).pin = s.pin := rfl
@[simp] theorem State.modLane_tickOut (n : Nat) (f : LaneS → LaneS) : (s.modLane n f).tickOut = s.tickOut := rfl
@[simp] theorem State.modLane_clv (n : Nat) (f : LaneS → LaneS) : (s.modLane n f).clv = s.clv := rfl
@[simp] theorem State.modLane_tmr (n : Nat) (f : LaneS → LaneS) : (s.modLane n f).tmr = s.tmr := rfl
@[simp] theorem State.modLane_aud (n : Nat) (f : LaneS → LaneS) : (s.modLane n f).aud = s.aud := rfl
@[simp] theorem State.modLane_hst (n : Nat) (f : LaneS → LaneS) : (s.modLane n f).hst = s.hst := rfl
@[simp] theorem State.modLane_rdata (n : Nat) (f : LaneS → LaneS) : (s.modLane n f).rdata = s.rdata := rfl
@[simp] theorem State.modLane_pending (n : Nat) (f : LaneS → LaneS) : (s.modLane n f).pending = s.pending := rfl

@[simp] theorem State.modPort_now (n : Nat) (f : PortS → PortS) : (s.modPort n f).now = s.now := rfl
@[simp] theorem State.modPort_gib (n : Nat) (f : PortS → PortS) : (s.modPort n f).gib = s.gib := rfl
@[simp] theorem State.modPort_regs (n : Nat) (f : PortS → PortS) : (s.modPort n f).regs = s.regs := rfl
@[simp] theorem State.modPort_ovr (n : Nat) (f : PortS → PortS) : (s.modPort n f).ovr = s.ovr := rfl
@[simp] theorem State.modPort_mem (n : Nat) (f : PortS → PortS) : (s.modPort n f).mem = s.mem := rfl
@[simp] theorem State.modPort_freeCnt (n : Nat) (f : PortS → PortS) : (s.modPort n f).freeCnt = s.freeCnt := rfl
@[simp] theorem State.modPort_raised (n : Nat) (f : PortS → PortS) : (s.modPort n f).raised = s.raised := rfl
@[simp] theorem State.modPort_sent (n : Nat) (f : PortS → PortS) : (s.modPort n f).sent = s.sent := rfl
@[simp] theorem State.modPort_cyc (n : Nat) (f : PortS → PortS) : (s.modPort n f).cyc = s.cyc := rfl
@[simp] theorem State.modPort_tick (n : Nat) (f : PortS → PortS) : (s.modPort n f).tick = s.tick := rfl
@[simp] theorem State.modPort_eng (n : Nat) (f : PortS → PortS) : (s.modPort n f).eng = s.eng := rfl
@[simp] theorem State.modPort_obj (n : Nat) (f : PortS → PortS) : (s.modPort n f).obj = s.obj := rfl
@[simp] theorem State.modPort_pld (n : Nat) (f : PortS → PortS) : (s.modPort n f).pld = s.pld := rfl
@[simp] theorem State.modPort_ward (n : Nat) (f : PortS → PortS) : (s.modPort n f).ward = s.ward := rfl
@[simp] theorem State.modPort_pvw (n : Nat) (f : PortS → PortS) : (s.modPort n f).pvw = s.pvw := rfl
@[simp] theorem State.modPort_lane (n : Nat) (f : PortS → PortS) : (s.modPort n f).lane = s.lane := rfl
@[simp] theorem State.modPort_tile (n : Nat) (f : PortS → PortS) : (s.modPort n f).tile = s.tile := rfl
@[simp] theorem State.modPort_chain (n : Nat) (f : PortS → PortS) : (s.modPort n f).chain = s.chain := rfl
@[simp] theorem State.modPort_sec (n : Nat) (f : PortS → PortS) : (s.modPort n f).sec = s.sec := rfl
@[simp] theorem State.modPort_memc (n : Nat) (f : PortS → PortS) : (s.modPort n f).memc = s.memc := rfl
@[simp] theorem State.modPort_slc (n : Nat) (f : PortS → PortS) : (s.modPort n f).slc = s.slc := rfl
@[simp] theorem State.modPort_flt (n : Nat) (f : PortS → PortS) : (s.modPort n f).flt = s.flt := rfl
@[simp] theorem State.modPort_blt (n : Nat) (f : PortS → PortS) : (s.modPort n f).blt = s.blt := rfl
@[simp] theorem State.modPort_dma (n : Nat) (f : PortS → PortS) : (s.modPort n f).dma = s.dma := rfl
@[simp] theorem State.modPort_dmaServed (n : Nat) (f : PortS → PortS) : (s.modPort n f).dmaServed = s.dmaServed := rfl
@[simp] theorem State.modPort_boot (n : Nat) (f : PortS → PortS) : (s.modPort n f).boot = s.boot := rfl
@[simp] theorem State.modPort_cores (n : Nat) (f : PortS → PortS) : (s.modPort n f).cores = s.cores := rfl
@[simp] theorem State.modPort_irqStk (n : Nat) (f : PortS → PortS) : (s.modPort n f).irqStk = s.irqStk := rfl
@[simp] theorem State.modPort_pin (n : Nat) (f : PortS → PortS) : (s.modPort n f).pin = s.pin := rfl
@[simp] theorem State.modPort_tickOut (n : Nat) (f : PortS → PortS) : (s.modPort n f).tickOut = s.tickOut := rfl
@[simp] theorem State.modPort_clv (n : Nat) (f : PortS → PortS) : (s.modPort n f).clv = s.clv := rfl
@[simp] theorem State.modPort_tmr (n : Nat) (f : PortS → PortS) : (s.modPort n f).tmr = s.tmr := rfl
@[simp] theorem State.modPort_aud (n : Nat) (f : PortS → PortS) : (s.modPort n f).aud = s.aud := rfl
@[simp] theorem State.modPort_hst (n : Nat) (f : PortS → PortS) : (s.modPort n f).hst = s.hst := rfl
@[simp] theorem State.modPort_rdata (n : Nat) (f : PortS → PortS) : (s.modPort n f).rdata = s.rdata := rfl
@[simp] theorem State.modPort_pending (n : Nat) (f : PortS → PortS) : (s.modPort n f).pending = s.pending := rfl

@[simp] theorem State.modTile_now (n : Nat) (f : TileS → TileS) : (s.modTile n f).now = s.now := rfl
@[simp] theorem State.modTile_gib (n : Nat) (f : TileS → TileS) : (s.modTile n f).gib = s.gib := rfl
@[simp] theorem State.modTile_regs (n : Nat) (f : TileS → TileS) : (s.modTile n f).regs = s.regs := rfl
@[simp] theorem State.modTile_ovr (n : Nat) (f : TileS → TileS) : (s.modTile n f).ovr = s.ovr := rfl
@[simp] theorem State.modTile_mem (n : Nat) (f : TileS → TileS) : (s.modTile n f).mem = s.mem := rfl
@[simp] theorem State.modTile_freeCnt (n : Nat) (f : TileS → TileS) : (s.modTile n f).freeCnt = s.freeCnt := rfl
@[simp] theorem State.modTile_raised (n : Nat) (f : TileS → TileS) : (s.modTile n f).raised = s.raised := rfl
@[simp] theorem State.modTile_sent (n : Nat) (f : TileS → TileS) : (s.modTile n f).sent = s.sent := rfl
@[simp] theorem State.modTile_cyc (n : Nat) (f : TileS → TileS) : (s.modTile n f).cyc = s.cyc := rfl
@[simp] theorem State.modTile_tick (n : Nat) (f : TileS → TileS) : (s.modTile n f).tick = s.tick := rfl
@[simp] theorem State.modTile_eng (n : Nat) (f : TileS → TileS) : (s.modTile n f).eng = s.eng := rfl
@[simp] theorem State.modTile_obj (n : Nat) (f : TileS → TileS) : (s.modTile n f).obj = s.obj := rfl
@[simp] theorem State.modTile_pld (n : Nat) (f : TileS → TileS) : (s.modTile n f).pld = s.pld := rfl
@[simp] theorem State.modTile_ward (n : Nat) (f : TileS → TileS) : (s.modTile n f).ward = s.ward := rfl
@[simp] theorem State.modTile_pvw (n : Nat) (f : TileS → TileS) : (s.modTile n f).pvw = s.pvw := rfl
@[simp] theorem State.modTile_lane (n : Nat) (f : TileS → TileS) : (s.modTile n f).lane = s.lane := rfl
@[simp] theorem State.modTile_port (n : Nat) (f : TileS → TileS) : (s.modTile n f).port = s.port := rfl
@[simp] theorem State.modTile_chain (n : Nat) (f : TileS → TileS) : (s.modTile n f).chain = s.chain := rfl
@[simp] theorem State.modTile_sec (n : Nat) (f : TileS → TileS) : (s.modTile n f).sec = s.sec := rfl
@[simp] theorem State.modTile_memc (n : Nat) (f : TileS → TileS) : (s.modTile n f).memc = s.memc := rfl
@[simp] theorem State.modTile_slc (n : Nat) (f : TileS → TileS) : (s.modTile n f).slc = s.slc := rfl
@[simp] theorem State.modTile_flt (n : Nat) (f : TileS → TileS) : (s.modTile n f).flt = s.flt := rfl
@[simp] theorem State.modTile_blt (n : Nat) (f : TileS → TileS) : (s.modTile n f).blt = s.blt := rfl
@[simp] theorem State.modTile_dma (n : Nat) (f : TileS → TileS) : (s.modTile n f).dma = s.dma := rfl
@[simp] theorem State.modTile_dmaServed (n : Nat) (f : TileS → TileS) : (s.modTile n f).dmaServed = s.dmaServed := rfl
@[simp] theorem State.modTile_boot (n : Nat) (f : TileS → TileS) : (s.modTile n f).boot = s.boot := rfl
@[simp] theorem State.modTile_cores (n : Nat) (f : TileS → TileS) : (s.modTile n f).cores = s.cores := rfl
@[simp] theorem State.modTile_irqStk (n : Nat) (f : TileS → TileS) : (s.modTile n f).irqStk = s.irqStk := rfl
@[simp] theorem State.modTile_pin (n : Nat) (f : TileS → TileS) : (s.modTile n f).pin = s.pin := rfl
@[simp] theorem State.modTile_tickOut (n : Nat) (f : TileS → TileS) : (s.modTile n f).tickOut = s.tickOut := rfl
@[simp] theorem State.modTile_clv (n : Nat) (f : TileS → TileS) : (s.modTile n f).clv = s.clv := rfl
@[simp] theorem State.modTile_tmr (n : Nat) (f : TileS → TileS) : (s.modTile n f).tmr = s.tmr := rfl
@[simp] theorem State.modTile_aud (n : Nat) (f : TileS → TileS) : (s.modTile n f).aud = s.aud := rfl
@[simp] theorem State.modTile_hst (n : Nat) (f : TileS → TileS) : (s.modTile n f).hst = s.hst := rfl
@[simp] theorem State.modTile_rdata (n : Nat) (f : TileS → TileS) : (s.modTile n f).rdata = s.rdata := rfl
@[simp] theorem State.modTile_pending (n : Nat) (f : TileS → TileS) : (s.modTile n f).pending = s.pending := rfl

@[simp] theorem State.modCh_now (n : Nat) (f : ChTile → ChTile) : (s.modCh n f).now = s.now := rfl
@[simp] theorem State.modCh_gib (n : Nat) (f : ChTile → ChTile) : (s.modCh n f).gib = s.gib := rfl
@[simp] theorem State.modCh_regs (n : Nat) (f : ChTile → ChTile) : (s.modCh n f).regs = s.regs := rfl
@[simp] theorem State.modCh_ovr (n : Nat) (f : ChTile → ChTile) : (s.modCh n f).ovr = s.ovr := rfl
@[simp] theorem State.modCh_mem (n : Nat) (f : ChTile → ChTile) : (s.modCh n f).mem = s.mem := rfl
@[simp] theorem State.modCh_freeCnt (n : Nat) (f : ChTile → ChTile) : (s.modCh n f).freeCnt = s.freeCnt := rfl
@[simp] theorem State.modCh_raised (n : Nat) (f : ChTile → ChTile) : (s.modCh n f).raised = s.raised := rfl
@[simp] theorem State.modCh_sent (n : Nat) (f : ChTile → ChTile) : (s.modCh n f).sent = s.sent := rfl
@[simp] theorem State.modCh_cyc (n : Nat) (f : ChTile → ChTile) : (s.modCh n f).cyc = s.cyc := rfl
@[simp] theorem State.modCh_tick (n : Nat) (f : ChTile → ChTile) : (s.modCh n f).tick = s.tick := rfl
@[simp] theorem State.modCh_eng (n : Nat) (f : ChTile → ChTile) : (s.modCh n f).eng = s.eng := rfl
@[simp] theorem State.modCh_obj (n : Nat) (f : ChTile → ChTile) : (s.modCh n f).obj = s.obj := rfl
@[simp] theorem State.modCh_pld (n : Nat) (f : ChTile → ChTile) : (s.modCh n f).pld = s.pld := rfl
@[simp] theorem State.modCh_ward (n : Nat) (f : ChTile → ChTile) : (s.modCh n f).ward = s.ward := rfl
@[simp] theorem State.modCh_pvw (n : Nat) (f : ChTile → ChTile) : (s.modCh n f).pvw = s.pvw := rfl
@[simp] theorem State.modCh_lane (n : Nat) (f : ChTile → ChTile) : (s.modCh n f).lane = s.lane := rfl
@[simp] theorem State.modCh_port (n : Nat) (f : ChTile → ChTile) : (s.modCh n f).port = s.port := rfl
@[simp] theorem State.modCh_tile (n : Nat) (f : ChTile → ChTile) : (s.modCh n f).tile = s.tile := rfl
@[simp] theorem State.modCh_sec (n : Nat) (f : ChTile → ChTile) : (s.modCh n f).sec = s.sec := rfl
@[simp] theorem State.modCh_memc (n : Nat) (f : ChTile → ChTile) : (s.modCh n f).memc = s.memc := rfl
@[simp] theorem State.modCh_slc (n : Nat) (f : ChTile → ChTile) : (s.modCh n f).slc = s.slc := rfl
@[simp] theorem State.modCh_flt (n : Nat) (f : ChTile → ChTile) : (s.modCh n f).flt = s.flt := rfl
@[simp] theorem State.modCh_blt (n : Nat) (f : ChTile → ChTile) : (s.modCh n f).blt = s.blt := rfl
@[simp] theorem State.modCh_dma (n : Nat) (f : ChTile → ChTile) : (s.modCh n f).dma = s.dma := rfl
@[simp] theorem State.modCh_dmaServed (n : Nat) (f : ChTile → ChTile) : (s.modCh n f).dmaServed = s.dmaServed := rfl
@[simp] theorem State.modCh_boot (n : Nat) (f : ChTile → ChTile) : (s.modCh n f).boot = s.boot := rfl
@[simp] theorem State.modCh_cores (n : Nat) (f : ChTile → ChTile) : (s.modCh n f).cores = s.cores := rfl
@[simp] theorem State.modCh_irqStk (n : Nat) (f : ChTile → ChTile) : (s.modCh n f).irqStk = s.irqStk := rfl
@[simp] theorem State.modCh_pin (n : Nat) (f : ChTile → ChTile) : (s.modCh n f).pin = s.pin := rfl
@[simp] theorem State.modCh_tickOut (n : Nat) (f : ChTile → ChTile) : (s.modCh n f).tickOut = s.tickOut := rfl
@[simp] theorem State.modCh_clv (n : Nat) (f : ChTile → ChTile) : (s.modCh n f).clv = s.clv := rfl
@[simp] theorem State.modCh_tmr (n : Nat) (f : ChTile → ChTile) : (s.modCh n f).tmr = s.tmr := rfl
@[simp] theorem State.modCh_aud (n : Nat) (f : ChTile → ChTile) : (s.modCh n f).aud = s.aud := rfl
@[simp] theorem State.modCh_hst (n : Nat) (f : ChTile → ChTile) : (s.modCh n f).hst = s.hst := rfl
@[simp] theorem State.modCh_rdata (n : Nat) (f : ChTile → ChTile) : (s.modCh n f).rdata = s.rdata := rfl
@[simp] theorem State.modCh_pending (n : Nat) (f : ChTile → ChTile) : (s.modCh n f).pending = s.pending := rfl

@[simp] theorem State.modSec_now (f : SecS → SecS) : (s.modSec f).now = s.now := rfl
@[simp] theorem State.modSec_gib (f : SecS → SecS) : (s.modSec f).gib = s.gib := rfl
@[simp] theorem State.modSec_regs (f : SecS → SecS) : (s.modSec f).regs = s.regs := rfl
@[simp] theorem State.modSec_ovr (f : SecS → SecS) : (s.modSec f).ovr = s.ovr := rfl
@[simp] theorem State.modSec_mem (f : SecS → SecS) : (s.modSec f).mem = s.mem := rfl
@[simp] theorem State.modSec_freeCnt (f : SecS → SecS) : (s.modSec f).freeCnt = s.freeCnt := rfl
@[simp] theorem State.modSec_raised (f : SecS → SecS) : (s.modSec f).raised = s.raised := rfl
@[simp] theorem State.modSec_sent (f : SecS → SecS) : (s.modSec f).sent = s.sent := rfl
@[simp] theorem State.modSec_cyc (f : SecS → SecS) : (s.modSec f).cyc = s.cyc := rfl
@[simp] theorem State.modSec_tick (f : SecS → SecS) : (s.modSec f).tick = s.tick := rfl
@[simp] theorem State.modSec_eng (f : SecS → SecS) : (s.modSec f).eng = s.eng := rfl
@[simp] theorem State.modSec_obj (f : SecS → SecS) : (s.modSec f).obj = s.obj := rfl
@[simp] theorem State.modSec_pld (f : SecS → SecS) : (s.modSec f).pld = s.pld := rfl
@[simp] theorem State.modSec_ward (f : SecS → SecS) : (s.modSec f).ward = s.ward := rfl
@[simp] theorem State.modSec_pvw (f : SecS → SecS) : (s.modSec f).pvw = s.pvw := rfl
@[simp] theorem State.modSec_lane (f : SecS → SecS) : (s.modSec f).lane = s.lane := rfl
@[simp] theorem State.modSec_port (f : SecS → SecS) : (s.modSec f).port = s.port := rfl
@[simp] theorem State.modSec_tile (f : SecS → SecS) : (s.modSec f).tile = s.tile := rfl
@[simp] theorem State.modSec_chain (f : SecS → SecS) : (s.modSec f).chain = s.chain := rfl
@[simp] theorem State.modSec_memc (f : SecS → SecS) : (s.modSec f).memc = s.memc := rfl
@[simp] theorem State.modSec_slc (f : SecS → SecS) : (s.modSec f).slc = s.slc := rfl
@[simp] theorem State.modSec_flt (f : SecS → SecS) : (s.modSec f).flt = s.flt := rfl
@[simp] theorem State.modSec_blt (f : SecS → SecS) : (s.modSec f).blt = s.blt := rfl
@[simp] theorem State.modSec_dma (f : SecS → SecS) : (s.modSec f).dma = s.dma := rfl
@[simp] theorem State.modSec_dmaServed (f : SecS → SecS) : (s.modSec f).dmaServed = s.dmaServed := rfl
@[simp] theorem State.modSec_boot (f : SecS → SecS) : (s.modSec f).boot = s.boot := rfl
@[simp] theorem State.modSec_cores (f : SecS → SecS) : (s.modSec f).cores = s.cores := rfl
@[simp] theorem State.modSec_irqStk (f : SecS → SecS) : (s.modSec f).irqStk = s.irqStk := rfl
@[simp] theorem State.modSec_pin (f : SecS → SecS) : (s.modSec f).pin = s.pin := rfl
@[simp] theorem State.modSec_tickOut (f : SecS → SecS) : (s.modSec f).tickOut = s.tickOut := rfl
@[simp] theorem State.modSec_clv (f : SecS → SecS) : (s.modSec f).clv = s.clv := rfl
@[simp] theorem State.modSec_tmr (f : SecS → SecS) : (s.modSec f).tmr = s.tmr := rfl
@[simp] theorem State.modSec_aud (f : SecS → SecS) : (s.modSec f).aud = s.aud := rfl
@[simp] theorem State.modSec_hst (f : SecS → SecS) : (s.modSec f).hst = s.hst := rfl
@[simp] theorem State.modSec_rdata (f : SecS → SecS) : (s.modSec f).rdata = s.rdata := rfl
@[simp] theorem State.modSec_pending (f : SecS → SecS) : (s.modSec f).pending = s.pending := rfl

@[simp] theorem State.modDma_now (n : Nat) (f : DmaS → DmaS) : (s.modDma n f).now = s.now := rfl
@[simp] theorem State.modDma_gib (n : Nat) (f : DmaS → DmaS) : (s.modDma n f).gib = s.gib := rfl
@[simp] theorem State.modDma_regs (n : Nat) (f : DmaS → DmaS) : (s.modDma n f).regs = s.regs := rfl
@[simp] theorem State.modDma_ovr (n : Nat) (f : DmaS → DmaS) : (s.modDma n f).ovr = s.ovr := rfl
@[simp] theorem State.modDma_mem (n : Nat) (f : DmaS → DmaS) : (s.modDma n f).mem = s.mem := rfl
@[simp] theorem State.modDma_freeCnt (n : Nat) (f : DmaS → DmaS) : (s.modDma n f).freeCnt = s.freeCnt := rfl
@[simp] theorem State.modDma_raised (n : Nat) (f : DmaS → DmaS) : (s.modDma n f).raised = s.raised := rfl
@[simp] theorem State.modDma_sent (n : Nat) (f : DmaS → DmaS) : (s.modDma n f).sent = s.sent := rfl
@[simp] theorem State.modDma_cyc (n : Nat) (f : DmaS → DmaS) : (s.modDma n f).cyc = s.cyc := rfl
@[simp] theorem State.modDma_tick (n : Nat) (f : DmaS → DmaS) : (s.modDma n f).tick = s.tick := rfl
@[simp] theorem State.modDma_eng (n : Nat) (f : DmaS → DmaS) : (s.modDma n f).eng = s.eng := rfl
@[simp] theorem State.modDma_obj (n : Nat) (f : DmaS → DmaS) : (s.modDma n f).obj = s.obj := rfl
@[simp] theorem State.modDma_pld (n : Nat) (f : DmaS → DmaS) : (s.modDma n f).pld = s.pld := rfl
@[simp] theorem State.modDma_ward (n : Nat) (f : DmaS → DmaS) : (s.modDma n f).ward = s.ward := rfl
@[simp] theorem State.modDma_pvw (n : Nat) (f : DmaS → DmaS) : (s.modDma n f).pvw = s.pvw := rfl
@[simp] theorem State.modDma_lane (n : Nat) (f : DmaS → DmaS) : (s.modDma n f).lane = s.lane := rfl
@[simp] theorem State.modDma_port (n : Nat) (f : DmaS → DmaS) : (s.modDma n f).port = s.port := rfl
@[simp] theorem State.modDma_tile (n : Nat) (f : DmaS → DmaS) : (s.modDma n f).tile = s.tile := rfl
@[simp] theorem State.modDma_chain (n : Nat) (f : DmaS → DmaS) : (s.modDma n f).chain = s.chain := rfl
@[simp] theorem State.modDma_sec (n : Nat) (f : DmaS → DmaS) : (s.modDma n f).sec = s.sec := rfl
@[simp] theorem State.modDma_memc (n : Nat) (f : DmaS → DmaS) : (s.modDma n f).memc = s.memc := rfl
@[simp] theorem State.modDma_slc (n : Nat) (f : DmaS → DmaS) : (s.modDma n f).slc = s.slc := rfl
@[simp] theorem State.modDma_flt (n : Nat) (f : DmaS → DmaS) : (s.modDma n f).flt = s.flt := rfl
@[simp] theorem State.modDma_blt (n : Nat) (f : DmaS → DmaS) : (s.modDma n f).blt = s.blt := rfl
@[simp] theorem State.modDma_dmaServed (n : Nat) (f : DmaS → DmaS) : (s.modDma n f).dmaServed = s.dmaServed := rfl
@[simp] theorem State.modDma_boot (n : Nat) (f : DmaS → DmaS) : (s.modDma n f).boot = s.boot := rfl
@[simp] theorem State.modDma_cores (n : Nat) (f : DmaS → DmaS) : (s.modDma n f).cores = s.cores := rfl
@[simp] theorem State.modDma_irqStk (n : Nat) (f : DmaS → DmaS) : (s.modDma n f).irqStk = s.irqStk := rfl
@[simp] theorem State.modDma_pin (n : Nat) (f : DmaS → DmaS) : (s.modDma n f).pin = s.pin := rfl
@[simp] theorem State.modDma_tickOut (n : Nat) (f : DmaS → DmaS) : (s.modDma n f).tickOut = s.tickOut := rfl
@[simp] theorem State.modDma_clv (n : Nat) (f : DmaS → DmaS) : (s.modDma n f).clv = s.clv := rfl
@[simp] theorem State.modDma_tmr (n : Nat) (f : DmaS → DmaS) : (s.modDma n f).tmr = s.tmr := rfl
@[simp] theorem State.modDma_aud (n : Nat) (f : DmaS → DmaS) : (s.modDma n f).aud = s.aud := rfl
@[simp] theorem State.modDma_hst (n : Nat) (f : DmaS → DmaS) : (s.modDma n f).hst = s.hst := rfl
@[simp] theorem State.modDma_rdata (n : Nat) (f : DmaS → DmaS) : (s.modDma n f).rdata = s.rdata := rfl
@[simp] theorem State.modDma_pending (n : Nat) (f : DmaS → DmaS) : (s.modDma n f).pending = s.pending := rfl

@[simp] theorem State.modBoot_now (f : BootS → BootS) : (s.modBoot f).now = s.now := rfl
@[simp] theorem State.modBoot_gib (f : BootS → BootS) : (s.modBoot f).gib = s.gib := rfl
@[simp] theorem State.modBoot_regs (f : BootS → BootS) : (s.modBoot f).regs = s.regs := rfl
@[simp] theorem State.modBoot_ovr (f : BootS → BootS) : (s.modBoot f).ovr = s.ovr := rfl
@[simp] theorem State.modBoot_mem (f : BootS → BootS) : (s.modBoot f).mem = s.mem := rfl
@[simp] theorem State.modBoot_freeCnt (f : BootS → BootS) : (s.modBoot f).freeCnt = s.freeCnt := rfl
@[simp] theorem State.modBoot_raised (f : BootS → BootS) : (s.modBoot f).raised = s.raised := rfl
@[simp] theorem State.modBoot_sent (f : BootS → BootS) : (s.modBoot f).sent = s.sent := rfl
@[simp] theorem State.modBoot_cyc (f : BootS → BootS) : (s.modBoot f).cyc = s.cyc := rfl
@[simp] theorem State.modBoot_tick (f : BootS → BootS) : (s.modBoot f).tick = s.tick := rfl
@[simp] theorem State.modBoot_eng (f : BootS → BootS) : (s.modBoot f).eng = s.eng := rfl
@[simp] theorem State.modBoot_obj (f : BootS → BootS) : (s.modBoot f).obj = s.obj := rfl
@[simp] theorem State.modBoot_pld (f : BootS → BootS) : (s.modBoot f).pld = s.pld := rfl
@[simp] theorem State.modBoot_ward (f : BootS → BootS) : (s.modBoot f).ward = s.ward := rfl
@[simp] theorem State.modBoot_pvw (f : BootS → BootS) : (s.modBoot f).pvw = s.pvw := rfl
@[simp] theorem State.modBoot_lane (f : BootS → BootS) : (s.modBoot f).lane = s.lane := rfl
@[simp] theorem State.modBoot_port (f : BootS → BootS) : (s.modBoot f).port = s.port := rfl
@[simp] theorem State.modBoot_tile (f : BootS → BootS) : (s.modBoot f).tile = s.tile := rfl
@[simp] theorem State.modBoot_chain (f : BootS → BootS) : (s.modBoot f).chain = s.chain := rfl
@[simp] theorem State.modBoot_sec (f : BootS → BootS) : (s.modBoot f).sec = s.sec := rfl
@[simp] theorem State.modBoot_memc (f : BootS → BootS) : (s.modBoot f).memc = s.memc := rfl
@[simp] theorem State.modBoot_slc (f : BootS → BootS) : (s.modBoot f).slc = s.slc := rfl
@[simp] theorem State.modBoot_flt (f : BootS → BootS) : (s.modBoot f).flt = s.flt := rfl
@[simp] theorem State.modBoot_blt (f : BootS → BootS) : (s.modBoot f).blt = s.blt := rfl
@[simp] theorem State.modBoot_dma (f : BootS → BootS) : (s.modBoot f).dma = s.dma := rfl
@[simp] theorem State.modBoot_dmaServed (f : BootS → BootS) : (s.modBoot f).dmaServed = s.dmaServed := rfl
@[simp] theorem State.modBoot_cores (f : BootS → BootS) : (s.modBoot f).cores = s.cores := rfl
@[simp] theorem State.modBoot_irqStk (f : BootS → BootS) : (s.modBoot f).irqStk = s.irqStk := rfl
@[simp] theorem State.modBoot_pin (f : BootS → BootS) : (s.modBoot f).pin = s.pin := rfl
@[simp] theorem State.modBoot_tickOut (f : BootS → BootS) : (s.modBoot f).tickOut = s.tickOut := rfl
@[simp] theorem State.modBoot_clv (f : BootS → BootS) : (s.modBoot f).clv = s.clv := rfl
@[simp] theorem State.modBoot_tmr (f : BootS → BootS) : (s.modBoot f).tmr = s.tmr := rfl
@[simp] theorem State.modBoot_aud (f : BootS → BootS) : (s.modBoot f).aud = s.aud := rfl
@[simp] theorem State.modBoot_hst (f : BootS → BootS) : (s.modBoot f).hst = s.hst := rfl
@[simp] theorem State.modBoot_rdata (f : BootS → BootS) : (s.modBoot f).rdata = s.rdata := rfl
@[simp] theorem State.modBoot_pending (f : BootS → BootS) : (s.modBoot f).pending = s.pending := rfl

@[simp] theorem State.modCore_now (n : Nat) (f : CoreS → CoreS) : (s.modCore n f).now = s.now := rfl
@[simp] theorem State.modCore_gib (n : Nat) (f : CoreS → CoreS) : (s.modCore n f).gib = s.gib := rfl
@[simp] theorem State.modCore_regs (n : Nat) (f : CoreS → CoreS) : (s.modCore n f).regs = s.regs := rfl
@[simp] theorem State.modCore_ovr (n : Nat) (f : CoreS → CoreS) : (s.modCore n f).ovr = s.ovr := rfl
@[simp] theorem State.modCore_mem (n : Nat) (f : CoreS → CoreS) : (s.modCore n f).mem = s.mem := rfl
@[simp] theorem State.modCore_freeCnt (n : Nat) (f : CoreS → CoreS) : (s.modCore n f).freeCnt = s.freeCnt := rfl
@[simp] theorem State.modCore_raised (n : Nat) (f : CoreS → CoreS) : (s.modCore n f).raised = s.raised := rfl
@[simp] theorem State.modCore_sent (n : Nat) (f : CoreS → CoreS) : (s.modCore n f).sent = s.sent := rfl
@[simp] theorem State.modCore_cyc (n : Nat) (f : CoreS → CoreS) : (s.modCore n f).cyc = s.cyc := rfl
@[simp] theorem State.modCore_tick (n : Nat) (f : CoreS → CoreS) : (s.modCore n f).tick = s.tick := rfl
@[simp] theorem State.modCore_eng (n : Nat) (f : CoreS → CoreS) : (s.modCore n f).eng = s.eng := rfl
@[simp] theorem State.modCore_obj (n : Nat) (f : CoreS → CoreS) : (s.modCore n f).obj = s.obj := rfl
@[simp] theorem State.modCore_pld (n : Nat) (f : CoreS → CoreS) : (s.modCore n f).pld = s.pld := rfl
@[simp] theorem State.modCore_ward (n : Nat) (f : CoreS → CoreS) : (s.modCore n f).ward = s.ward := rfl
@[simp] theorem State.modCore_pvw (n : Nat) (f : CoreS → CoreS) : (s.modCore n f).pvw = s.pvw := rfl
@[simp] theorem State.modCore_lane (n : Nat) (f : CoreS → CoreS) : (s.modCore n f).lane = s.lane := rfl
@[simp] theorem State.modCore_port (n : Nat) (f : CoreS → CoreS) : (s.modCore n f).port = s.port := rfl
@[simp] theorem State.modCore_tile (n : Nat) (f : CoreS → CoreS) : (s.modCore n f).tile = s.tile := rfl
@[simp] theorem State.modCore_chain (n : Nat) (f : CoreS → CoreS) : (s.modCore n f).chain = s.chain := rfl
@[simp] theorem State.modCore_sec (n : Nat) (f : CoreS → CoreS) : (s.modCore n f).sec = s.sec := rfl
@[simp] theorem State.modCore_memc (n : Nat) (f : CoreS → CoreS) : (s.modCore n f).memc = s.memc := rfl
@[simp] theorem State.modCore_slc (n : Nat) (f : CoreS → CoreS) : (s.modCore n f).slc = s.slc := rfl
@[simp] theorem State.modCore_flt (n : Nat) (f : CoreS → CoreS) : (s.modCore n f).flt = s.flt := rfl
@[simp] theorem State.modCore_blt (n : Nat) (f : CoreS → CoreS) : (s.modCore n f).blt = s.blt := rfl
@[simp] theorem State.modCore_dma (n : Nat) (f : CoreS → CoreS) : (s.modCore n f).dma = s.dma := rfl
@[simp] theorem State.modCore_dmaServed (n : Nat) (f : CoreS → CoreS) : (s.modCore n f).dmaServed = s.dmaServed := rfl
@[simp] theorem State.modCore_boot (n : Nat) (f : CoreS → CoreS) : (s.modCore n f).boot = s.boot := rfl
@[simp] theorem State.modCore_irqStk (n : Nat) (f : CoreS → CoreS) : (s.modCore n f).irqStk = s.irqStk := rfl
@[simp] theorem State.modCore_pin (n : Nat) (f : CoreS → CoreS) : (s.modCore n f).pin = s.pin := rfl
@[simp] theorem State.modCore_tickOut (n : Nat) (f : CoreS → CoreS) : (s.modCore n f).tickOut = s.tickOut := rfl
@[simp] theorem State.modCore_clv (n : Nat) (f : CoreS → CoreS) : (s.modCore n f).clv = s.clv := rfl
@[simp] theorem State.modCore_tmr (n : Nat) (f : CoreS → CoreS) : (s.modCore n f).tmr = s.tmr := rfl
@[simp] theorem State.modCore_aud (n : Nat) (f : CoreS → CoreS) : (s.modCore n f).aud = s.aud := rfl
@[simp] theorem State.modCore_hst (n : Nat) (f : CoreS → CoreS) : (s.modCore n f).hst = s.hst := rfl
@[simp] theorem State.modCore_rdata (n : Nat) (f : CoreS → CoreS) : (s.modCore n f).rdata = s.rdata := rfl
@[simp] theorem State.modCore_pending (n : Nat) (f : CoreS → CoreS) : (s.modCore n f).pending = s.pending := rfl

@[simp] theorem State.modPin_now (n : Nat) (f : PinS → PinS) : (s.modPin n f).now = s.now := rfl
@[simp] theorem State.modPin_gib (n : Nat) (f : PinS → PinS) : (s.modPin n f).gib = s.gib := rfl
@[simp] theorem State.modPin_regs (n : Nat) (f : PinS → PinS) : (s.modPin n f).regs = s.regs := rfl
@[simp] theorem State.modPin_ovr (n : Nat) (f : PinS → PinS) : (s.modPin n f).ovr = s.ovr := rfl
@[simp] theorem State.modPin_mem (n : Nat) (f : PinS → PinS) : (s.modPin n f).mem = s.mem := rfl
@[simp] theorem State.modPin_freeCnt (n : Nat) (f : PinS → PinS) : (s.modPin n f).freeCnt = s.freeCnt := rfl
@[simp] theorem State.modPin_raised (n : Nat) (f : PinS → PinS) : (s.modPin n f).raised = s.raised := rfl
@[simp] theorem State.modPin_sent (n : Nat) (f : PinS → PinS) : (s.modPin n f).sent = s.sent := rfl
@[simp] theorem State.modPin_cyc (n : Nat) (f : PinS → PinS) : (s.modPin n f).cyc = s.cyc := rfl
@[simp] theorem State.modPin_tick (n : Nat) (f : PinS → PinS) : (s.modPin n f).tick = s.tick := rfl
@[simp] theorem State.modPin_eng (n : Nat) (f : PinS → PinS) : (s.modPin n f).eng = s.eng := rfl
@[simp] theorem State.modPin_obj (n : Nat) (f : PinS → PinS) : (s.modPin n f).obj = s.obj := rfl
@[simp] theorem State.modPin_pld (n : Nat) (f : PinS → PinS) : (s.modPin n f).pld = s.pld := rfl
@[simp] theorem State.modPin_ward (n : Nat) (f : PinS → PinS) : (s.modPin n f).ward = s.ward := rfl
@[simp] theorem State.modPin_pvw (n : Nat) (f : PinS → PinS) : (s.modPin n f).pvw = s.pvw := rfl
@[simp] theorem State.modPin_lane (n : Nat) (f : PinS → PinS) : (s.modPin n f).lane = s.lane := rfl
@[simp] theorem State.modPin_port (n : Nat) (f : PinS → PinS) : (s.modPin n f).port = s.port := rfl
@[simp] theorem State.modPin_tile (n : Nat) (f : PinS → PinS) : (s.modPin n f).tile = s.tile := rfl
@[simp] theorem State.modPin_chain (n : Nat) (f : PinS → PinS) : (s.modPin n f).chain = s.chain := rfl
@[simp] theorem State.modPin_sec (n : Nat) (f : PinS → PinS) : (s.modPin n f).sec = s.sec := rfl
@[simp] theorem State.modPin_memc (n : Nat) (f : PinS → PinS) : (s.modPin n f).memc = s.memc := rfl
@[simp] theorem State.modPin_slc (n : Nat) (f : PinS → PinS) : (s.modPin n f).slc = s.slc := rfl
@[simp] theorem State.modPin_flt (n : Nat) (f : PinS → PinS) : (s.modPin n f).flt = s.flt := rfl
@[simp] theorem State.modPin_blt (n : Nat) (f : PinS → PinS) : (s.modPin n f).blt = s.blt := rfl
@[simp] theorem State.modPin_dma (n : Nat) (f : PinS → PinS) : (s.modPin n f).dma = s.dma := rfl
@[simp] theorem State.modPin_dmaServed (n : Nat) (f : PinS → PinS) : (s.modPin n f).dmaServed = s.dmaServed := rfl
@[simp] theorem State.modPin_boot (n : Nat) (f : PinS → PinS) : (s.modPin n f).boot = s.boot := rfl
@[simp] theorem State.modPin_cores (n : Nat) (f : PinS → PinS) : (s.modPin n f).cores = s.cores := rfl
@[simp] theorem State.modPin_irqStk (n : Nat) (f : PinS → PinS) : (s.modPin n f).irqStk = s.irqStk := rfl
@[simp] theorem State.modPin_tickOut (n : Nat) (f : PinS → PinS) : (s.modPin n f).tickOut = s.tickOut := rfl
@[simp] theorem State.modPin_clv (n : Nat) (f : PinS → PinS) : (s.modPin n f).clv = s.clv := rfl
@[simp] theorem State.modPin_tmr (n : Nat) (f : PinS → PinS) : (s.modPin n f).tmr = s.tmr := rfl
@[simp] theorem State.modPin_aud (n : Nat) (f : PinS → PinS) : (s.modPin n f).aud = s.aud := rfl
@[simp] theorem State.modPin_hst (n : Nat) (f : PinS → PinS) : (s.modPin n f).hst = s.hst := rfl
@[simp] theorem State.modPin_rdata (n : Nat) (f : PinS → PinS) : (s.modPin n f).rdata = s.rdata := rfl
@[simp] theorem State.modPin_pending (n : Nat) (f : PinS → PinS) : (s.modPin n f).pending = s.pending := rfl

@[simp] theorem State.modClv_now (n : Nat) (f : CloveS → CloveS) : (s.modClv n f).now = s.now := rfl
@[simp] theorem State.modClv_gib (n : Nat) (f : CloveS → CloveS) : (s.modClv n f).gib = s.gib := rfl
@[simp] theorem State.modClv_regs (n : Nat) (f : CloveS → CloveS) : (s.modClv n f).regs = s.regs := rfl
@[simp] theorem State.modClv_ovr (n : Nat) (f : CloveS → CloveS) : (s.modClv n f).ovr = s.ovr := rfl
@[simp] theorem State.modClv_mem (n : Nat) (f : CloveS → CloveS) : (s.modClv n f).mem = s.mem := rfl
@[simp] theorem State.modClv_freeCnt (n : Nat) (f : CloveS → CloveS) : (s.modClv n f).freeCnt = s.freeCnt := rfl
@[simp] theorem State.modClv_raised (n : Nat) (f : CloveS → CloveS) : (s.modClv n f).raised = s.raised := rfl
@[simp] theorem State.modClv_sent (n : Nat) (f : CloveS → CloveS) : (s.modClv n f).sent = s.sent := rfl
@[simp] theorem State.modClv_cyc (n : Nat) (f : CloveS → CloveS) : (s.modClv n f).cyc = s.cyc := rfl
@[simp] theorem State.modClv_tick (n : Nat) (f : CloveS → CloveS) : (s.modClv n f).tick = s.tick := rfl
@[simp] theorem State.modClv_eng (n : Nat) (f : CloveS → CloveS) : (s.modClv n f).eng = s.eng := rfl
@[simp] theorem State.modClv_obj (n : Nat) (f : CloveS → CloveS) : (s.modClv n f).obj = s.obj := rfl
@[simp] theorem State.modClv_pld (n : Nat) (f : CloveS → CloveS) : (s.modClv n f).pld = s.pld := rfl
@[simp] theorem State.modClv_ward (n : Nat) (f : CloveS → CloveS) : (s.modClv n f).ward = s.ward := rfl
@[simp] theorem State.modClv_pvw (n : Nat) (f : CloveS → CloveS) : (s.modClv n f).pvw = s.pvw := rfl
@[simp] theorem State.modClv_lane (n : Nat) (f : CloveS → CloveS) : (s.modClv n f).lane = s.lane := rfl
@[simp] theorem State.modClv_port (n : Nat) (f : CloveS → CloveS) : (s.modClv n f).port = s.port := rfl
@[simp] theorem State.modClv_tile (n : Nat) (f : CloveS → CloveS) : (s.modClv n f).tile = s.tile := rfl
@[simp] theorem State.modClv_chain (n : Nat) (f : CloveS → CloveS) : (s.modClv n f).chain = s.chain := rfl
@[simp] theorem State.modClv_sec (n : Nat) (f : CloveS → CloveS) : (s.modClv n f).sec = s.sec := rfl
@[simp] theorem State.modClv_memc (n : Nat) (f : CloveS → CloveS) : (s.modClv n f).memc = s.memc := rfl
@[simp] theorem State.modClv_slc (n : Nat) (f : CloveS → CloveS) : (s.modClv n f).slc = s.slc := rfl
@[simp] theorem State.modClv_flt (n : Nat) (f : CloveS → CloveS) : (s.modClv n f).flt = s.flt := rfl
@[simp] theorem State.modClv_blt (n : Nat) (f : CloveS → CloveS) : (s.modClv n f).blt = s.blt := rfl
@[simp] theorem State.modClv_dma (n : Nat) (f : CloveS → CloveS) : (s.modClv n f).dma = s.dma := rfl
@[simp] theorem State.modClv_dmaServed (n : Nat) (f : CloveS → CloveS) : (s.modClv n f).dmaServed = s.dmaServed := rfl
@[simp] theorem State.modClv_boot (n : Nat) (f : CloveS → CloveS) : (s.modClv n f).boot = s.boot := rfl
@[simp] theorem State.modClv_cores (n : Nat) (f : CloveS → CloveS) : (s.modClv n f).cores = s.cores := rfl
@[simp] theorem State.modClv_irqStk (n : Nat) (f : CloveS → CloveS) : (s.modClv n f).irqStk = s.irqStk := rfl
@[simp] theorem State.modClv_pin (n : Nat) (f : CloveS → CloveS) : (s.modClv n f).pin = s.pin := rfl
@[simp] theorem State.modClv_tickOut (n : Nat) (f : CloveS → CloveS) : (s.modClv n f).tickOut = s.tickOut := rfl
@[simp] theorem State.modClv_tmr (n : Nat) (f : CloveS → CloveS) : (s.modClv n f).tmr = s.tmr := rfl
@[simp] theorem State.modClv_aud (n : Nat) (f : CloveS → CloveS) : (s.modClv n f).aud = s.aud := rfl
@[simp] theorem State.modClv_hst (n : Nat) (f : CloveS → CloveS) : (s.modClv n f).hst = s.hst := rfl
@[simp] theorem State.modClv_rdata (n : Nat) (f : CloveS → CloveS) : (s.modClv n f).rdata = s.rdata := rfl
@[simp] theorem State.modClv_pending (n : Nat) (f : CloveS → CloveS) : (s.modClv n f).pending = s.pending := rfl

@[simp] theorem State.modTmr_now (n : Nat) (f : TimerS → TimerS) : (s.modTmr n f).now = s.now := rfl
@[simp] theorem State.modTmr_gib (n : Nat) (f : TimerS → TimerS) : (s.modTmr n f).gib = s.gib := rfl
@[simp] theorem State.modTmr_regs (n : Nat) (f : TimerS → TimerS) : (s.modTmr n f).regs = s.regs := rfl
@[simp] theorem State.modTmr_ovr (n : Nat) (f : TimerS → TimerS) : (s.modTmr n f).ovr = s.ovr := rfl
@[simp] theorem State.modTmr_mem (n : Nat) (f : TimerS → TimerS) : (s.modTmr n f).mem = s.mem := rfl
@[simp] theorem State.modTmr_freeCnt (n : Nat) (f : TimerS → TimerS) : (s.modTmr n f).freeCnt = s.freeCnt := rfl
@[simp] theorem State.modTmr_raised (n : Nat) (f : TimerS → TimerS) : (s.modTmr n f).raised = s.raised := rfl
@[simp] theorem State.modTmr_sent (n : Nat) (f : TimerS → TimerS) : (s.modTmr n f).sent = s.sent := rfl
@[simp] theorem State.modTmr_cyc (n : Nat) (f : TimerS → TimerS) : (s.modTmr n f).cyc = s.cyc := rfl
@[simp] theorem State.modTmr_tick (n : Nat) (f : TimerS → TimerS) : (s.modTmr n f).tick = s.tick := rfl
@[simp] theorem State.modTmr_eng (n : Nat) (f : TimerS → TimerS) : (s.modTmr n f).eng = s.eng := rfl
@[simp] theorem State.modTmr_obj (n : Nat) (f : TimerS → TimerS) : (s.modTmr n f).obj = s.obj := rfl
@[simp] theorem State.modTmr_pld (n : Nat) (f : TimerS → TimerS) : (s.modTmr n f).pld = s.pld := rfl
@[simp] theorem State.modTmr_ward (n : Nat) (f : TimerS → TimerS) : (s.modTmr n f).ward = s.ward := rfl
@[simp] theorem State.modTmr_pvw (n : Nat) (f : TimerS → TimerS) : (s.modTmr n f).pvw = s.pvw := rfl
@[simp] theorem State.modTmr_lane (n : Nat) (f : TimerS → TimerS) : (s.modTmr n f).lane = s.lane := rfl
@[simp] theorem State.modTmr_port (n : Nat) (f : TimerS → TimerS) : (s.modTmr n f).port = s.port := rfl
@[simp] theorem State.modTmr_tile (n : Nat) (f : TimerS → TimerS) : (s.modTmr n f).tile = s.tile := rfl
@[simp] theorem State.modTmr_chain (n : Nat) (f : TimerS → TimerS) : (s.modTmr n f).chain = s.chain := rfl
@[simp] theorem State.modTmr_sec (n : Nat) (f : TimerS → TimerS) : (s.modTmr n f).sec = s.sec := rfl
@[simp] theorem State.modTmr_memc (n : Nat) (f : TimerS → TimerS) : (s.modTmr n f).memc = s.memc := rfl
@[simp] theorem State.modTmr_slc (n : Nat) (f : TimerS → TimerS) : (s.modTmr n f).slc = s.slc := rfl
@[simp] theorem State.modTmr_flt (n : Nat) (f : TimerS → TimerS) : (s.modTmr n f).flt = s.flt := rfl
@[simp] theorem State.modTmr_blt (n : Nat) (f : TimerS → TimerS) : (s.modTmr n f).blt = s.blt := rfl
@[simp] theorem State.modTmr_dma (n : Nat) (f : TimerS → TimerS) : (s.modTmr n f).dma = s.dma := rfl
@[simp] theorem State.modTmr_dmaServed (n : Nat) (f : TimerS → TimerS) : (s.modTmr n f).dmaServed = s.dmaServed := rfl
@[simp] theorem State.modTmr_boot (n : Nat) (f : TimerS → TimerS) : (s.modTmr n f).boot = s.boot := rfl
@[simp] theorem State.modTmr_cores (n : Nat) (f : TimerS → TimerS) : (s.modTmr n f).cores = s.cores := rfl
@[simp] theorem State.modTmr_irqStk (n : Nat) (f : TimerS → TimerS) : (s.modTmr n f).irqStk = s.irqStk := rfl
@[simp] theorem State.modTmr_pin (n : Nat) (f : TimerS → TimerS) : (s.modTmr n f).pin = s.pin := rfl
@[simp] theorem State.modTmr_tickOut (n : Nat) (f : TimerS → TimerS) : (s.modTmr n f).tickOut = s.tickOut := rfl
@[simp] theorem State.modTmr_clv (n : Nat) (f : TimerS → TimerS) : (s.modTmr n f).clv = s.clv := rfl
@[simp] theorem State.modTmr_aud (n : Nat) (f : TimerS → TimerS) : (s.modTmr n f).aud = s.aud := rfl
@[simp] theorem State.modTmr_hst (n : Nat) (f : TimerS → TimerS) : (s.modTmr n f).hst = s.hst := rfl
@[simp] theorem State.modTmr_rdata (n : Nat) (f : TimerS → TimerS) : (s.modTmr n f).rdata = s.rdata := rfl
@[simp] theorem State.modTmr_pending (n : Nat) (f : TimerS → TimerS) : (s.modTmr n f).pending = s.pending := rfl

@[simp] theorem State.modAud_now (f : AudS → AudS) : (s.modAud f).now = s.now := rfl
@[simp] theorem State.modAud_gib (f : AudS → AudS) : (s.modAud f).gib = s.gib := rfl
@[simp] theorem State.modAud_regs (f : AudS → AudS) : (s.modAud f).regs = s.regs := rfl
@[simp] theorem State.modAud_ovr (f : AudS → AudS) : (s.modAud f).ovr = s.ovr := rfl
@[simp] theorem State.modAud_mem (f : AudS → AudS) : (s.modAud f).mem = s.mem := rfl
@[simp] theorem State.modAud_freeCnt (f : AudS → AudS) : (s.modAud f).freeCnt = s.freeCnt := rfl
@[simp] theorem State.modAud_raised (f : AudS → AudS) : (s.modAud f).raised = s.raised := rfl
@[simp] theorem State.modAud_sent (f : AudS → AudS) : (s.modAud f).sent = s.sent := rfl
@[simp] theorem State.modAud_cyc (f : AudS → AudS) : (s.modAud f).cyc = s.cyc := rfl
@[simp] theorem State.modAud_tick (f : AudS → AudS) : (s.modAud f).tick = s.tick := rfl
@[simp] theorem State.modAud_eng (f : AudS → AudS) : (s.modAud f).eng = s.eng := rfl
@[simp] theorem State.modAud_obj (f : AudS → AudS) : (s.modAud f).obj = s.obj := rfl
@[simp] theorem State.modAud_pld (f : AudS → AudS) : (s.modAud f).pld = s.pld := rfl
@[simp] theorem State.modAud_ward (f : AudS → AudS) : (s.modAud f).ward = s.ward := rfl
@[simp] theorem State.modAud_pvw (f : AudS → AudS) : (s.modAud f).pvw = s.pvw := rfl
@[simp] theorem State.modAud_lane (f : AudS → AudS) : (s.modAud f).lane = s.lane := rfl
@[simp] theorem State.modAud_port (f : AudS → AudS) : (s.modAud f).port = s.port := rfl
@[simp] theorem State.modAud_tile (f : AudS → AudS) : (s.modAud f).tile = s.tile := rfl
@[simp] theorem State.modAud_chain (f : AudS → AudS) : (s.modAud f).chain = s.chain := rfl
@[simp] theorem State.modAud_sec (f : AudS → AudS) : (s.modAud f).sec = s.sec := rfl
@[simp] theorem State.modAud_memc (f : AudS → AudS) : (s.modAud f).memc = s.memc := rfl
@[simp] theorem State.modAud_slc (f : AudS → AudS) : (s.modAud f).slc = s.slc := rfl
@[simp] theorem State.modAud_flt (f : AudS → AudS) : (s.modAud f).flt = s.flt := rfl
@[simp] theorem State.modAud_blt (f : AudS → AudS) : (s.modAud f).blt = s.blt := rfl
@[simp] theorem State.modAud_dma (f : AudS → AudS) : (s.modAud f).dma = s.dma := rfl
@[simp] theorem State.modAud_dmaServed (f : AudS → AudS) : (s.modAud f).dmaServed = s.dmaServed := rfl
@[simp] theorem State.modAud_boot (f : AudS → AudS) : (s.modAud f).boot = s.boot := rfl
@[simp] theorem State.modAud_cores (f : AudS → AudS) : (s.modAud f).cores = s.cores := rfl
@[simp] theorem State.modAud_irqStk (f : AudS → AudS) : (s.modAud f).irqStk = s.irqStk := rfl
@[simp] theorem State.modAud_pin (f : AudS → AudS) : (s.modAud f).pin = s.pin := rfl
@[simp] theorem State.modAud_tickOut (f : AudS → AudS) : (s.modAud f).tickOut = s.tickOut := rfl
@[simp] theorem State.modAud_clv (f : AudS → AudS) : (s.modAud f).clv = s.clv := rfl
@[simp] theorem State.modAud_tmr (f : AudS → AudS) : (s.modAud f).tmr = s.tmr := rfl
@[simp] theorem State.modAud_hst (f : AudS → AudS) : (s.modAud f).hst = s.hst := rfl
@[simp] theorem State.modAud_rdata (f : AudS → AudS) : (s.modAud f).rdata = s.rdata := rfl
@[simp] theorem State.modAud_pending (f : AudS → AudS) : (s.modAud f).pending = s.pending := rfl

@[simp] theorem State.modHst_now (f : HostS → HostS) : (s.modHst f).now = s.now := rfl
@[simp] theorem State.modHst_gib (f : HostS → HostS) : (s.modHst f).gib = s.gib := rfl
@[simp] theorem State.modHst_regs (f : HostS → HostS) : (s.modHst f).regs = s.regs := rfl
@[simp] theorem State.modHst_ovr (f : HostS → HostS) : (s.modHst f).ovr = s.ovr := rfl
@[simp] theorem State.modHst_mem (f : HostS → HostS) : (s.modHst f).mem = s.mem := rfl
@[simp] theorem State.modHst_freeCnt (f : HostS → HostS) : (s.modHst f).freeCnt = s.freeCnt := rfl
@[simp] theorem State.modHst_raised (f : HostS → HostS) : (s.modHst f).raised = s.raised := rfl
@[simp] theorem State.modHst_sent (f : HostS → HostS) : (s.modHst f).sent = s.sent := rfl
@[simp] theorem State.modHst_cyc (f : HostS → HostS) : (s.modHst f).cyc = s.cyc := rfl
@[simp] theorem State.modHst_tick (f : HostS → HostS) : (s.modHst f).tick = s.tick := rfl
@[simp] theorem State.modHst_eng (f : HostS → HostS) : (s.modHst f).eng = s.eng := rfl
@[simp] theorem State.modHst_obj (f : HostS → HostS) : (s.modHst f).obj = s.obj := rfl
@[simp] theorem State.modHst_pld (f : HostS → HostS) : (s.modHst f).pld = s.pld := rfl
@[simp] theorem State.modHst_ward (f : HostS → HostS) : (s.modHst f).ward = s.ward := rfl
@[simp] theorem State.modHst_pvw (f : HostS → HostS) : (s.modHst f).pvw = s.pvw := rfl
@[simp] theorem State.modHst_lane (f : HostS → HostS) : (s.modHst f).lane = s.lane := rfl
@[simp] theorem State.modHst_port (f : HostS → HostS) : (s.modHst f).port = s.port := rfl
@[simp] theorem State.modHst_tile (f : HostS → HostS) : (s.modHst f).tile = s.tile := rfl
@[simp] theorem State.modHst_chain (f : HostS → HostS) : (s.modHst f).chain = s.chain := rfl
@[simp] theorem State.modHst_sec (f : HostS → HostS) : (s.modHst f).sec = s.sec := rfl
@[simp] theorem State.modHst_memc (f : HostS → HostS) : (s.modHst f).memc = s.memc := rfl
@[simp] theorem State.modHst_slc (f : HostS → HostS) : (s.modHst f).slc = s.slc := rfl
@[simp] theorem State.modHst_flt (f : HostS → HostS) : (s.modHst f).flt = s.flt := rfl
@[simp] theorem State.modHst_blt (f : HostS → HostS) : (s.modHst f).blt = s.blt := rfl
@[simp] theorem State.modHst_dma (f : HostS → HostS) : (s.modHst f).dma = s.dma := rfl
@[simp] theorem State.modHst_dmaServed (f : HostS → HostS) : (s.modHst f).dmaServed = s.dmaServed := rfl
@[simp] theorem State.modHst_boot (f : HostS → HostS) : (s.modHst f).boot = s.boot := rfl
@[simp] theorem State.modHst_cores (f : HostS → HostS) : (s.modHst f).cores = s.cores := rfl
@[simp] theorem State.modHst_irqStk (f : HostS → HostS) : (s.modHst f).irqStk = s.irqStk := rfl
@[simp] theorem State.modHst_pin (f : HostS → HostS) : (s.modHst f).pin = s.pin := rfl
@[simp] theorem State.modHst_tickOut (f : HostS → HostS) : (s.modHst f).tickOut = s.tickOut := rfl
@[simp] theorem State.modHst_clv (f : HostS → HostS) : (s.modHst f).clv = s.clv := rfl
@[simp] theorem State.modHst_tmr (f : HostS → HostS) : (s.modHst f).tmr = s.tmr := rfl
@[simp] theorem State.modHst_aud (f : HostS → HostS) : (s.modHst f).aud = s.aud := rfl
@[simp] theorem State.modHst_rdata (f : HostS → HostS) : (s.modHst f).rdata = s.rdata := rfl
@[simp] theorem State.modHst_pending (f : HostS → HostS) : (s.modHst f).pending = s.pending := rfl

end Sys2Proof.Machine
end

