-- ==== Sys2Proof/Laws/Tbl.lean ====
section
/-! SUPPORT. Sparse tables: what reads see after writes, and that writes keep the canonical form. -/

namespace Sys2Proof.Machine

variable {α : Type}

@[simp] theorem Tbl.find_nil (k : Nat) : Tbl.find ([] : Tbl α) k = none := rfl
@[simp] theorem Tbl.get_nil (d : α) (k : Nat) : Tbl.get d [] k = d := rfl

/-- A read of the key just put. -/
@[simp] theorem Tbl.find_put_same (t : Tbl α) (k : Nat) (v : α) : Tbl.find (t.put k v) k = some v := by
  induction t with
  | nil => simp [Tbl.put, Tbl.find]
  | cons e t ih =>
    obtain ⟨a, x⟩ := e
    simp only [Tbl.put]
    split
    · simp [Tbl.find]
    · split
      · simp [Tbl.find]
      · rename_i h; simp [Tbl.find, h, ih]

/-- A put leaves other keys alone. -/
theorem Tbl.find_put_other (t : Tbl α) {k j : Nat} (v : α) (h : j ≠ k) : Tbl.find (t.put k v) j = Tbl.find t j := by
  induction t with
  | nil => simp [Tbl.put, Tbl.find, Ne.symm h]
  | cons e t ih =>
    obtain ⟨a, x⟩ := e
    simp only [Tbl.put]
    split
    · simp [Tbl.find, Ne.symm h]
    · split
      · rename_i hk; subst hk; simp [Tbl.find, Ne.symm h]
      · simp [Tbl.find, ih]

/-- A deleted key is not listed. -/
@[simp] theorem Tbl.find_del_same (t : Tbl α) (k : Nat) : Tbl.find (t.del k) k = none := by
  induction t with
  | nil => rfl
  | cons e t ih =>
    obtain ⟨a, x⟩ := e
    simp only [Tbl.del]
    split
    · exact ih
    · rename_i h; simp [Tbl.find, h, ih]

/-- A deletion leaves other keys alone. -/
theorem Tbl.find_del_other (t : Tbl α) {k j : Nat} (h : j ≠ k) : Tbl.find (t.del k) j = Tbl.find t j := by
  induction t with
  | nil => rfl
  | cons e t ih =>
    obtain ⟨a, x⟩ := e
    simp only [Tbl.del]
    split
    · rename_i hk; subst hk; simp [Tbl.find, Ne.symm h, ih]
    · simp [Tbl.find, ih]

/-- A read with a default. -/
theorem Tbl.get_eq (d : α) (t : Tbl α) (k : Nat) : Tbl.get d t k = (Tbl.find t k).getD d := by
  induction t with
  | nil => rfl
  | cons e t ih =>
    obtain ⟨a, x⟩ := e
    simp only [Tbl.get, Tbl.find]
    split <;> simp_all

@[simp] theorem Tbl.get_put_same (d : α) (t : Tbl α) (k : Nat) (v : α) : Tbl.get d (t.put k v) k = v := by
  simp [Tbl.get_eq]

theorem Tbl.get_put_other (d : α) (t : Tbl α) {k j : Nat} (v : α) (h : j ≠ k) :
    Tbl.get d (t.put k v) j = Tbl.get d t j := by
  simp [Tbl.get_eq, Tbl.find_put_other t v h]

@[simp] theorem Tbl.get_del_same (d : α) (t : Tbl α) (k : Nat) : Tbl.get d (t.del k) k = d := by
  simp [Tbl.get_eq]

theorem Tbl.get_del_other (d : α) (t : Tbl α) {k j : Nat} (h : j ≠ k) : Tbl.get d (t.del k) j = Tbl.get d t j := by
  simp [Tbl.get_eq, Tbl.find_del_other t h]

/-! ### The canonical form -/

/-- Every key of a table whose keys rise from `b` on is at least `b`. -/
def Tbl.above (b : Nat) (t : Tbl α) : Prop := ∀ e ∈ t, b ≤ e.1

/-- Rising keys, said step by step. -/
theorem Tbl.rising_cons (a : Nat) (x : α) (t : Tbl α) :
    Tbl.rising ((a, x) :: t) = true ↔ Tbl.above (a + 1) t ∧ Tbl.rising t = true := by
  induction t generalizing a x with
  | nil => simp [Tbl.rising, Tbl.above]
  | cons e t ih =>
    obtain ⟨b, y⟩ := e
    simp only [Tbl.rising, Bool.and_eq_true, decide_eq_true_eq]
    constructor
    · rintro ⟨hab, hr⟩
      refine ⟨?_, hr⟩
      have := ((ih b y).1 hr).1
      intro e he
      rcases List.mem_cons.1 he with rfl | he
      · exact hab
      · have := this e he; omega
    · rintro ⟨ha, hr⟩
      exact ⟨ha (b, y) (by simp), hr⟩

theorem Tbl.above_put {b k : Nat} {v : α} {t : Tbl α} (h : Tbl.above b t) (hk : b ≤ k) : Tbl.above b (t.put k v) := by
  induction t with
  | nil => simpa [Tbl.put, Tbl.above] using hk
  | cons e t ih =>
    obtain ⟨a, x⟩ := e
    have ht : Tbl.above b t := fun e he => h e (by simp [he])
    have ha : b ≤ a := h (a, x) (by simp)
    simp only [Tbl.put]
    split
    · intro e he; simp at he; rcases he with rfl | rfl | he
      · exact hk
      · exact ha
      · exact ht _ he
    · split
      · intro e he; simp at he; rcases he with rfl | he
        · exact hk
        · exact ht _ he
      · intro e he; simp at he; rcases he with rfl | he
        · exact ha
        · exact ih ht _ he

theorem Tbl.above_del {b k : Nat} {t : Tbl α} (h : Tbl.above b t) : Tbl.above b (t.del k) := by
  induction t with
  | nil => simp [Tbl.del, Tbl.above]
  | cons e t ih =>
    obtain ⟨a, x⟩ := e
    have ht : Tbl.above b t := fun e he => h e (by simp [he])
    simp only [Tbl.del]
    split
    · exact ih ht
    · intro e he; simp at he; rcases he with rfl | he
      · exact h _ (by simp)
      · exact ih ht _ he

theorem Tbl.rising_put {k : Nat} {v : α} {t : Tbl α} (h : Tbl.rising t = true) : Tbl.rising (t.put k v) = true := by
  induction t with
  | nil => rfl
  | cons e t ih =>
    obtain ⟨a, x⟩ := e
    obtain ⟨ha, hr⟩ := (Tbl.rising_cons a x t).1 h
    simp only [Tbl.put]
    split
    · rename_i hk
      refine (Tbl.rising_cons _ _ _).2 ⟨?_, h⟩
      intro e he; simp at he; rcases he with rfl | he
      · exact hk
      · have := ha _ he; omega
    · split
      · rename_i hk; subst hk
        exact (Tbl.rising_cons _ _ _).2 ⟨ha, hr⟩
      · exact (Tbl.rising_cons _ _ _).2 ⟨Tbl.above_put ha (by omega), ih hr⟩

theorem Tbl.rising_del {k : Nat} {t : Tbl α} (h : Tbl.rising t = true) : Tbl.rising (t.del k) = true := by
  induction t with
  | nil => rfl
  | cons e t ih =>
    obtain ⟨a, x⟩ := e
    obtain ⟨ha, hr⟩ := (Tbl.rising_cons a x t).1 h
    simp only [Tbl.del]
    split
    · exact ih hr
    · exact (Tbl.rising_cons _ _ _).2 ⟨Tbl.above_del ha, ih hr⟩

theorem Tbl.all_put {p : Nat × α → Bool} {k : Nat} {v : α} {t : Tbl α} (h : t.all p = true) (hv : p (k, v) = true) :
    (t.put k v).all p = true := by
  induction t with
  | nil => simpa [Tbl.put] using hv
  | cons e t ih =>
    obtain ⟨a, x⟩ := e
    simp only [List.all_cons, Bool.and_eq_true] at h
    simp only [Tbl.put]
    split
    · simp [hv, h.1, h.2]
    · split
      · simp [hv, h.2]
      · simp [h.1, ih h.2]

theorem Tbl.all_del {p : Nat × α → Bool} {k : Nat} {t : Tbl α} (h : t.all p = true) : (t.del k).all p = true := by
  induction t with
  | nil => rfl
  | cons e t ih =>
    obtain ⟨a, x⟩ := e
    simp only [List.all_cons, Bool.and_eq_true] at h
    simp only [Tbl.del]
    split
    · exact ih h.2
    · simp [h.1, ih h.2]

variable [DecidableEq α]

/-- A read after a write to the same key gives the value written. -/
@[simp] theorem Tbl.get_set_same (d : α) (t : Tbl α) (k : Nat) (v : α) : Tbl.get d (Tbl.set d t k v) k = v := by
  simp only [Tbl.set]
  split <;> simp_all

/-- A write leaves every other key alone. -/
theorem Tbl.get_set_other (d : α) (t : Tbl α) {k j : Nat} (v : α) (h : j ≠ k) :
    Tbl.get d (Tbl.set d t k v) j = Tbl.get d t j := by
  simp only [Tbl.set]
  split
  · exact Tbl.get_del_other d t h
  · exact Tbl.get_put_other d t v h

/-- A write keeps the canonical form. -/
theorem Tbl.wf_set (d : α) {t : Tbl α} (k : Nat) (v : α) (h : Tbl.wf d t = true) : Tbl.wf d (Tbl.set d t k v) = true := by
  simp only [Tbl.wf, Bool.and_eq_true] at h ⊢
  simp only [Tbl.set]
  split
  · exact ⟨Tbl.rising_del h.1, Tbl.all_del h.2⟩
  · rename_i hv
    exact ⟨Tbl.rising_put h.1, Tbl.all_put h.2 (by simpa using hv)⟩

end Sys2Proof.Machine
end

