-- ==== Sys2Proof/Laws/Reg.lean ====
section
/-! SUPPORT. Registers and their fields: what a read sees after a write (R13, R17, R32). -/

namespace Sys2Proof.Machine

/-! ### Bit fields -/

/-- Bits of a number as a quotient. -/
theorem bitsOf_eq (x lo w : Nat) : bitsOf x lo w = x / 2 ^ lo % 2 ^ w := by
  simp [bitsOf, Nat.shiftRight_eq_div_pow]

theorem bitsOf_lt (x lo w : Nat) : bitsOf x lo w < 2 ^ w := by
  rw [bitsOf_eq]; exact Nat.mod_lt _ (Nat.two_pow_pos w)

/-- A bit of a field. -/
theorem testBit_bitsOf (x lo w i : Nat) : (bitsOf x lo w).testBit i = (decide (i < w) && x.testBit (lo + i)) := by
  simp [bitsOf, Nat.testBit_mod_two_pow, Nat.testBit_shiftRight]

/-- A bit after a field is replaced. -/
theorem testBit_putBits (x lo w v i : Nat) :
    (putBits x lo w v).testBit i = if lo ≤ i ∧ i < lo + w then v.testBit (i - lo) else x.testBit i := by
  have hx : x = x / 2 ^ (lo + w) * 2 ^ (lo + w) + (bitsOf x lo w * 2 ^ lo + x % 2 ^ lo) := by
    rw [bitsOf_eq]
    have h1 := Nat.div_add_mod x (2 ^ lo)
    have h2 := Nat.div_add_mod (x / 2 ^ lo) (2 ^ w)
    rw [Nat.div_div_eq_div_mul, ← Nat.pow_add] at h2
    rw [Nat.pow_add]
    calc x = 2 ^ lo * (x / 2 ^ lo) + x % 2 ^ lo := h1.symm
      _ = 2 ^ lo * (2 ^ w * (x / 2 ^ (lo + w)) + x / 2 ^ lo % 2 ^ w) + x % 2 ^ lo := by rw [h2]
      _ = _ := by rw [Nat.pow_add]; simp [Nat.mul_add, Nat.mul_assoc, Nat.mul_comm, Nat.add_assoc]
  have hp : putBits x lo w v = x / 2 ^ (lo + w) * 2 ^ (lo + w) + ((v % 2 ^ w) * 2 ^ lo + x % 2 ^ lo) := by
    have key : ∀ X H B r V : Nat, X = H + (B + r) → X - B + V = H + (V + r) := by intros; omega
    exact key _ _ _ _ _ hx
  have hlo : x % 2 ^ lo < 2 ^ lo := Nat.mod_lt _ (Nat.two_pow_pos lo)
  have hin : (v % 2 ^ w) * 2 ^ lo + x % 2 ^ lo < 2 ^ (lo + w) := by
    rw [Nat.pow_add]
    have hv := Nat.mod_lt v (Nat.two_pow_pos w)
    have h3 : (v % 2 ^ w) * 2 ^ lo ≤ (2 ^ w - 1) * 2 ^ lo := Nat.mul_le_mul_right _ (by omega)
    have h4 : (2 ^ w - 1) * 2 ^ lo + 2 ^ lo = 2 ^ lo * 2 ^ w := by
      rw [Nat.sub_mul]
      have : 1 * 2 ^ lo ≤ 2 ^ w * 2 ^ lo := Nat.mul_le_mul_right _ (Nat.two_pow_pos w)
      rw [Nat.mul_comm (2 ^ lo) (2 ^ w)]
      omega
    omega
  rw [hp, Nat.mul_comm, Nat.testBit_two_pow_mul_add _ hin, Nat.mul_comm (v % 2 ^ w), Nat.testBit_two_pow_mul_add _ hlo]
  by_cases h1 : i < lo
  · have h2 : i < lo + w := by omega
    rw [if_pos h2, if_pos h1, if_neg (by omega)]
    simp [Nat.testBit_mod_two_pow, h1]
  · by_cases h2 : i < lo + w
    · have h3 : i - lo < w := by omega
      rw [if_pos h2, if_neg h1, if_pos (by omega)]
      simp [Nat.testBit_mod_two_pow, h3]
    · rw [if_neg h2, if_neg (by omega), Nat.testBit_div_two_pow]
      congr 1
      omega

/-- A field read back within 32 bits after it is replaced. -/
theorem bitsOf_putBits_same (x lo w v : Nat) (h : lo + w ≤ 32) : bitsOf (putBits x lo w v % 2 ^ 32) lo w = v % 2 ^ w := by
  apply Nat.eq_of_testBit_eq
  intro i
  rw [testBit_bitsOf, Nat.testBit_mod_two_pow, Nat.testBit_mod_two_pow, testBit_putBits]
  by_cases hi : i < w
  · have h1 : lo + i < 32 := by omega
    have h2 : lo ≤ lo + i ∧ lo + i < lo + w := by omega
    simp [hi, h1, h2]
  · simp [hi]

/-- Another field of the word is untouched by a replacement. -/
theorem bitsOf_putBits_other (x lo w v lo' w' : Nat) (h : lo' + w' ≤ 32) (hd : lo' + w' ≤ lo ∨ lo + w ≤ lo') :
    bitsOf (putBits x lo w v % 2 ^ 32) lo' w' = bitsOf x lo' w' := by
  apply Nat.eq_of_testBit_eq
  intro i
  rw [testBit_bitsOf, Nat.testBit_mod_two_pow, testBit_putBits, testBit_bitsOf]
  by_cases hi : i < w'
  · have h1 : lo' + i < 32 := by omega
    have h2 : ¬ (lo ≤ lo' + i ∧ lo' + i < lo + w) := by omega
    simp [hi, h1, h2]
  · simp [hi]

/-! ### Registers -/

/-- A read of the register just written. -/
@[simp] theorem State.reg_setReg_same (s : State) (o v : Nat) : (s.setReg o v).reg o = v % 2 ^ 32 := by
  have hw : (w32 v).toNat = v % 2 ^ 32 := by simp [w32]
  by_cases h : (w32 v).toNat = resetOf s.gib o
  · have e : (s.setReg o v).regs = s.regs.del o := by simp [State.setReg, h]
    simp [State.reg, e, ← h, hw]
  · have e : (s.setReg o v).regs = s.regs.put o (w32 v) := by simp [State.setReg, h]
    simp [State.reg, e, hw]

/-- Other registers are untouched. -/
theorem State.reg_setReg_other (s : State) {o p : Nat} (v : Nat) (h : p ≠ o) : (s.setReg o v).reg p = s.reg p := by
  by_cases h' : (w32 v).toNat = resetOf s.gib o
  · have e : (s.setReg o v).regs = s.regs.del o := by simp [State.setReg, h']
    simp [State.reg, e, Tbl.find_del_other _ h]
  · have e : (s.setReg o v).regs = s.regs.put o (w32 v) := by simp [State.setReg, h']
    simp [State.reg, e, Tbl.find_put_other _ _ h]

/-- A field reads back what was written to it. -/
theorem State.rd_wr_same (s : State) (f : Fld) (v : Nat) (h : f.lo + f.w ≤ 32) : (s.wr f v).rd f = v % 2 ^ f.w := by
  simp only [State.rd, State.wr, State.reg_setReg_same]
  exact bitsOf_putBits_same _ _ _ _ h

/-- A field of another register is untouched. -/
theorem State.rd_wr_other (s : State) {f g : Fld} (v : Nat) (h : g.off ≠ f.off) : (s.wr f v).rd g = s.rd g := by
  simp only [State.rd, State.wr, State.reg_setReg_other s _ h]

/-- Another field of the same register is untouched. -/
theorem State.rd_wr_field (s : State) {f g : Fld} (v : Nat) (ho : g.off = f.off) (hw : g.lo + g.w ≤ 32)
    (hd : g.lo + g.w ≤ f.lo ∨ f.lo + f.w ≤ g.lo) : (s.wr f v).rd g = s.rd g := by
  simp only [State.rd, State.wr, ho, State.reg_setReg_same]
  exact bitsOf_putBits_other _ _ _ _ _ _ hw hd

/-- Other registers are untouched by the write of a field. -/
theorem State.reg_wr_other (s : State) {f : Fld} {p : Nat} (v : Nat) (h : p ≠ f.off) : (s.wr f v).reg p = s.reg p :=
  s.reg_setReg_other _ h

/-- The word after the write of a field. -/
theorem State.reg_wr_same (s : State) (f : Fld) (v : Nat) :
    (s.wr f v).reg f.off = putBits (s.reg f.off) f.lo f.w v % 2 ^ 32 := by
  simp only [State.wr, State.reg_setReg_same]

/-- A one-bit field after its write. -/
theorem State.on_wr_same (s : State) (f : Fld) (v : Nat) (h : f.lo + f.w ≤ 32) :
    (s.wr f v).on f = (v % 2 ^ f.w != 0) := by
  simp only [State.on, State.rd_wr_same s f v h]

end Sys2Proof.Machine
end

