-- ==== Sys2Proof/Laws/Settle.lean ====
section
/-! SUPPORT. What every command ends with: the Sluice follows its pulses and its faults are taken (R362, R463). It
changes interrupt counts, Sluice outputs and the fault unit, and nothing else. -/

namespace Sys2Proof.Machine

namespace State

theorem Quiet.refl (s : State) : s.Quiet s :=
  ⟨rfl, rfl, rfl, rfl, rfl, rfl, rfl, rfl, rfl, rfl, rfl, rfl, rfl, rfl, rfl, rfl, rfl, rfl, rfl, rfl, rfl, rfl, rfl, rfl, rfl, rfl, rfl, rfl, rfl, rfl, rfl, ⟨_, rfl⟩, fun _ _ => rfl, fun _ _ _ _ => rfl⟩

theorem Quiet.trans {a b c : State} (h : a.Quiet b) (k : b.Quiet c) : a.Quiet c := by
  obtain ⟨w, hw⟩ := h.boot
  obtain ⟨v, hv⟩ := k.boot
  exact ⟨k.now.trans h.now, k.gib.trans h.gib, k.ovr.trans h.ovr, k.mem.trans h.mem, k.freeCnt.trans h.freeCnt, k.sent.trans h.sent, k.tick.trans h.tick, k.eng.trans h.eng, k.obj.trans h.obj, k.pld.trans h.pld, k.ward.trans h.ward, k.pvw.trans h.pvw, k.lane.trans h.lane, k.port.trans h.port, k.tile.trans h.tile, k.chain.trans h.chain, k.sec.trans h.sec, k.memc.trans h.memc, k.blt.trans h.blt, k.dma.trans h.dma, k.dmaServed.trans h.dmaServed, k.cores.trans h.cores, k.irqStk.trans h.irqStk, k.pin.trans h.pin, k.tickOut.trans h.tickOut, k.clv.trans h.clv, k.tmr.trans h.tmr, k.aud.trans h.aud, k.hst.trans h.hst, k.rdata.trans h.rdata, k.pending.trans h.pending,
    ⟨v, by rw [hv, hw]⟩, fun o ho => (k.reg o ho).trans (h.reg o ho), fun o i hi ho => (k.bit o i hi ho).trans (h.bit o i hi ho)⟩

/-- The bits of a field are among those that may change. -/
abbrev QuietFld (f : Fld) : Prop :=
  quietOff f.off = true ∧ ∀ i, i < 32 → f.lo ≤ i → i < f.lo + f.w → quietBit f.off i = true

/-- Writes of the registers that may change, and of the Sluice, the fault unit and the list of raised faults. -/
theorem Quiet.wr (s : State) (f : Fld) (v : Nat) (h : QuietFld f) : s.Quiet (s.wr f v) :=
  ⟨rfl, rfl, rfl, rfl, rfl, rfl, rfl, rfl, rfl, rfl, rfl, rfl, rfl, rfl, rfl, rfl, rfl, rfl, rfl, rfl, rfl, rfl, rfl, rfl, rfl, rfl, rfl, rfl, rfl, rfl, rfl, ⟨_, rfl⟩, fun o ho =>
    s.reg_wr_other v (fun e => by rw [e, h.1] at ho; cases ho),
    fun o i hi ho => by
      by_cases e : o = f.off
      · subst e
        rw [s.reg_wr_same, Nat.testBit_mod_two_pow, testBit_putBits, if_neg (fun hn => by rw [h.2 i hi hn.1 hn.2] at ho; cases ho)]
        simp [hi]
      · rw [s.reg_wr_other v e]⟩

theorem Quiet.slc (s : State) (x : SlcS) : s.Quiet { s with slc := x } :=
  ⟨rfl, rfl, rfl, rfl, rfl, rfl, rfl, rfl, rfl, rfl, rfl, rfl, rfl, rfl, rfl, rfl, rfl, rfl, rfl, rfl, rfl, rfl, rfl, rfl, rfl, rfl, rfl, rfl, rfl, rfl, rfl, ⟨_, rfl⟩, fun _ _ => rfl, fun _ _ _ _ => rfl⟩

theorem Quiet.flt (s : State) (x : FltS) : s.Quiet { s with flt := x } :=
  ⟨rfl, rfl, rfl, rfl, rfl, rfl, rfl, rfl, rfl, rfl, rfl, rfl, rfl, rfl, rfl, rfl, rfl, rfl, rfl, rfl, rfl, rfl, rfl, rfl, rfl, rfl, rfl, rfl, rfl, rfl, rfl, ⟨_, rfl⟩, fun _ _ => rfl, fun _ _ _ _ => rfl⟩

theorem Quiet.raised (s : State) (x : List (Nat × Nat)) : s.Quiet { s with raised := x } :=
  ⟨rfl, rfl, rfl, rfl, rfl, rfl, rfl, rfl, rfl, rfl, rfl, rfl, rfl, rfl, rfl, rfl, rfl, rfl, rfl, rfl, rfl, rfl, rfl, rfl, rfl, rfl, rfl, rfl, rfl, rfl, rfl, ⟨_, rfl⟩, fun _ _ => rfl, fun _ _ _ _ => rfl⟩

theorem Quiet.wake (s : State) (x : List (Nat × Nat)) : s.Quiet { s with boot := { s.boot with wakeDue := x } } :=
  ⟨rfl, rfl, rfl, rfl, rfl, rfl, rfl, rfl, rfl, rfl, rfl, rfl, rfl, rfl, rfl, rfl, rfl, rfl, rfl, rfl, rfl, rfl, rfl, rfl, rfl, rfl, rfl, rfl, rfl, rfl, rfl, ⟨_, rfl⟩, fun _ _ => rfl, fun _ _ _ _ => rfl⟩

theorem Quiet.cyc (s : State) (x : CycS) : s.Quiet { s with cyc := x } :=
  ⟨rfl, rfl, rfl, rfl, rfl, rfl, rfl, rfl, rfl, rfl, rfl, rfl, rfl, rfl, rfl, rfl, rfl, rfl, rfl, rfl, rfl, rfl, rfl, rfl, rfl, rfl, rfl, rfl, rfl, rfl, rfl, ⟨_, rfl⟩, fun _ _ => rfl, fun _ _ _ _ => rfl⟩

/-- A counter, and a flag, that may change. -/
theorem Quiet.incRcBy (s : State) (f : Fld) (n : Nat) (h : QuietFld f) : s.Quiet (s.incRcBy f n) :=
  (Quiet.wr s f _ h).trans (Quiet.cyc _ _)

theorem Quiet.hwSet (s : State) (f : Fld) (h : QuietFld f) : s.Quiet (s.hwSet f) := (Quiet.wr s f _ h).trans (Quiet.cyc _ _)

theorem Quiet.ite {a b d : State} {c : Prop} [Decidable c] (h : a.Quiet b) (k : a.Quiet d) :
    a.Quiet (if c then b else d) := by
  split
  · exact h
  · exact k

/-- A loop whose every turn changes no more changes no more. -/
theorem Quiet.foldl {α : Type} (f : State → α → State) (l : List α) (hf : ∀ (a : State) x, x ∈ l → a.Quiet (f a x)) (s : State) :
    s.Quiet (l.foldl f s) := by
  induction l generalizing s with
  | nil => exact Quiet.refl s
  | cons x l ih =>
    exact (hf s x (by simp)).trans (ih (fun a y hy => hf a y (by simp [hy])) (f s x))

theorem quietOff_iff (o : Nat) : quietOff o = true ↔ (0x5004 ≤ o ∧ o ≤ 0x5548) ∨ (0x3104 ≤ o ∧ o ≤ 0x32FC) ∨ o = 0x2004 ∨
    o = 0x2010 ∨ o = 0x2040 ∨ o = 0x201C ∨ (0x2404 ≤ o ∧ o ≤ 0x2634 ∧ (o - 0x2404) % 8 = 0) := by
  simp only [quietOff, Bool.or_eq_true, Bool.and_eq_true, decide_eq_true_eq, beq_iff_eq, or_assoc, and_assoc]

theorem quietBit_iff (o i : Nat) : quietBit o i = true ↔ (0x5004 ≤ o ∧ o ≤ 0x5548 ∧ 8 ≤ i ∧ i < 16) ∨
    (0x3104 ≤ o ∧ o ≤ 0x32FC ∧ i = 16) ∨ (o = 0x2004 ∧ i < 3) ∨ (o = 0x2010 ∧ i < 24) ∨ (o = 0x2040 ∧ i < 7) ∨
    (o = 0x201C ∧ i < 16) ∨ (0x2404 ≤ o ∧ o ≤ 0x2634 ∧ (o - 0x2404) % 8 = 0 ∧ i < 8) := by
  simp only [quietBit, Bool.or_eq_true, Bool.and_eq_true, decide_eq_true_eq, beq_iff_eq, or_assoc, and_assoc]

theorem quiet_src {n : Nat} (h1 : 1 ≤ n) (h : n ≤ 338) : QuietFld (F.IRQ_SRCs.COUNT n) := by
  simp only [QuietFld, quietOff_iff, quietBit_iff, F.IRQ_SRCs.COUNT, R.IRQ_SRCs]
  exact ⟨by omega, fun i _ _ _ => by omega⟩

theorem quiet_irq (s : State) (n : Nat) : s.Quiet (s.irq n) := by
  unfold State.irq
  simp only
  split
  · split
    · rename_i h2
      exact (Quiet.wake s _).trans (Quiet.incRcBy _ _ _ (quiet_src h2.1 h2.2.1))
    · exact Quiet.wake s _
  · split
    · rename_i h2
      exact Quiet.incRcBy s _ _ (quiet_src h2.1 h2.2.1)
    · exact Quiet.refl s

theorem Quiet.rcBack (s : State) (f : Fld) (n : Nat) (h : QuietFld f) : s.Quiet (s.rcBack f n) := by
  unfold State.rcBack
  split
  · exact (Quiet.wr s f _ h).trans (Quiet.cyc _ _)
  · exact Quiet.refl s

theorem quiet_irqBack (s : State) (n k : Nat) (h1 : 1 ≤ n) (h : n ≤ 338) : s.Quiet (s.irqBack n k) :=
  Quiet.rcBack s _ k (quiet_src h1 h)

theorem quiet_deliver (s : State) (n t : Nat) (hn : n < 64) : s.Quiet (s.deliver n t) := by
  unfold State.deliver
  simp only
  split
  · exact quiet_irq s _
  split
  · exact Quiet.refl s
  · split
    · refine Quiet.hwSet s _ ?_
      simp only [QuietFld, quietOff_iff, quietBit_iff, F.SLC_CHn_STAT.COLLIDE, R.SLC_CHn_STAT]
      exact ⟨by omega, fun i _ _ _ => by omega⟩
    · exact Quiet.slc s _

theorem quiet_slcTo (s : State) (l0 p0 : List Nat) (v0 q vis t : Nat) : s.Quiet (s.slcTo l0 p0 v0 q vis t) := by
  unfold State.slcTo
  simp only
  refine (Quiet.slc s _).trans (Quiet.foldl _ _ (fun a n hn => ?_) _)
  have hn : n < 64 := by simpa using hn
  split
  · exact (Quiet.slc a _).trans (quiet_deliver _ _ _ hn)
  · exact Quiet.slc a _

theorem quiet_slcAt (s : State) (t : Nat) : s.Quiet (s.slcAt t) := by
  unfold State.slcAt
  exact (Quiet.slc s _).trans (quiet_slcTo _ _ _ _ _ _ _)

theorem quiet_slcLoop (t n : Nat) (s : State) : s.Quiet (State.slcLoop t n s) := by
  induction n generalizing s with
  | zero => exact Quiet.refl s
  | succ n ih =>
    unfold State.slcLoop
    split
    · exact Quiet.refl s
    · split
      · exact (quiet_slcAt s _).trans (ih _)
      · exact Quiet.refl s

theorem quiet_slcUpTo (s : State) (t : Nat) : s.Quiet (s.slcUpTo t) := by
  unfold State.slcUpTo
  split
  · exact Quiet.refl s
  · exact quiet_slcLoop _ _ _

theorem quiet_slcRun (s : State) : s.Quiet s.slcRun := by
  unfold State.slcRun
  simp only
  split
  · exact Quiet.slc s _
  · split
    · exact (Quiet.slc s _).trans (quiet_slcUpTo _ _)
    · exact (((Quiet.slc s _).trans (quiet_slcUpTo _ _)).trans (Quiet.slc _ _)).trans (quiet_slcTo _ _ _ _ _ _ _)

theorem quiet_fltLogAdd (s : State) (e : FltLog) : s.Quiet (s.fltLogAdd e) := by
  unfold State.fltLogAdd
  split
  · exact (Quiet.flt s _).trans (Quiet.wr _ _ _ (by decide))
  · exact Quiet.hwSet s F.FLT_LOG_STATUS.OVERFLOW (by decide)

theorem quiet_errPulse (s : State) : s.Quiet s.errPulse := by
  unfold State.errPulse
  exact (Quiet.flt s _).trans (Quiet.wr _ _ _ (by decide))

theorem quiet_enterLevel (s : State) (e : Nat) : s.Quiet (s.enterLevel e) := by
  unfold State.enterLevel
  simp only
  split
  · exact Quiet.refl s
  · split
    · split
      · exact Quiet.flt s _
      · exact (Quiet.flt s _).trans (Quiet.wr _ _ _ (by decide))
    · split
      · exact Quiet.flt s _
      · exact (Quiet.flt s _).trans (Quiet.wr _ _ _ (by decide))

/-- A known fault source lies below 0x47. -/
theorem faultInfo_lt {n : Nat} {x : Nat × Nat} (h : faultInfo n = some x) : n < 0x47 := by
  unfold faultInfo at h
  split at h
  · cases h
  · rename_i e he
    have hm := List.mem_of_find?_eq_some he
    have hp := List.find?_some he
    have hall : ∀ e ∈ faultTable, e.1 < 0x47 := by decide
    have := hall e hm
    have : e.1 = n := by simpa using hp
    omega

/-- Source 0 is no fault source. -/
theorem faultInfo_pos {n : Nat} {x : Nat × Nat} (h : faultInfo n = some x) : 1 ≤ n := by
  rcases n with _ | n
  · have : faultInfo 0 = none := by decide
    rw [this] at h
    cases h
  · omega

theorem quiet_countFault (s : State) (f : Nat × Nat) : s.Quiet (s.countFault f) := by
  unfold State.countFault
  split
  · rename_i h
    obtain ⟨x, hx⟩ := Option.isSome_iff_exists.1 h
    have := faultInfo_lt hx
    have := faultInfo_pos hx
    refine Quiet.incRcBy s _ _ ?_
    simp only [QuietFld, quietOff_iff, quietBit_iff, F.FLT_SRCs_CNT.COUNT, R.FLT_SRCs_CNT]
    exact ⟨by omega, fun i _ _ _ => by omega⟩
  · exact Quiet.refl s

theorem quiet_takeFault (s : State) (f : Nat × Nat) : s.Quiet (s.takeFault f) := by
  unfold State.takeFault
  split
  · exact Quiet.refl s
  · simp only
    split
    · exact Quiet.refl s
    · refine Quiet.trans ?_ (quiet_enterLevel _ _)
      have h2 : ∀ x : State, ∀ p v : Nat, ∀ e : FltLog, x.Quiet (((x.wr F.FLT_CLASS.PEND p).wr F.FLT_CLASS.LVL v).fltLogAdd e) :=
        fun x p v e => ((Quiet.wr x F.FLT_CLASS.PEND p (by decide)).trans
          (Quiet.wr _ F.FLT_CLASS.LVL v (by decide))).trans (quiet_fltLogAdd _ _)
      have h3 : ∀ (c : Prop) [Decidable c] (x : State) (p v : Nat) (e : FltLog),
          x.Quiet (if c then (((x.wr F.FLT_CLASS.PEND p).wr F.FLT_CLASS.LVL v).fltLogAdd e).irq 62
            else ((x.wr F.FLT_CLASS.PEND p).wr F.FLT_CLASS.LVL v).fltLogAdd e) :=
        fun c _ x p v e => Quiet.ite ((h2 x p v e).trans (quiet_irq _ _)) (h2 x p v e)
      exact Quiet.ite ((h3 _ _ _ _ _).trans (quiet_errPulse _)) (h3 _ _ _ _ _)

theorem quiet_recover (s : State) : s.Quiet s.recover := by
  have h : s.Quiet ((((s.wr F.FLT_STATUS.STATE 0).wr F.FLT_CLASS.PEND 0).wr F.FLT_CLASS.LVL 0).inc F.FLT_RECOV.COUNT) :=
    (((Quiet.wr s _ _ (by decide)).trans (Quiet.wr _ _ _ (by decide))).trans (Quiet.wr _ _ _ (by decide))).trans
      (Quiet.wr _ _ _ (by decide))
  unfold State.recover
  simp only
  split
  · exact h.trans (Quiet.flt _ _)
  · exact h

theorem quiet_fltBack (s : State) (c : FltCyc) : s.Quiet (s.fltBack c) := by
  have h : s.Quiet (((s.wr fltStat c.stat).wr fltCls c.cls).wr fltLogSt c.logSt) :=
    ((Quiet.wr s _ _ (by decide)).trans (Quiet.wr _ _ _ (by decide))).trans (Quiet.wr _ _ _ (by decide))
  have k : ∀ (d : State) (x : FltS), s.Quiet d → s.Quiet (({ d with flt := x } : State).irqBack 62 c.irqs) :=
    fun d x hd => (hd.trans (Quiet.flt d x)).trans (quiet_irqBack _ 62 _ (by decide) (by decide))
  have h1 := h.trans (Quiet.cyc _ ((((s.wr fltStat c.stat).wr fltCls c.cls).wr fltLogSt c.logSt).modCyc
    (fun y => { y with set := y.set.filter (fun e => e != (R.FLT_LOG_STATUS, 6)) })).cyc)
  unfold State.fltBack
  exact k _ _ (Quiet.ite (h1.trans (Quiet.wr _ F.FLT_RECOV.COUNT _ (by decide))) h1)

/-- An entry into Standby ends a freeze of its cycle (R467). -/
theorem quiet_freezeOff (s : State) (p : Prop) [Decidable p] : s.Quiet (if p then s.wr F.FLT_STATUS.STATE 0 else s) :=
  Quiet.ite (Quiet.wr s _ _ (by decide)) (Quiet.refl s)

theorem quiet_takeSet (s : State) (c : FltCyc) : s.Quiet (s.takeSet c) := by
  have h := Quiet.foldl State.takeFault (fltSort c.set) (fun a f _ => quiet_takeFault a f) s
  unfold State.takeSet
  generalize (fltSort c.set).foldl State.takeFault s = a at h
  have h1 := h.trans (quiet_freezeOff a (a.boot.sby = 2 ∧ a.boot.sbyAt = a.now ∧ a.rd F.FLT_STATUS.STATE = 2))
  simp only
  generalize (if a.boot.sby = 2 ∧ a.boot.sbyAt = a.now ∧ a.rd F.FLT_STATUS.STATE = 2
    then a.wr F.FLT_STATUS.STATE 0 else a) = b at h1
  split
  · exact h1.trans (Quiet.flt _ _)
  · split
    · exact (h1.trans (Quiet.flt _ _)).trans (Quiet.flt _ _)
    · exact ((h1.trans (quiet_recover _)).trans (Quiet.flt _ _)).trans (Quiet.flt _ _)

/-- What `settle` can do. -/
theorem quiet_settle (s : State) : s.Quiet s.settle := by
  have h : s.Quiet (s.slcRun.raised.foldl State.countFault { s.slcRun with raised := [] }) :=
    (quiet_slcRun s).trans ((Quiet.raised _ _).trans (Quiet.foldl _ _ (fun a f _ => quiet_countFault a f) _))
  unfold State.settle
  simp only
  split
  · exact quiet_slcRun s
  · split
    · exact h.trans (quiet_takeSet _ _)
    · exact (h.trans (quiet_fltBack _ _)).trans (quiet_takeSet _ _)

@[simp] theorem settle_now (s : State) : s.settle.now = s.now := (quiet_settle s).now
@[simp] theorem settle_gib (s : State) : s.settle.gib = s.gib := (quiet_settle s).gib
@[simp] theorem settle_ovr (s : State) : s.settle.ovr = s.ovr := (quiet_settle s).ovr
@[simp] theorem settle_mem (s : State) : s.settle.mem = s.mem := (quiet_settle s).mem
@[simp] theorem settle_freeCnt (s : State) : s.settle.freeCnt = s.freeCnt := (quiet_settle s).freeCnt
@[simp] theorem settle_sent (s : State) : s.settle.sent = s.sent := (quiet_settle s).sent
@[simp] theorem settle_tick (s : State) : s.settle.tick = s.tick := (quiet_settle s).tick
@[simp] theorem settle_eng (s : State) : s.settle.eng = s.eng := (quiet_settle s).eng
@[simp] theorem settle_obj (s : State) : s.settle.obj = s.obj := (quiet_settle s).obj
@[simp] theorem settle_pld (s : State) : s.settle.pld = s.pld := (quiet_settle s).pld
@[simp] theorem settle_ward (s : State) : s.settle.ward = s.ward := (quiet_settle s).ward
@[simp] theorem settle_pvw (s : State) : s.settle.pvw = s.pvw := (quiet_settle s).pvw
@[simp] theorem settle_lane (s : State) : s.settle.lane = s.lane := (quiet_settle s).lane
@[simp] theorem settle_port (s : State) : s.settle.port = s.port := (quiet_settle s).port
@[simp] theorem settle_tile (s : State) : s.settle.tile = s.tile := (quiet_settle s).tile
@[simp] theorem settle_chain (s : State) : s.settle.chain = s.chain := (quiet_settle s).chain
@[simp] theorem settle_sec (s : State) : s.settle.sec = s.sec := (quiet_settle s).sec
@[simp] theorem settle_memc (s : State) : s.settle.memc = s.memc := (quiet_settle s).memc
@[simp] theorem settle_blt (s : State) : s.settle.blt = s.blt := (quiet_settle s).blt
@[simp] theorem settle_dma (s : State) : s.settle.dma = s.dma := (quiet_settle s).dma
@[simp] theorem settle_dmaServed (s : State) : s.settle.dmaServed = s.dmaServed := (quiet_settle s).dmaServed
@[simp] theorem settle_cores (s : State) : s.settle.cores = s.cores := (quiet_settle s).cores
@[simp] theorem settle_irqStk (s : State) : s.settle.irqStk = s.irqStk := (quiet_settle s).irqStk
@[simp] theorem settle_pin (s : State) : s.settle.pin = s.pin := (quiet_settle s).pin
@[simp] theorem settle_tickOut (s : State) : s.settle.tickOut = s.tickOut := (quiet_settle s).tickOut
@[simp] theorem settle_clv (s : State) : s.settle.clv = s.clv := (quiet_settle s).clv
@[simp] theorem settle_tmr (s : State) : s.settle.tmr = s.tmr := (quiet_settle s).tmr
@[simp] theorem settle_aud (s : State) : s.settle.aud = s.aud := (quiet_settle s).aud
@[simp] theorem settle_hst (s : State) : s.settle.hst = s.hst := (quiet_settle s).hst
@[simp] theorem settle_rdata (s : State) : s.settle.rdata = s.rdata := (quiet_settle s).rdata
@[simp] theorem settle_pending (s : State) : s.settle.pending = s.pending := (quiet_settle s).pending

theorem settle_reg (s : State) {o : Nat} (h : quietOff o = false) : s.settle.reg o = s.reg o := (quiet_settle s).reg o h

theorem settle_rd (s : State) {f : Fld} (h : quietOff f.off = false) : s.settle.rd f = s.rd f := by
  simp only [State.rd, settle_reg s h]

end State

/-- Every command ends in `done`. -/
theorem done_eq (s : State) : done s = .next s.settle := rfl

end Sys2Proof.Machine
end

