-- ==== Sys2Proof/Laws/Runs.lean ====
section
/-! SUPPORT. How a statement `Runs` or `Leaves` is reached from the operation a meaning is, and what an interrupt event, a
raised fault and a pulse leave alone (R352, R362, R461). -/

namespace Sys2Proof.Machine

theorem Leaves.mk {c : Instr} {s u x : State} (h : exec c s = done x) (q : u.Quiet x) : Leaves c s u :=
  ⟨_, h, q.trans x.quiet_settle⟩
theorem Runs.mk {c : Instr} {s x : State} {P : State → Prop} (h : exec c s = done x) (p : P x.settle) : Runs c s P := ⟨_, h, p⟩
namespace State
theorem Quiet.of_eq {a b : State} (h : a = b) : a.Quiet b := h ▸ .refl _
theorem Quiet.fault' (s : State) (a b : Nat) : s.Quiet (s.fault a b) := .raised _ _
theorem Quiet.pulse' (s : State) (a : Nat) : s.Quiet (s.pulse a) := .slc _ _
theorem Quiet.rd {s t : State} (q : s.Quiet t) {f : Fld} (h : quietOff f.off = false) : t.rd f = s.rd f := by
  simp only [State.rd, q.reg _ h]
theorem Quiet.on {s t : State} (q : s.Quiet t) {f : Fld} (h : quietOff f.off = false) : t.on f = s.on f := by
  simp only [State.on, q.rd h]
theorem settle_on (s : State) {f : Fld} (h : quietOff f.off = false) : s.settle.on f = s.on f := s.quiet_settle.on h
theorem irq_rd (s : State) (n : Nat) {f : Fld} (h : quietOff f.off = false) : (s.irq n).rd f = s.rd f := (quiet_irq s n).rd h
theorem irq_on (s : State) (n : Nat) {f : Fld} (h : quietOff f.off = false) : (s.irq n).on f = s.on f := (quiet_irq s n).on h
theorem irq_reg (s : State) (n : Nat) {o : Nat} (h : quietOff o = false) : (s.irq n).reg o = s.reg o := (quiet_irq s n).reg _ h
theorem flag_eq (s : State) (f : Fld) (n : Nat) : s.flag f n = (s.hwSet f).irq n := rfl
@[simp] theorem hwSet_reg (s : State) (f : Fld) (o : Nat) : (s.hwSet f).reg o = (s.wr f 1).reg o := rfl
@[simp] theorem hwSet_rd (s : State) (f g : Fld) : (s.hwSet f).rd g = (s.wr f 1).rd g := rfl
@[simp] theorem hwSet_on (s : State) (f g : Fld) : (s.hwSet f).on g = (s.wr f 1).on g := rfl
@[simp] theorem arrive_reg (s : State) (k i o : Nat) : (s.arrive k i).reg o = s.reg o := rfl
@[simp] theorem arrive_rd (s : State) (k i : Nat) (g : Fld) : (s.arrive k i).rd g = s.rd g := rfl
@[simp] theorem fault_reg (s : State) (a b o : Nat) : (s.fault a b).reg o = s.reg o := rfl
@[simp] theorem pulse_reg (s : State) (a o : Nat) : (s.pulse a).reg o = s.reg o := rfl
@[simp] theorem fault_rd (s : State) (a b : Nat) (f : Fld) : (s.fault a b).rd f = s.rd f := rfl
@[simp] theorem pulse_rd (s : State) (a : Nat) (f : Fld) : (s.pulse a).rd f = s.rd f := rfl
@[simp] theorem modTick_reg (s : State) (g : TickS → TickS) (o : Nat) : (s.modTick g).reg o = s.reg o := rfl
@[simp] theorem modTick_rd (s : State) (g : TickS → TickS) (f : Fld) : (s.modTick g).rd f = s.rd f := rfl
@[simp] theorem modTick_on (s : State) (g : TickS → TickS) (f : Fld) : (s.modTick g).on f = s.on f := rfl
@[simp] theorem modTick_tick (s : State) (g : TickS → TickS) : (s.modTick g).tick = g s.tick := rfl
@[simp] theorem irq_now (s : State) (n : Nat) : (s.irq n).now = s.now := (quiet_irq s n).now
@[simp] theorem irq_tick (s : State) (n : Nat) : (s.irq n).tick = s.tick := (quiet_irq s n).tick
@[simp] theorem irq_mem (s : State) (n : Nat) : (s.irq n).mem = s.mem := (quiet_irq s n).mem
@[simp] theorem irq_cores (s : State) (n : Nat) : (s.irq n).cores = s.cores := (quiet_irq s n).cores
@[simp] theorem irq_eng (s : State) (n : Nat) : (s.irq n).eng = s.eng := (quiet_irq s n).eng
end State
end Sys2Proof.Machine
end

