-- ==== Sys2Proof/Laws/Mem.lean ====
section
/-! SUPPORT. The memory (10_memory_and_protection.md): what one stored byte reads as after a store, and that every
memory operation keeps the canonical form of `State.mem`. -/

namespace Sys2Proof.Machine

namespace State

/-! ### Stored bytes -/

theorem byte_setByte_same (s : State) (a : Nat) (b : Byte) : (s.setByte a b).byte a = b :=
  Tbl.get_set_same _ _ _ _

theorem byte_setByte_other (s : State) {a c : Nat} (b : Byte) (h : c ≠ a) : (s.setByte a b).byte c = s.byte c :=
  Tbl.get_set_other _ _ _ h

/-- A byte read after consecutive bytes were stored: the stored one where the address lies among them. -/
theorem byte_setBytes (bs : List Byte) : ∀ (s : State) (a c : Nat),
    (s.setBytes a bs).byte c = if a ≤ c ∧ c < a + bs.length then bs.getD (c - a) 0#8 else s.byte c := by
  induction bs with
  | nil => intro s a c; exact (if_neg (fun h => absurd h.2 (Nat.not_lt.2 h.1))).symm
  | cons b bs ih =>
    intro s a c
    rw [State.setBytes, ih]
    by_cases h : c = a
    · subst h
      rw [if_neg (by omega), byte_setByte_same]
      simp
    · rw [byte_setByte_other _ _ h]
      by_cases h1 : a + 1 ≤ c ∧ c < a + 1 + bs.length
      · rw [if_pos h1, if_pos ⟨by omega, by rw [List.length_cons]; omega⟩]
        obtain ⟨k, hk⟩ : ∃ k, c - a = k + 1 := ⟨c - a - 1, by omega⟩
        rw [hk, show c - (a + 1) = k by omega, List.getD_cons_succ]
      · rw [if_neg h1, if_neg (by rw [List.length_cons]; omega)]

/-- Reading back the bytes just stored. -/
theorem bytes_setBytes (s : State) (a : Nat) (bs : List Byte) : (s.setBytes a bs).bytes a bs.length = bs := by
  apply List.ext_getElem
  · simp [State.bytes]
  · intro i h1 h2
    simp only [State.bytes, List.getElem_map, List.getElem_range]
    rw [byte_setBytes, if_pos ⟨by omega, by omega⟩]
    simp [h2]

/-! ### Reads of clean HBM -/

theorem readPiece_hbm_clean {s : State} (h1 : s.memc.rmw = []) (h2 : s.memc.hbmErr = []) (h3 : s.hbmOpen = true) (r : Nat) {a k : Nat}
    (hk : a % 32 + k ≤ 32) (ha : a < 2 ^ 30 * s.gib) : s.readPiece r a k = (.ok (s.bytes a k), s) := by
  have hf : s.flushRmw (32 * (a / 32)) = s := by simp [State.flushRmw, h1]
  have hp : s.peekBlk (a / 32) = some (s.bytes (32 * (a / 32)) 32, 0) := by simp [State.peekBlk, State.blkErr, h2]
  have hb : s.readBlk (a / 32) r = (some (s.bytes (32 * (a / 32)) 32), s) := by simp [State.readBlk, hf, hp]
  have hr : regionOf s.gib a = .hbm := if_pos ha
  have e : ((s.bytes (32 * (a / 32)) 32).drop (a % 32)).take k = s.bytes a k := by
    apply List.ext_getElem
    · simp [State.bytes]; omega
    · intro i hi _
      simp only [State.bytes, List.getElem_take, List.getElem_drop, List.getElem_map, List.getElem_range]
      congr 1; omega
  simp [State.readPiece, hr, h3, hb, e]

theorem bytes_append (s : State) (a k n : Nat) : s.bytes a k ++ s.bytes (a + k) n = s.bytes a (k + n) := by
  simp [State.bytes, List.range_add, Function.comp_def, Nat.add_assoc]

theorem readLoop_hbm_clean {s : State} (h1 : s.memc.rmw = []) (h2 : s.memc.hbmErr = []) (h3 : s.hbmOpen = true) (r : Nat) :
    ∀ (f a n : Nat), n = 0 ∨ a % 32 + n ≤ 32 * f → a + n ≤ 2 ^ 30 * s.gib → s.readLoop r f a n = (.ok (s.bytes a n), s)
  | 0, a, n, hf, _ => by
    obtain rfl : n = 0 := by omega
    rfl
  | f + 1, a, n, hf, h => by
    by_cases hn : n = 0
    · subst hn
      rfl
    · have hp := readPiece_hbm_clean h1 h2 h3 r (a := a) (k := min n (32 - a % 32)) (by omega) (by omega)
      have hb := readLoop_hbm_clean h1 h2 h3 r f (a + min n (32 - a % 32)) (n - min n (32 - a % 32)) (by omega) (by omega)
      simp only [State.readLoop, if_neg hn, hp, hb, bytes_append]
      rw [show min n (32 - a % 32) + (n - min n (32 - a % 32)) = n by omega]

/-- Over HBM that answers, without wrong symbols or buffered writes, a read returns the stored bytes and changes nothing. -/
theorem busRead_hbm_clean {s : State} (h1 : s.memc.rmw = []) (h2 : s.memc.hbmErr = []) (h3 : s.hbmOpen = true) (r a n : Nat)
    (h : a + n ≤ 2 ^ 30 * s.gib) : s.busRead r a n = (.ok (s.bytes a n), s) :=
  readLoop_hbm_clean h1 h2 h3 r _ a n (by omega) h

/-! ### The canonical form -/

theorem wf_setByte (s : State) (a : Nat) (b : Byte) (h : Memory.wf s.mem = true) : Memory.wf (s.setByte a b).mem = true :=
  Tbl.wf_set _ _ _ h

theorem wf_setBytes (bs : List Byte) : ∀ (s : State) (a : Nat), Memory.wf s.mem = true → Memory.wf (s.setBytes a bs).mem = true := by
  induction bs with
  | nil => intro s a h; exact h
  | cons b bs ih => intro s a h; exact ih _ _ (wf_setByte s a b h)

@[simp] theorem memLog_mem (s : State) (t a r n : Nat) : (s.memLog t a r n).mem = s.mem := by
  unfold State.memLog; split <;> simp

@[simp] theorem memRaise_mem (s : State) (a b c : Nat) : (s.memRaise a b c).mem = s.mem := by
  unfold State.memRaise; simp only; repeat' split
  all_goals rfl

@[simp] theorem memFaultI_mem (s : State) (a b c : Nat) : (s.memFaultI a b c).mem = s.mem := by
  unfold State.memFaultI; split
  · rfl
  · exact memRaise_mem s a b c

@[simp] theorem memFault_mem (s : State) (a b : Nat) : (s.memFault a b).mem = s.mem := memFaultI_mem s a b b

@[simp] theorem decodeErr_mem (s : State) (a r : Nat) : (s.decodeErr a r).mem = s.mem := by
  unfold State.decodeErr; simp

@[simp] theorem hbmCe_mem (s : State) (b r t n : Nat) : (s.hbmCe b r t n).mem = s.mem := by
  unfold State.hbmCe; simp only; split <;> simp

@[simp] theorem repairAdd_mem (s : State) (b : Nat) : (s.repairAdd b).mem = s.mem := by
  unfold State.repairAdd; split
  · rfl
  · split <;> simp

/-- A loop whose every turn leaves the memory alone leaves it alone. -/
theorem foldl_mem {α : Type} (f : State → α → State) (hf : ∀ (x : State) r, (f x r).mem = x.mem) (l : List α) (s : State) :
    (l.foldl f s).mem = s.mem := by
  induction l generalizing s with
  | nil => rfl
  | cons r l ih => exact (ih _).trans (hf s r)

@[simp] theorem writerErr_mem (s : State) (l : List Nat) (a w : Nat) : (s.writerErr l a w).mem = s.mem := by
  refine foldl_mem _ (fun x r => ?_) l s
  simp only
  repeat' split
  all_goals rfl

@[simp] theorem resvClear_mem (s : State) (a n : Nat) : (s.resvClear a n).mem = s.mem := rfl
@[simp] theorem journalAdd_mem (s : State) (a n : Nat) : (s.journalAdd a n).mem = s.mem := rfl

theorem wf_storeBlk (s : State) (b : Nat) (bs : List Byte) (h : Memory.wf s.mem = true) :
    Memory.wf (s.storeBlk b bs).mem = true := by
  have := wf_setBytes bs s (32 * b) h
  unfold State.storeBlk; simp only; split <;> exact this

theorem wf_storeWord8 (s : State) (a : Nat) (bs : List Byte) (h : Memory.wf s.mem = true) :
    Memory.wf (s.storeWord8 a bs).mem = true := by
  have := wf_setBytes bs s a h
  unfold State.storeWord8; simp only; split <;> exact this

theorem wf_flushRmwE (s : State) (e : MergeE) (h : Memory.wf s.mem = true) : Memory.wf (s.flushRmwE e).mem = true := by
  unfold State.flushRmwE; simp only
  split
  · exact wf_storeBlk _ _ _ h
  · split
    · simpa using h
    · apply wf_storeBlk
      split
      · exact h
      · simpa using h

theorem wf_flushMergeE (s : State) (e : MergeE) (h : Memory.wf s.mem = true) : Memory.wf (s.flushMergeE e).mem = true := by
  unfold State.flushMergeE; simp only
  split
  · exact wf_storeWord8 _ _ _ h
  · split
    · simpa using h
    · apply wf_storeWord8
      split
      · exact h
      · split <;> simpa using h

theorem wf_flushRmw (s : State) (a : Nat) (h : Memory.wf s.mem = true) : Memory.wf (s.flushRmw a).mem = true := by
  unfold State.flushRmw; split
  · exact h
  · exact wf_flushRmwE _ _ h

theorem wf_readBlk (s : State) (b r : Nat) (h : Memory.wf s.mem = true) : Memory.wf (s.readBlk b r).2.mem = true := by
  have := wf_flushRmw s (32 * b) h
  unfold State.readBlk; simp only
  split
  · simpa using this
  · split <;> simpa using this

@[simp] theorem readWord8_mem (s : State) (w r : Nat) : (s.readWord8 w r).2.mem = s.mem := by
  unfold State.readWord8; simp only
  repeat' split
  all_goals simp

@[simp] theorem readWords8_mem (r : Nat) : ∀ (k : Nat) (s : State) (w : Nat), (s.readWords8 r w k).2.mem = s.mem := by
  intro k
  induction k with
  | zero => intro s w; rfl
  | succ k ih =>
    intro s w
    have h := readWord8_mem s w r
    unfold State.readWords8
    split
    · rename_i s' e; rw [e] at h; exact h
    · rename_i bs s' e
      rw [e] at h
      have := ih s' (w + 8)
      split
      · rename_i r' s'' e'; rw [e'] at this; exact this.trans h
      · exact this.trans h

@[simp] theorem free_mem (s : State) : s.free.2.mem = s.mem := rfl

@[simp] theorem freeBytes_mem : ∀ (n : Nat) (s : State), (s.freeBytes n).2.mem = s.mem := by
  intro n
  induction n with
  | zero => intro s; rfl
  | succ n ih => intro s; unfold State.freeBytes; exact (ih s.free.2).trans rfl

theorem wf_readPiece (s : State) (r a n : Nat) (h : Memory.wf s.mem = true) : Memory.wf (s.readPiece r a n).2.mem = true := by
  unfold State.readPiece
  split
  · split
    · exact h
    · have := wf_readBlk s (a / 32) r h
      split <;> rename_i e <;> rw [e] at this <;> exact this
  · have e := readWords8_mem r ((a + n - 1) / 8 + 1 - a / 8) s (a / 8 * 8)
    simp only
    split
    · rename_i q; rw [q] at e; exact (congrArg Memory.wf e).trans h
    · rw [e]; exact h
  · split
    · exact (congrArg Memory.wf (freeBytes_mem n _)).trans h
    · simpa using h
  · simpa using h
  · simpa using h

theorem wf_readLoop (r : Nat) : ∀ (f : Nat) (s : State) (a n : Nat), Memory.wf s.mem = true →
    Memory.wf (s.readLoop r f a n).2.mem = true := by
  intro f
  induction f with
  | zero => intro s a n h; exact h
  | succ f ih =>
    intro s a n h
    unfold State.readLoop
    split
    · exact h
    · have p := wf_readPiece s r a (min n (32 - a % 32)) h
      simp only
      split
      · rename_i bs s' e
        rw [e] at p
        have := ih s' (a + min n (32 - a % 32)) (n - min n (32 - a % 32)) p
        split
        · rename_i q; rw [q] at this; exact this
        · exact this
      · exact p

/-- A read of system memory keeps the canonical form. -/
theorem wf_busRead (s : State) (r a n : Nat) (h : Memory.wf s.mem = true) : Memory.wf (s.busRead r a n).2.mem = true :=
  wf_readLoop r _ s a n h

/-- A loop whose every turn keeps the canonical form keeps it. -/
theorem wf_foldl {α : Type} (f : State → α → State) (hf : ∀ (x : State) w, Memory.wf x.mem = true → Memory.wf (f x w).mem = true)
    (l : List α) (x : State) (h : Memory.wf x.mem = true) : Memory.wf (l.foldl f x).mem = true := by
  induction l generalizing x with
  | nil => exact h
  | cons w l ih => exact ih _ (hf x w h)

theorem wf_wordPut (s : State) (r p w : Nat) (l : List (Nat × Byte)) (h : Memory.wf s.mem = true) :
    Memory.wf (s.wordPut r p w l).mem = true := by
  have key : ∀ (x : State) (c : Prop) [Decidable c] (l : List MergeE) (e : MergeE), Memory.wf x.mem = true →
      Memory.wf (if c then ({ x with memc := { x.memc with merge := l } } : State).flushMergeE e
        else { x with memc := { x.memc with merge := l } }).mem = true := by
    intro x c _ l e hx
    split
    · exact wf_flushMergeE _ _ hx
    · exact hx
  unfold State.wordPut
  split
  · exact h
  · refine key _ _ _ _ ?_
    split
    · split
      · exact wf_flushMergeE _ _ h
      · exact h
    · exact h

theorem wf_sramPut (s : State) (r p a : Nat) (bs : List Byte) (h : Memory.wf s.mem = true) :
    Memory.wf (s.sramPut r p a bs).mem = true :=
  wf_foldl _ (fun x w hx => wf_wordPut x r p w _ hx) _ _ h

theorem wf_scUndo (s : State) (r a n : Nat) (h : Memory.wf s.mem = true) : Memory.wf (s.scUndo r a n).mem = true :=
  wf_foldl State.scFail (fun x e hx => wf_sramPut x (0x20 + e.core) e.port e.addr e.old hx) _ s h

/-- A write to an SRAM keeps the canonical form. -/
theorem wf_sramWrite (s : State) (r p a : Nat) (bs : List Byte) (h : Memory.wf s.mem = true) :
    Memory.wf (s.sramWrite r p a bs).mem = true := by
  have h2 := wf_sramPut (((s.scUndo r a bs.length).resvClear a bs.length).journalAdd a bs.length) r p a bs
    (wf_scUndo s r a bs.length h)
  unfold State.sramWrite
  simp only
  split
  · exact h2
  · exact h2

theorem wf_writePiece (s : State) (r a : Nat) (bs : List Byte) (h : Memory.wf s.mem = true) :
    Memory.wf (s.writePiece r a bs).2.mem = true := by
  unfold State.writePiece
  simp only
  split
  · split
    · exact h
    · simp only
      have key : ∀ x : State, Memory.wf x.mem = true → ∀ (c : Prop) [Decidable c] (l : List MergeE) (e : MergeE),
          Memory.wf (if c then ({ x with memc := { x.memc with rmw := l } } : State).flushRmwE e
            else { x with memc := { x.memc with rmw := l } }).mem = true := by
        intro x hx c _ l e
        split
        · exact wf_flushRmwE _ _ hx
        · exact hx
      apply key
      split
      · split
        · exact wf_flushRmwE _ _ h
        · exact h
      · exact h
  · exact wf_sramWrite s r _ a bs h
  · split
    · exact h
    · simpa using h
  · simpa using h
  · simpa using h

theorem wf_writeLoop (r : Nat) : ∀ (f : Nat) (s : State) (a : Nat) (bs : List Byte), Memory.wf s.mem = true →
    Memory.wf (s.writeLoop r f a bs).2.mem = true := by
  intro f
  induction f with
  | zero => intro s a bs h; exact h
  | succ f ih =>
    intro s a bs h
    unfold State.writeLoop
    split
    · exact h
    · have p := wf_writePiece s r a (bs.take (32 - a % 32)) h
      simp only
      split
      · rename_i q; rw [q] at p; exact ih _ _ _ p
      · exact p

/-- A write to system memory keeps the canonical form. -/
theorem wf_busWrite (s : State) (r a : Nat) (bs : List Byte) (h : Memory.wf s.mem = true) :
    Memory.wf (s.busWrite r a bs).2.mem = true := wf_writeLoop r _ s a bs h

/-- Entries taken out leave the canonical form (the HBM at its initialisation, the SRAM at a reset: R493, R517). -/
theorem wf_filter (p : Host.Cell → Bool) {m : List Host.Cell} (h : Memory.wf m = true) : Memory.wf (m.filter p) = true := by
  unfold Memory.wf Tbl.wf at *
  simp only [Bool.and_eq_true] at *
  refine ⟨?_, ?_⟩
  · have hr := h.1
    clear h
    induction m with
    | nil => rfl
    | cons e m ih =>
      obtain ⟨a, x⟩ := e
      rw [Tbl.rising_cons] at hr
      rw [List.filter_cons]
      split
      · rw [Tbl.rising_cons]
        exact ⟨fun e he => hr.1 e ((List.mem_filter.1 he).1), ih hr.2⟩
      · exact ih hr.2
  · rw [List.all_eq_true] at h ⊢
    exact fun e he => h.2 e ((List.mem_filter.1 he).1)

end State

end Sys2Proof.Machine
end

