-- ==== Sys2Proof/Laws/Ops.lean ====
section
/-! SUPPORT. What shared operations of several families can do: one lemma each, for proofs to cite in place of the
operation's text. -/

namespace Sys2Proof.Machine

/-- The sequencer takes only a word that the row names. -/
theorem llTake_names {s t : State} {n w : Nat} {ws : List Nat} {p : Nat → List Nat → Bool}
    (h : s.llTake n p = some (w, ws, t)) : p w ws = true ∧ s.llGo n = true := by
  unfold State.llTake at h
  split at h
  · cases h
  · rename_i hg
    refine ⟨?_, by simpa using hg⟩
    split at h
    · cases h
    · dsimp only at h
      split at h
      · cases h
      · split at h
        · cases h
        · split at h
          · cases h
          · rename_i hp
            simp only [Option.some.injEq, Prod.mk.injEq] at h
            obtain ⟨rfl, rfl, -⟩ := h
            simpa using hp

/-- A row of the sequencer changes nothing, or acts on the word it names. -/
theorem llStep_cases (s : State) (n : Nat) (p : Nat → List Nat → Bool) (f : Nat → State → State) :
    s.llStep n p f = s ∨ ∃ w ws t, s.llTake n p = some (w, ws, t) ∧ p w ws = true ∧ s.llStep n p f = f w t := by
  unfold State.llStep
  split
  · exact .inl rfl
  · rename_i w ws t h
    exact .inr ⟨w, ws, t, h, (llTake_names h).1, rfl⟩

/-- A row of the mailbox whose slot is not the next, or holds another command, changes nothing. -/
theorem mbTake_other {s : State} {k : Nat} {code : Nat → Bool} (h : s.mbNext ≠ some k ∨ code (s.mbCode k) = false)
    (need : Bool) (priv : Nat) (run : Option Nat → State → State) : s.mbTake k code need priv run = s := by
  unfold State.mbTake
  rw [if_pos (by rcases h with h | h <;> simp [h])]

/-- A memory fault is raised, or its class has had one in the frame (R279). -/
theorem memRaise_cases (s : State) (src req inst : Nat) :
    s.memRaise src req inst = s ∨
      ∃ l, s.memRaise src req inst = ({ s with memc := { s.memc with raisedAt := l } } : State).fault src inst := by
  unfold State.memRaise
  dsimp only
  generalize List.any (List.filter _ s.memc.raisedAt) _ = b
  cases b
  · exact .inr ⟨_, rfl⟩
  · exact .inl rfl

/-- A register write is lost in Standby, denied, or made (R429, R515). -/
theorem regWrite_cases (s : State) (req o v : Nat) :
    s.regWrite req o v = s ∨ s.regWrite req o v = s.deny ∨ s.regWrite req o v = s.writeAt req o (v % 2 ^ 32) := by
  unfold State.regWrite
  split
  · exact .inl rfl
  · split
    · exact .inr (.inl rfl)
    · exact .inr (.inr rfl)

/-- A command of a queue starts only where the blitter is idle and serves that queue (R243). -/
theorem bltStart_some {s : State} {q : Nat} {w : List Nat} (h : s.bltStart q = some w) :
    s.blt.run = none ∧ s.bltPick = some q ∧ s.bltHead q = some w := by
  unfold State.bltStart at h
  split at h <;> simp_all

end Sys2Proof.Machine
end

