-- ==== Sys2Proof/WellFormed.lean ====
section
/-! DEFINITION. Well-formed commands: every operand lies in the range its field has in the spec. -/

namespace Sys2Proof

/-- Every element of a list lies below a bound. -/
def allBelow (b : Nat) (l : List Nat) : Bool := l.all (fun x => decide (x < b))

/-- A failed fetch names a cause and a system address. -/
def BadFetch.ok (e : BadFetch) : Bool := decide (e.cause < 3) && decide (e.addr < 2 ^ 40)

/-- The command's operands lie in their ranges. -/
def Instr.wf (i : Instr) : Bool :=
  match i with
  | .frameTick => true
  | .fsyncInChange _ => true
  | .genlockEdge => true
  | .genlockHoldover => true
  | .tickRun _ => true
  | .tickSrc _ => true
  | .resync => true
  | .tickPeriodWrite _ v => decide (v < 2 ^ 32)
  | .lineTick n => decide (n < 17)
  | .vpllLock k => decide (k < 4)
  | .vpllUnlock k => decide (k < 4)
  | .vpllMultWrite k v => decide (k < 4) && decide (v < 2 ^ 32)
  | .vpllCtrlWrite k v => decide (k < 4) && decide (v < 2 ^ 32)
  | .engineEnable n v => decide (n < 17) && decide (v < 2 ^ 32)
  | .rasterWrite n r v => decide (n < 17) && decide (r < 4) && decide (v < 2 ^ 32)
  | .composeStart n => decide (n < 17)
  | .lineComplete n => decide (n < 17)
  | .spillRelax n => decide (n < 16)
  | .schedLoad n => decide (n < 17)
  | .schedCommit n => decide (n < 17)
  | .schedDrop n => decide (n < 17)
  | .schedCheckDone n => decide (n < 17)
  | .llEnd n => decide (n < 17)
  | .llLine n k => decide (n < 17) && decide (k < 2 ^ 13)
  | .llWreg n off v => decide (n < 17) && decide (off < 2 ^ 16) && decide (v < 2 ^ 32)
  | .llWblk n off vals => decide (n < 17) && decide (off < 2 ^ 16) && allBelow (2 ^ 32) vals
  | .llPal n p first cnt addr => decide (n < 17) && decide (p < 64) && decide (first < 256) && decide (cnt < 257) && decide (addr < 2 ^ 32)
  | .llScroll n t _ _ x y => decide (n < 17) && decide (t < 8) && decide (x < 2 ^ 16) && decide (y < 2 ^ 16)
  | .llAffine n t a b c d x0 y0 => decide (n < 17) && decide (t < 2) && decide (a < 2 ^ 32) && decide (b < 2 ^ 32) && decide (c < 2 ^ 32) && decide (d < 2 ^ 32) && decide (x0 < 2 ^ 32) && decide (y0 < 2 ^ 32)
  | .llOrder n j => decide (n < 17) && decide (j < 8)
  | .llSndStart n voice preset => decide (n < 17) && decide (voice < 512) && decide (preset < 2 ^ 16)
  | .llSndRelease n voice => decide (n < 17) && decide (voice < 512)
  | .llSndStop n voice => decide (n < 17) && decide (voice < 512)
  | .llSig n j => decide (n < 17) && decide (j < 4)
  | .llWaitx n x => decide (n < 17) && decide (x < 2 ^ 14)
  | .llNop n => decide (n < 17)
  | .llReadError n cause => decide (n < 17) && decide (cause < 3)
  | .fetchPoison n k e => decide (n < 17) && decide (k < 4320) && e.ok
  | .palData0Write n v => decide (n < 17) && decide (v < 2 ^ 32)
  | .palData0Read n => decide (n < 17)
  | .palData1Write n v => decide (n < 17) && decide (v < 2 ^ 32)
  | .palData1Read n => decide (n < 17)
  | .tcInvalidate n => decide (n < 17)
  | .ocInvalidate n => decide (n < 17)
  | .objPoolWrite ix w v => decide (ix < 16384) && decide (w < 8) && decide (v < 2 ^ 32)
  | .objLoadStart first countM1 => decide (first < 16384) && decide (countM1 < 16384)
  | .objLoadWrite => true
  | .objLoadError cause => decide (cause < 3)
  | .objDiscard => true
  | .objLineStart n => decide (n < 17)
  | .objLineDone n => decide (n < 17)
  | .objSourcePoison n e => decide (n < 17) && e.ok
  | .flipReq n b v => decide (n < 17) && decide (b < 2) && decide (v < 2 ^ 32)
  | .flipCancel n b => decide (n < 17) && decide (b < 2)
  | .flipStall n b => decide (n < 17) && decide (b < 2)
  | .lutData0Write p v => decide (p < 24) && decide (v < 2 ^ 32)
  | .lutData0Read p => decide (p < 24)
  | .lutData1Write p v => decide (p < 24) && decide (v < 2 ^ 32)
  | .lutData1Read p => decide (p < 24)
  | .pldTblWrite b ix w v => decide (b < 2) && decide (ix < 4096) && decide (w < 8) && decide (v < 2 ^ 32)
  | .pldCheck => true
  | .pldCheckDone => true
  | .pldRefreshAll => true
  | .polderFreeze ix => decide (ix < 4096)
  | .staticEnter ix => decide (ix < 4096)
  | .staticRefresh ix => decide (ix < 4096)
  | .wardEnable _ => true
  | .watchEnd => true
  | .wardenConfirm => true
  | .wardRelease => true
  | .wardFenceClear mask => decide (mask < 2 ^ 32)
  | .pvwEnable n _ => decide (n < 2)
  | .hpdPlug n => decide (n < 2)
  | .hpdLowTimeout n => decide (n < 2)
  | .irqHpd n _ => decide (n < 2)
  | .dpTrainDone n _ rate lanes => decide (n < 2) && decide (rate < 4) && decide (lanes < 3)
  | .dpTrainRetry n => decide (n < 2)
  | .auxGo n v => decide (n < 2) && decide (v < 2 ^ 32)
  | .auxDone n result bytes => decide (n < 2) && decide (result < 4) && allBelow 256 bytes
  | .blockLock l => decide (l < 3096)
  | .blockLockLoss l => decide (l < 3096)
  | .trainSend l => decide (l < 3096)
  | .train l _ _ version => decide (l < 3096) && decide (version < 256)
  | .idle l => decide (l < 3096)
  | .sor l => decide (l < 3096)
  | .ack l next => decide (l < 3096) && decide (next < 4096)
  | .nak l next => decide (l < 3096) && decide (next < 4096)
  | .flow l _ => decide (l < 3096)
  | .echoReq l tag => decide (l < 3096) && decide (tag < 65536)
  | .echoRsp l tag turn => decide (l < 3096) && decide (tag < 65536) && decide (turn < 2 ^ 32)
  | .lcbErr l => decide (l < 3096)
  | .badCell l _ => decide (l < 3096)
  | .cellPixel l seq mode addr w1 w2 w3 pay => decide (l < 3096) && decide (seq < 4096) && decide (mode < 4) && decide (addr < 64) && decide (w1 < 2 ^ 32) && decide (w2 < 2 ^ 32) && decide (w3 < 2 ^ 32) && decide (pay < 2 ^ 4096)
  | .cellTick l seq mode addr w1 w2 w3 pay => decide (l < 3096) && decide (seq < 4096) && decide (mode < 4) && decide (addr < 64) && decide (w1 < 2 ^ 32) && decide (w2 < 2 ^ 32) && decide (w3 < 2 ^ 32) && decide (pay < 2 ^ 4096)
  | .cellCfgWr l seq mode addr w1 w2 w3 pay => decide (l < 3096) && decide (seq < 4096) && decide (mode < 4) && decide (addr < 64) && decide (w1 < 2 ^ 32) && decide (w2 < 2 ^ 32) && decide (w3 < 2 ^ 32) && decide (pay < 2 ^ 4096)
  | .cellCfgRd l seq mode addr w1 w2 w3 pay => decide (l < 3096) && decide (seq < 4096) && decide (mode < 4) && decide (addr < 64) && decide (w1 < 2 ^ 32) && decide (w2 < 2 ^ 32) && decide (w3 < 2 ^ 32) && decide (pay < 2 ^ 4096)
  | .cellCfgRsp l seq mode addr w1 w2 w3 pay => decide (l < 3096) && decide (seq < 4096) && decide (mode < 4) && decide (addr < 64) && decide (w1 < 2 ^ 32) && decide (w2 < 2 ^ 32) && decide (w3 < 2 ^ 32) && decide (pay < 2 ^ 4096)
  | .cellDisc l seq mode addr w1 w2 w3 pay => decide (l < 3096) && decide (seq < 4096) && decide (mode < 4) && decide (addr < 64) && decide (w1 < 2 ^ 32) && decide (w2 < 2 ^ 32) && decide (w3 < 2 ^ 32) && decide (pay < 2 ^ 4096)
  | .cellDiscRsp l seq mode addr w1 w2 w3 pay => decide (l < 3096) && decide (seq < 4096) && decide (mode < 4) && decide (addr < 64) && decide (w1 < 2 ^ 32) && decide (w2 < 2 ^ 32) && decide (w3 < 2 ^ 32) && decide (pay < 2 ^ 4096)
  | .cellTelem l seq mode addr w1 w2 w3 pay => decide (l < 3096) && decide (seq < 4096) && decide (mode < 4) && decide (addr < 64) && decide (w1 < 2 ^ 32) && decide (w2 < 2 ^ 32) && decide (w3 < 2 ^ 32) && decide (pay < 2 ^ 4096)
  | .cellAuth l seq mode addr w1 w2 w3 pay => decide (l < 3096) && decide (seq < 4096) && decide (mode < 4) && decide (addr < 64) && decide (w1 < 2 ^ 32) && decide (w2 < 2 ^ 32) && decide (w3 < 2 ^ 32) && decide (pay < 2 ^ 4096)
  | .cellAuthRsp l seq mode addr w1 w2 w3 pay => decide (l < 3096) && decide (seq < 4096) && decide (mode < 4) && decide (addr < 64) && decide (w1 < 2 ^ 32) && decide (w2 < 2 ^ 32) && decide (w3 < 2 ^ 32) && decide (pay < 2 ^ 4096)
  | .cellNote l seq mode addr w1 w2 w3 pay => decide (l < 3096) && decide (seq < 4096) && decide (mode < 4) && decide (addr < 64) && decide (w1 < 2 ^ 32) && decide (w2 < 2 ^ 32) && decide (w3 < 2 ^ 32) && decide (pay < 2 ^ 4096)
  | .retryTimeout l => decide (l < 3096)
  | .nakRepeat l => decide (l < 3096)
  | .ackTimer l => decide (l < 3096)
  | .flowRepeat l => decide (l < 3096)
  | .flowTimeout l => decide (l < 3096)
  | .echoPeriod l => decide (l < 3096)
  | .cellSend l => decide (l < 3096)
  | .pixelHoldEnd p => decide (p < 24)
  | .retrain p => decide (p < 24)
  | .portEnable p _ => decide (p < 24)
  | .portStopDone p => decide (p < 24)
  | .plkPresWrite v => decide (v < 2 ^ 32)
  | .tilePresent k => decide (k < 1536)
  | .tileReady k => decide (k < 1536)
  | .telemSend k => decide (k < 1536)
  | .discTimeout p => decide (p < 24)
  | .readyTimeout p => decide (p < 24)
  | .patrol p => decide (p < 24)
  | .redisc p => decide (p < 24)
  | .challengeTimeout k => decide (k < 1536)
  | .verifyDone => true
  | .signDone => true
  | .rebalance a => decide (a < 24)
  | .telemStale k => decide (k < 1536)
  | .bltQEnable q v => decide (q < 4) && decide (v < 2 ^ 32)
  | .bltTailWrite q v => decide (q < 4) && decide (v < 2 ^ 32)
  | .bltNop q => decide (q < 4)
  | .bltDraw q => decide (q < 4)
  | .bltWaitFence q => decide (q < 4)
  | .fenceWaitDone q => decide (q < 4)
  | .bltWaitTick q => decide (q < 4)
  | .bltFence q => decide (q < 4)
  | .bltDone => true
  | .watermark => true
  | .bltExecError => true
  | .sramWriteback a => decide (a < 2 ^ 40)
  | .sramMergeFlush a => decide (a < 2 ^ 40)
  | .hbmRmwFlush a => decide (a < 2 ^ 40)
  | .scrubBlock => true
  | .scrubWindow => true
  | .memLogPop v => decide (v < 2 ^ 32)
  | .dmaEnable n v => decide (n < 64) && decide (v < 2 ^ 32)
  | .dmaDescFetch n => decide (n < 64)
  | .dmaTrigger n => decide (n < 64)
  | .dmaBurst => true
  | .dmaDescDone n _ => decide (n < 64)
  | .dmaPause n _ => decide (n < 64)
  | .dmaPauseDrained n => decide (n < 64)
  | .dmaAbort _ v => decide (v < 2 ^ 32)
  | .dmaError n => decide (n < 64)
  | .sampleBoundary late => allBelow (2 ^ 32) late
  | .voiceEnable v w => decide (v < 384) && decide (w < 2 ^ 32)
  | .voiceKill v => decide (v < 384)
  | .toneEnable c v => decide (c < 64) && decide (v < 2 ^ 32)
  | .toneKill c => decide (c < 64)
  | .presetRead => true
  | .audTrigStart voice preset => decide (voice < 512) && decide (preset < 65536)
  | .audTrigRelease voice => decide (voice < 512)
  | .audTrigStop voice => decide (voice < 512)
  | .sendWrite src k v => decide (src < 544) && decide (k < 4) && decide (v < 2 ^ 32)
  | .eqApply b mask => decide (b < 32) && decide (mask < 256)
  | .tdmOutEnable p v => decide (p < 8) && decide (v < 2 ^ 32)
  | .tdmInEnable ix v => decide (ix < 4) && decide (v < 2 ^ 32)
  | .tdmInFrame ix vals => decide (ix < 4) && allBelow (2 ^ 32) vals
  | .tdmInLock ix => decide (ix < 4)
  | .inUnlock ix => decide (ix < 4)
  | .add c => decide (c < 4)
  | .sub c => decide (c < 4)
  | .and c => decide (c < 4)
  | .or c => decide (c < 4)
  | .xor c => decide (c < 4)
  | .nor c => decide (c < 4)
  | .slt c => decide (c < 4)
  | .sltu c => decide (c < 4)
  | .sll c => decide (c < 4)
  | .srl c => decide (c < 4)
  | .sra c => decide (c < 4)
  | .slli c => decide (c < 4)
  | .srli c => decide (c < 4)
  | .srai c => decide (c < 4)
  | .min c => decide (c < 4)
  | .max c => decide (c < 4)
  | .minu c => decide (c < 4)
  | .maxu c => decide (c < 4)
  | .clz c => decide (c < 4)
  | .mul c => decide (c < 4)
  | .mulh c => decide (c < 4)
  | .mulhu c => decide (c < 4)
  | .div c => decide (c < 4)
  | .divu c => decide (c < 4)
  | .rem c => decide (c < 4)
  | .remu c => decide (c < 4)
  | .jr c => decide (c < 4)
  | .callr c => decide (c < 4)
  | .ret c => decide (c < 4)
  | .addi c => decide (c < 4)
  | .slti c => decide (c < 4)
  | .sltiu c => decide (c < 4)
  | .andi c => decide (c < 4)
  | .ori c => decide (c < 4)
  | .xori c => decide (c < 4)
  | .lui c => decide (c < 4)
  | .beq c => decide (c < 4)
  | .bne c => decide (c < 4)
  | .blt c => decide (c < 4)
  | .bge c => decide (c < 4)
  | .bltu c => decide (c < 4)
  | .bgeu c => decide (c < 4)
  | .ld c => decide (c < 4)
  | .ldu c => decide (c < 4)
  | .st c => decide (c < 4)
  | .lr c => decide (c < 4)
  | .sc c => decide (c < 4)
  | .tas c => decide (c < 4)
  | .jmp c => decide (c < 4)
  | .call c => decide (c < 4)
  | .beqz c => decide (c < 4)
  | .bnez c => decide (c < 4)
  | .bltz c => decide (c < 4)
  | .bgez c => decide (c < 4)
  | .mfs c => decide (c < 4)
  | .mts c => decide (c < 4)
  | .eret c => decide (c < 4)
  | .trap c => decide (c < 4)
  | .brk c => decide (c < 4)
  | .syncI c => decide (c < 4)
  | .drain c => decide (c < 4)
  | .stksave c => decide (c < 4)
  | .stkload c => decide (c < 4)
  | .wfi c => decide (c < 4)
  | .interruptEntry c => decide (c < 4)
  | .storeAck c => decide (c < 4)
  | .storeBus c => decide (c < 4)
  | .dbgHalt c => decide (c < 4)
  | .dbgResume c => decide (c < 4)
  | .dbgStep c => decide (c < 4)
  | .breakpoint c => decide (c < 4)
  | .coreReset c v => decide (c < 4) && decide (v < 2 ^ 32)
  | .irqClaim c => decide (c < 4)
  | .irqPeek c => decide (c < 4)
  | .irqEoi c => decide (c < 4)
  | .irqSwi v => decide (v < 2 ^ 32)
  | .irqClr n => decide (n < 513)
  | .wakeEvent => true
  | .slcCommit v => decide (v < 2 ^ 32)
  | .slcCheckDone => true
  | .slcSwev v => decide (v < 2 ^ 32)
  | .slcLock n v => decide (n < 64) && decide (v < 2 ^ 32)
  | .pmxWrite p v => decide (p < 96) && decide (v < 2 ^ 32)
  | .pinChange p d => decide (p < 96) && decide (d < 3)
  | .pinFilterExpire p => decide (p < 96)
  | .gpioFlagClear b v => decide (b < 6) && decide (v < 2 ^ 32)
  | .gpioTask p => decide (p < 96)
  | .bankSense b v33 => decide (b < 6) && decide (v33 < 3)
  | .gpioRelease v => decide (v < 2 ^ 32)
  | .clvEnable n v => decide (n < 16) && decide (v < 2 ^ 32)
  | .clvRestart n => decide (n < 16)
  | .clvCycle n => decide (n < 16)
  | .clvNop n => decide (n < 16)
  | .emit n => decide (n < 16)
  | .sample n => decide (n < 16)
  | .fetch n => decide (n < 16)
  | .deposit n => decide (n < 16)
  | .ldca n => decide (n < 16)
  | .ldcb n => decide (n < 16)
  | .decc n => decide (n < 16)
  | .clvTxdata n v => decide (n < 16) && decide (v < 2 ^ 32)
  | .clvRxdataRead n _ => decide (n < 16)
  | .clvTrigger n => decide (n < 16)
  | .clvProgWrite n ix _ v => decide (n < 16) && decide (ix < 32) && decide (v < 2 ^ 32)
  | .tmrEnable n v => decide (n < 16) && decide (v < 2 ^ 32)
  | .countClock n => decide (n < 16)
  | .periodEvent n => decide (n < 16)
  | .compareMatch n k => decide (n < 16) && decide (k < 4)
  | .captureRise n => decide (n < 16)
  | .captureFall n => decide (n < 16)
  | .tmrTaskClear n => decide (n < 16)
  | .tmrTaskEnable n => decide (n < 16)
  | .periodHiWrite n v => decide (n < 16) && decide (v < 2 ^ 32)
  | .countHiWrite n v => decide (n < 16) && decide (v < 2 ^ 32)
  | .cmpHiWrite n k v => decide (n < 16) && decide (k < 4) && decide (v < 2 ^ 32)
  | .countLoRead n => decide (n < 16)
  | .caprLoRead n => decide (n < 16)
  | .capfLoRead n => decide (n < 16)
  | .nonceReq k => decide (k < 8)
  | .open k => decide (k < 8)
  | .close k => decide (k < 8)
  | .ping k => decide (k < 8)
  | .attest k => decide (k < 8)
  | .otpProgram k => decide (k < 8)
  | .otpRevoke k => decide (k < 8)
  | .rollback k => decide (k < 8)
  | .provision k => decide (k < 8)
  | .advance req => decide (req < 256)
  | .otpBitDone _ => true
  | .trngFail => true
  | .trngRetest _ => true
  | .sessionTimeout ix => decide (ix < 4)
  | .sessClose ix => decide (ix < 4)
  | .nonceExpire => true
  | .porstN => true
  | .porstRelease size mode => decide (size < 513) && decide (mode < 3)
  | .hbmTrainDone height => decide (height < 16)
  | .sectionLoaded => true
  | .listWrite => true
  | .listWait => true
  | .listWaitTimeout => true
  | .listDelay => true
  | .listEnd => true
  | .sbyEnter v => decide (v < 2 ^ 32)
  | .sbyCutoff => true
  | .sbySelfRefresh => true
  | .sbyReached => true
  | .wakeHbm _ => true
  | .wakeRestore => true
  | .wakePorts => true
  | .wakeFirstTick => true
  | .errNPulseEnd => true
  | .quietExpire => true
  | .fltAck v => decide (v < 2 ^ 32)
  | .fltRecover v => decide (v < 2 ^ 32)
  | .fltAutoWrite v => decide (v < 2 ^ 32)
  | .fltLock v => decide (v < 2 ^ 32)
  | .fltLogPop v => decide (v < 2 ^ 32)
  | .tempMeasure t => decide (t < 65536)
  | .thermtrip => true
  | .pcieLinkChange _ speed width _ _ _ _ => decide (speed < 8) && decide (width < 16)
  | .pmChange _ _ _ _ => true
  | .bar0BadAccess _ => true
  | .bar2Access _ off n bytes => decide (off < 2 ^ 32) && decide (n < 4097) && allBelow 256 bytes
  | .mbDoorbell v => decide (v < 2 ^ 32)
  | .flashErase k => decide (k < 8)
  | .flashWrite k => decide (k < 8)
  | .flashRead k => decide (k < 8)
  | .deviceReset k => decide (k < 8)
  | .deviceResetEffect => true
  | .fwCommand k => decide (k < 8)
  | .fwDone v => decide (v < 2 ^ 32)
  | .cqEntryWrite => true
  | .cqHeadWrite q v => decide (q < 4) && decide (v < 2 ^ 32)
  | .cqModTimer q => decide (q < 4)
  | .msixUnmask v => decide (v < 64)
  | .outboundTimeout req => decide (req < 256)
  | .regWrite req off val => decide (req < 256) && decide (off < 67108864) && val.all (fun v => decide (v < 2 ^ 32))
  | .cellClockEdge => true
  | .tickOutEnd => true
  | .hpdLow n => decide (n < 2)
  | .railLoss => true
  | .illegal c => decide (c < 4)
  | .fetchException c => decide (c < 4)

end Sys2Proof
end

