-- ==== Sys2Proof/Tests/Slice0.lean ====
section
/-! SUPPORT. Tests: terms that WellFormed refuses, one per check; for every statement with hypotheses a witness that meets
them, clause by clause at boundary values; and single steps whose results the spec's rules give. -/

namespace Sys2Proof.Machine

-- One evaluation at a time: side by side they need more memory than the check of the package gives them.
set_option Elab.async false

theorem test_wf_ackTimer : (Instr.ackTimer 3096).wf = false := by decide

theorem test_wf_refuses_1 : (([
  .tickPeriodWrite false (2 ^ 32), .lineTick 17, .vpllLock 4, .vpllUnlock 4, .vpllMultWrite 4 0,
    .vpllMultWrite 0 (2 ^ 32), .vpllCtrlWrite 4 0, .vpllCtrlWrite 0 (2 ^ 32), .engineEnable 17 0,
    .engineEnable 0 (2 ^ 32), .rasterWrite 17 0 0, .rasterWrite 0 4 0, .rasterWrite 0 0 (2 ^ 32), .composeStart 17,
    .lineComplete 17, .spillRelax 16, .schedLoad 17, .schedCommit 17, .schedDrop 17, .schedCheckDone 17, .llEnd 17,
    .llLine 17 0, .llLine 0 (2 ^ 13), .llWreg 17 0 0, .llWreg 0 (2 ^ 16) 0, .llWreg 0 0 (2 ^ 32), .llWblk 17 0 [],
    .llWblk 0 (2 ^ 16) [], .llWblk 0 0 [(2 ^ 32)], .llPal 17 0 0 0 0, .llPal 0 64 0 0 0, .llPal 0 0 256 0 0,
    .llPal 0 0 0 257 0, .llPal 0 0 0 0 (2 ^ 32), .llScroll 17 0 false false 0 0, .llScroll 0 8 false false 0 0,
    .llScroll 0 0 false false (2 ^ 16) 0, .llScroll 0 0 false false 0 (2 ^ 16), .llAffine 17 0 0 0 0 0 0 0,
    .llAffine 0 2 0 0 0 0 0 0] : List Instr).all (fun i => !i.wf)) = true := by decide +kernel

theorem test_wf_refuses_2 : (([
  .llAffine 0 0 (2 ^ 32) 0 0 0 0 0, .llAffine 0 0 0 (2 ^ 32) 0 0 0 0, .llAffine 0 0 0 0 (2 ^ 32) 0 0 0,
    .llAffine 0 0 0 0 0 (2 ^ 32) 0 0, .llAffine 0 0 0 0 0 0 (2 ^ 32) 0, .llAffine 0 0 0 0 0 0 0 (2 ^ 32),
    .llOrder 17 0, .llOrder 0 8, .llSndStart 17 0 0, .llSndStart 0 512 0, .llSndStart 0 0 (2 ^ 16),
    .llSndRelease 17 0, .llSndRelease 0 512, .llSndStop 17 0, .llSndStop 0 512, .llSig 17 0, .llSig 0 4,
    .llWaitx 17 0, .llWaitx 0 (2 ^ 14), .llNop 17, .llReadError 17 0, .llReadError 0 3, .fetchPoison 17 0 ⟨0, 0⟩,
    .fetchPoison 0 4320 ⟨0, 0⟩, .fetchPoison 0 0 ⟨3, 0⟩, .fetchPoison 0 0 ⟨0, 2 ^ 40⟩, .palData0Write 17 0,
    .palData0Write 0 (2 ^ 32), .palData0Read 17, .palData1Write 17 0, .palData1Write 0 (2 ^ 32), .palData1Read 17,
    .tcInvalidate 17, .ocInvalidate 17, .objPoolWrite 16384 0 0, .objPoolWrite 0 8 0, .objPoolWrite 0 0 (2 ^ 32),
    .objLoadStart 16384 0, .objLoadStart 0 16384, .objLoadError 3] : List Instr).all (fun i => !i.wf)) = true := by decide +kernel

theorem test_wf_refuses_3 : (([
  .objLineStart 17, .objLineDone 17, .objSourcePoison 17 ⟨0, 0⟩, .objSourcePoison 0 ⟨3, 0⟩,
    .objSourcePoison 0 ⟨0, 2 ^ 40⟩, .flipReq 17 0 0, .flipReq 0 2 0, .flipReq 0 0 (2 ^ 32), .flipCancel 17 0,
    .flipCancel 0 2, .flipStall 17 0, .flipStall 0 2, .lutData0Write 24 0, .lutData0Write 0 (2 ^ 32),
    .lutData0Read 24, .lutData1Write 24 0, .lutData1Write 0 (2 ^ 32), .lutData1Read 24, .pldTblWrite 2 0 0 0,
    .pldTblWrite 0 4096 0 0, .pldTblWrite 0 0 8 0, .pldTblWrite 0 0 0 (2 ^ 32), .polderFreeze 4096,
    .staticEnter 4096, .staticRefresh 4096, .wardFenceClear (2 ^ 32), .pvwEnable 2 false, .hpdPlug 2,
    .hpdLowTimeout 2, .irqHpd 2 false, .dpTrainDone 2 false 0 0, .dpTrainDone 0 false 4 0, .dpTrainDone 0 false 0 3,
    .dpTrainRetry 2, .auxGo 2 0, .auxGo 0 (2 ^ 32), .auxDone 2 0 [], .auxDone 0 4 [], .auxDone 0 0 [256],
    .blockLock 3096] : List Instr).all (fun i => !i.wf)) = true := by decide +kernel

theorem test_wf_refuses_4 : (([
  .blockLockLoss 3096, .trainSend 3096, .train 3096 false false 0, .train 0 false false 256, .idle 3096, .sor 3096,
    .ack 3096 0, .ack 0 4096, .nak 3096 0, .nak 0 4096, .flow 3096 false, .echoReq 3096 0, .echoReq 0 65536,
    .echoRsp 3096 0 0, .echoRsp 0 65536 0, .echoRsp 0 0 (2 ^ 32), .lcbErr 3096, .badCell 3096 false,
    .cellPixel 3096 0 0 0 0 0 0 0, .cellPixel 0 4096 0 0 0 0 0 0, .cellPixel 0 0 4 0 0 0 0 0,
    .cellPixel 0 0 0 64 0 0 0 0, .cellPixel 0 0 0 0 (2 ^ 32) 0 0 0, .cellPixel 0 0 0 0 0 (2 ^ 32) 0 0,
    .cellPixel 0 0 0 0 0 0 (2 ^ 32) 0, .cellPixel 0 0 0 0 0 0 0 (2 ^ 4096), .cellTick 3096 0 0 0 0 0 0 0,
    .cellTick 0 4096 0 0 0 0 0 0, .cellTick 0 0 4 0 0 0 0 0, .cellTick 0 0 0 64 0 0 0 0,
    .cellTick 0 0 0 0 (2 ^ 32) 0 0 0, .cellTick 0 0 0 0 0 (2 ^ 32) 0 0, .cellTick 0 0 0 0 0 0 (2 ^ 32) 0,
    .cellTick 0 0 0 0 0 0 0 (2 ^ 4096), .cellCfgWr 3096 0 0 0 0 0 0 0, .cellCfgWr 0 4096 0 0 0 0 0 0,
    .cellCfgWr 0 0 4 0 0 0 0 0, .cellCfgWr 0 0 0 64 0 0 0 0, .cellCfgWr 0 0 0 0 (2 ^ 32) 0 0 0,
    .cellCfgWr 0 0 0 0 0 (2 ^ 32) 0 0] : List Instr).all (fun i => !i.wf)) = true := by decide +kernel

theorem test_wf_refuses_5 : (([
  .cellCfgWr 0 0 0 0 0 0 (2 ^ 32) 0, .cellCfgWr 0 0 0 0 0 0 0 (2 ^ 4096), .cellCfgRd 3096 0 0 0 0 0 0 0,
    .cellCfgRd 0 4096 0 0 0 0 0 0, .cellCfgRd 0 0 4 0 0 0 0 0, .cellCfgRd 0 0 0 64 0 0 0 0,
    .cellCfgRd 0 0 0 0 (2 ^ 32) 0 0 0, .cellCfgRd 0 0 0 0 0 (2 ^ 32) 0 0, .cellCfgRd 0 0 0 0 0 0 (2 ^ 32) 0,
    .cellCfgRd 0 0 0 0 0 0 0 (2 ^ 4096), .cellCfgRsp 3096 0 0 0 0 0 0 0, .cellCfgRsp 0 4096 0 0 0 0 0 0,
    .cellCfgRsp 0 0 4 0 0 0 0 0, .cellCfgRsp 0 0 0 64 0 0 0 0, .cellCfgRsp 0 0 0 0 (2 ^ 32) 0 0 0,
    .cellCfgRsp 0 0 0 0 0 (2 ^ 32) 0 0, .cellCfgRsp 0 0 0 0 0 0 (2 ^ 32) 0, .cellCfgRsp 0 0 0 0 0 0 0 (2 ^ 4096),
    .cellDisc 3096 0 0 0 0 0 0 0, .cellDisc 0 4096 0 0 0 0 0 0, .cellDisc 0 0 4 0 0 0 0 0,
    .cellDisc 0 0 0 64 0 0 0 0, .cellDisc 0 0 0 0 (2 ^ 32) 0 0 0, .cellDisc 0 0 0 0 0 (2 ^ 32) 0 0,
    .cellDisc 0 0 0 0 0 0 (2 ^ 32) 0, .cellDisc 0 0 0 0 0 0 0 (2 ^ 4096), .cellDiscRsp 3096 0 0 0 0 0 0 0,
    .cellDiscRsp 0 4096 0 0 0 0 0 0, .cellDiscRsp 0 0 4 0 0 0 0 0, .cellDiscRsp 0 0 0 64 0 0 0 0,
    .cellDiscRsp 0 0 0 0 (2 ^ 32) 0 0 0, .cellDiscRsp 0 0 0 0 0 (2 ^ 32) 0 0, .cellDiscRsp 0 0 0 0 0 0 (2 ^ 32) 0,
    .cellDiscRsp 0 0 0 0 0 0 0 (2 ^ 4096), .cellTelem 3096 0 0 0 0 0 0 0, .cellTelem 0 4096 0 0 0 0 0 0,
    .cellTelem 0 0 4 0 0 0 0 0, .cellTelem 0 0 0 64 0 0 0 0, .cellTelem 0 0 0 0 (2 ^ 32) 0 0 0,
    .cellTelem 0 0 0 0 0 (2 ^ 32) 0 0] : List Instr).all (fun i => !i.wf)) = true := by decide +kernel

theorem test_wf_refuses_6 : (([
  .cellTelem 0 0 0 0 0 0 (2 ^ 32) 0, .cellTelem 0 0 0 0 0 0 0 (2 ^ 4096), .cellAuth 3096 0 0 0 0 0 0 0,
    .cellAuth 0 4096 0 0 0 0 0 0, .cellAuth 0 0 4 0 0 0 0 0, .cellAuth 0 0 0 64 0 0 0 0,
    .cellAuth 0 0 0 0 (2 ^ 32) 0 0 0, .cellAuth 0 0 0 0 0 (2 ^ 32) 0 0, .cellAuth 0 0 0 0 0 0 (2 ^ 32) 0,
    .cellAuth 0 0 0 0 0 0 0 (2 ^ 4096), .cellAuthRsp 3096 0 0 0 0 0 0 0, .cellAuthRsp 0 4096 0 0 0 0 0 0,
    .cellAuthRsp 0 0 4 0 0 0 0 0, .cellAuthRsp 0 0 0 64 0 0 0 0, .cellAuthRsp 0 0 0 0 (2 ^ 32) 0 0 0,
    .cellAuthRsp 0 0 0 0 0 (2 ^ 32) 0 0, .cellAuthRsp 0 0 0 0 0 0 (2 ^ 32) 0, .cellAuthRsp 0 0 0 0 0 0 0 (2 ^ 4096),
    .cellNote 3096 0 0 0 0 0 0 0, .cellNote 0 4096 0 0 0 0 0 0, .cellNote 0 0 4 0 0 0 0 0,
    .cellNote 0 0 0 64 0 0 0 0, .cellNote 0 0 0 0 (2 ^ 32) 0 0 0, .cellNote 0 0 0 0 0 (2 ^ 32) 0 0,
    .cellNote 0 0 0 0 0 0 (2 ^ 32) 0, .cellNote 0 0 0 0 0 0 0 (2 ^ 4096), .retryTimeout 3096, .nakRepeat 3096,
    .ackTimer 3096, .flowRepeat 3096, .flowTimeout 3096, .echoPeriod 3096, .cellSend 3096, .pixelHoldEnd 24,
    .retrain 24, .portEnable 24 false, .portStopDone 24, .plkPresWrite (2 ^ 32), .tilePresent 1536, .tileReady 1536] : List Instr).all (fun i => !i.wf)) = true := by decide +kernel

theorem test_wf_refuses_7 : (([
  .telemSend 1536, .discTimeout 24, .readyTimeout 24, .patrol 24, .redisc 24, .challengeTimeout 1536, .rebalance 24,
    .telemStale 1536, .bltQEnable 4 0, .bltQEnable 0 (2 ^ 32), .bltTailWrite 4 0, .bltTailWrite 0 (2 ^ 32),
    .bltNop 4, .bltDraw 4, .bltWaitFence 4, .fenceWaitDone 4, .bltWaitTick 4, .bltFence 4, .sramWriteback (2 ^ 40),
    .sramMergeFlush (2 ^ 40), .hbmRmwFlush (2 ^ 40), .memLogPop (2 ^ 32), .dmaEnable 64 0, .dmaEnable 0 (2 ^ 32),
    .dmaDescFetch 64, .dmaTrigger 64, .dmaDescDone 64 false, .dmaPause 64 false, .dmaPauseDrained 64,
    .dmaAbort false (2 ^ 32), .dmaError 64, .sampleBoundary [(2 ^ 32)], .voiceEnable 384 0, .voiceEnable 0 (2 ^ 32),
    .voiceKill 384, .toneEnable 64 0, .toneEnable 0 (2 ^ 32), .toneKill 64, .audTrigStart 512 0, .audTrigStart 0 65536] : List Instr).all (fun i => !i.wf)) = true := by decide +kernel

theorem test_wf_refuses_8 : (([
  .audTrigRelease 512, .audTrigStop 512, .sendWrite 544 0 0, .sendWrite 0 4 0, .sendWrite 0 0 (2 ^ 32),
    .eqApply 32 0, .eqApply 0 256, .tdmOutEnable 8 0, .tdmOutEnable 0 (2 ^ 32), .tdmInEnable 4 0,
    .tdmInEnable 0 (2 ^ 32), .tdmInFrame 4 [], .tdmInFrame 0 [(2 ^ 32)], .tdmInLock 4, .inUnlock 4, .add 4, .sub 4,
    .and 4, .or 4, .xor 4, .nor 4, .slt 4, .sltu 4, .sll 4, .srl 4, .sra 4, .slli 4, .srli 4, .srai 4, .min 4,
    .max 4, .minu 4, .maxu 4, .clz 4, .mul 4, .mulh 4, .mulhu 4, .div 4, .divu 4, .rem 4] : List Instr).all (fun i => !i.wf)) = true := by decide +kernel

theorem test_wf_refuses_9 : (([
  .remu 4, .jr 4, .callr 4, .ret 4, .addi 4, .slti 4, .sltiu 4, .andi 4, .ori 4, .xori 4, .lui 4, .beq 4, .bne 4,
    .blt 4, .bge 4, .bltu 4, .bgeu 4, .ld 4, .ldu 4, .st 4, .lr 4, .sc 4, .tas 4, .jmp 4, .call 4, .beqz 4, .bnez 4,
    .bltz 4, .bgez 4, .mfs 4, .mts 4, .eret 4, .trap 4, .brk 4, .syncI 4, .drain 4, .stksave 4, .stkload 4, .wfi 4,
    .interruptEntry 4] : List Instr).all (fun i => !i.wf)) = true := by decide +kernel

theorem test_wf_refuses_10 : (([
  .storeAck 4, .storeBus 4, .dbgHalt 4, .dbgResume 4, .dbgStep 4, .breakpoint 4, .coreReset 4 0,
    .coreReset 0 (2 ^ 32), .irqClaim 4, .irqPeek 4, .irqEoi 4, .irqSwi (2 ^ 32), .irqClr 513, .slcCommit (2 ^ 32),
    .slcSwev (2 ^ 32), .slcLock 64 0, .slcLock 0 (2 ^ 32), .pmxWrite 96 0, .pmxWrite 0 (2 ^ 32), .pinChange 96 0,
    .pinChange 0 3, .pinFilterExpire 96, .gpioFlagClear 6 0, .gpioFlagClear 0 (2 ^ 32), .gpioTask 96, .bankSense 6 0,
    .bankSense 0 3, .gpioRelease (2 ^ 32), .clvEnable 16 0, .clvEnable 0 (2 ^ 32), .clvRestart 16, .clvCycle 16,
    .clvNop 16, .emit 16, .sample 16, .fetch 16, .deposit 16, .ldca 16, .ldcb 16, .decc 16] : List Instr).all (fun i => !i.wf)) = true := by decide +kernel

theorem test_wf_refuses_11 : (([
  .clvTxdata 16 0, .clvTxdata 0 (2 ^ 32), .clvRxdataRead 16 false, .clvTrigger 16, .clvProgWrite 16 0 false 0,
    .clvProgWrite 0 32 false 0, .clvProgWrite 0 0 false (2 ^ 32), .tmrEnable 16 0, .tmrEnable 0 (2 ^ 32),
    .countClock 16, .periodEvent 16, .compareMatch 16 0, .compareMatch 0 4, .captureRise 16, .captureFall 16,
    .tmrTaskClear 16, .tmrTaskEnable 16, .periodHiWrite 16 0, .periodHiWrite 0 (2 ^ 32), .countHiWrite 16 0,
    .countHiWrite 0 (2 ^ 32), .cmpHiWrite 16 0 0, .cmpHiWrite 0 4 0, .cmpHiWrite 0 0 (2 ^ 32), .countLoRead 16,
    .caprLoRead 16, .capfLoRead 16, .nonceReq 8, .open 8, .close 8, .ping 8, .attest 8, .otpProgram 8, .otpRevoke 8,
    .rollback 8, .provision 8, .advance 256, .sessionTimeout 4, .sessClose 4, .porstRelease 513 0] : List Instr).all (fun i => !i.wf)) = true := by decide +kernel

theorem test_wf_refuses_12 : (([
  .porstRelease 0 3, .hbmTrainDone 16, .sbyEnter (2 ^ 32), .fltAck (2 ^ 32), .fltRecover (2 ^ 32),
    .fltAutoWrite (2 ^ 32), .fltLock (2 ^ 32), .fltLogPop (2 ^ 32), .tempMeasure 65536,
    .pcieLinkChange false 8 0 false false false false, .pcieLinkChange false 0 16 false false false false,
    .bar2Access false (2 ^ 32) 0 [], .bar2Access false 0 4097 [], .bar2Access false 0 0 [256], .mbDoorbell (2 ^ 32),
    .flashErase 8, .flashWrite 8, .flashRead 8, .deviceReset 8, .fwCommand 8, .fwDone (2 ^ 32), .cqHeadWrite 4 0,
    .cqHeadWrite 0 (2 ^ 32), .cqModTimer 4, .msixUnmask 64, .outboundTimeout 256, .regWrite 256 0 none,
    .regWrite 0 67108864 none, .regWrite 0 0 (some (2 ^ 32)), .hpdLow 2, .illegal 4, .fetchException 4] : List Instr).all (fun i => !i.wf)) = true := by decide +kernel

/-! ### Witnesses -/

/-- The state after reset with some register fields written. -/
def stWith (l : List (Fld × Nat)) : State := l.foldl (fun s e => s.wr e.1 e.2) State.reset

/-- The next state of an outcome. -/
def nextOr (o : Host.Outcome State Fault Refusal) : State := match o with
  | .next t => t
  | _ => State.reset

/-- Of O1: a pin that changes and one that does not; a level to accept and none; each loop state that an edge finds, the
intervals that qualify and that do not, a wake, an edge inside WIN, at its limit, beyond it, and a second one for the
same tick; HOLD_N reached; SRC on and off. -/
theorem witness_GenlockInput :
    State.reset.tick.pinLevel = false ∧
    (let s : State := { State.reset with tick := { fsLevel := true } };
      s.tick.fsPipe = [] ∧ s.tick.fsLevel ≠ s.tick.fsAccepted ∧ s.on F.ENG_TICK_CTRL.SRC = false) ∧
    (fsAccept 0 false [] false 0).1 = none ∧ (fsAccept 8 false [(9, true), (17, false)] false 0).1 = some (9, true) ∧
    (fsAccept 8 false [(9, true), (16, false)] false 0).1 = none ∧
    (let f := fun (st : Nat) (le : Option (Nat × Option Nat)) (h : List Nat) (at_ : Option Nat) (tf : Option Nat) =>
        ({ stWith [(F.ENG_TICK_STATUS.GLK_STATE, st), (F.ENG_TICK_CTRL.SRC, 1), (F.ENG_GLK_WIN.WIN, 5)] with
          now := 10000000, tick := { fsLevel := true, fsChange := 10000000, lastEdge := le, hist := h, at_ := at_
                                     takenFor := tf } } : State);
      (f 3 none [] none none).on F.ENG_TICK_CTRL.SRC = true ∧ (f 3 none [] none none).rd F.ENG_TICK_STATUS.GLK_STATE = 3 ∧
      true ≠ (f 3 none [] none none).on F.ENG_TICK_CTRL.EDGE ∧
      (f 1 none [] none none).tick.lastEdge = none ∧
      (let s := f 1 (some (7500000, none)) [2500000, 2500000, 2500000] none none;
        s.tick.lastEdge = some (7500000, none) ∧ s.boot.sby ≠ 6 ∧ s.rd F.ENG_TICK_STATUS.GLK_STATE = 1 ∧
        qualifies (s.rd F.ENG_GLK_WIN.WIN) (((10000000 - 7500000) :: s.tick.hist).take 4) = true) ∧
      qualifies 5 (((10000000 - 7500001) :: [2500000, 2500000, 2500000]).take 4) = false ∧
      ({ State.reset with boot := { sby := 6 } } : State).boot.sby = 6 ∧
      (let s := f 2 (some (7500000, some 0)) [] (some 10000005) none;
        s.rd F.ENG_TICK_STATUS.GLK_STATE = 2 ∧ s.expected (10000000 + s.rd F.ENG_GLK_DELAY.DELAY) = some (1, 10000005) ∧
        s.tick.takenFor ≠ some 1 ∧ 10000005 ≤ 10000000 + s.rd F.ENG_GLK_DELAY.DELAY + s.rd F.ENG_GLK_WIN.WIN ∧
        10000000 + s.rd F.ENG_GLK_DELAY.DELAY ≤ 10000005 + s.rd F.ENG_GLK_WIN.WIN) ∧
      (let s := f 2 none [] (some 10000006) none;
        s.expected (10000000 + s.rd F.ENG_GLK_DELAY.DELAY) = some (1, 10000006) ∧
        10000000 + s.rd F.ENG_GLK_DELAY.DELAY + s.rd F.ENG_GLK_WIN.WIN < 10000006) ∧
      (let s := f 2 none [] (some 9999994) none; 9999994 + s.rd F.ENG_GLK_WIN.WIN < 10000000 + s.rd F.ENG_GLK_DELAY.DELAY) ∧
      (f 2 none [] (some 10000000) (some 1)).tick.takenFor = some 1) ∧
    (let s : State := { stWith [(F.ENG_TICK_STATUS.GLK_STATE, 2), (F.ENG_TICK_CTRL.HOLD_N, 0)] with tick := { framesNoEdge := 1 } };
      s.rd F.ENG_TICK_STATUS.GLK_STATE = 2 ∧ max 1 (s.rd F.ENG_TICK_CTRL.HOLD_N) ≤ s.tick.framesNoEdge) ∧
    (stWith [(F.ENG_TICK_CTRL.SRC, 1)]).on F.ENG_TICK_CTRL.SRC = true ∧ State.reset.on F.ENG_TICK_CTRL.SRC = false := by decide

/-- Of O2: PERIOD at both limits and one beyond each; NUM at DEN and one below; DEN = 0. -/
theorem witness_FrameLengthWrites :
    (2500000 ≤ bitsOf 2500000 0 25 ∧ bitsOf 2500000 0 25 ≤ 25025000) ∧ (2500000 ≤ bitsOf 25025000 0 25 ∧ bitsOf 25025000 0 25 ≤ 25025000) ∧
    bitsOf 2499999 0 25 < 2500000 ∧ 25025000 < bitsOf 25025001 0 25 ∧
    (bitsOf 0x10001 0 16 ≠ 0 ∧ bitsOf 0x10001 0 16 ≤ bitsOf 0x10001 16 16) ∧
    (0x10002 < 2 ^ 32 ∧ bitsOf 0x10002 16 16 < bitsOf 0x10002 0 16) ∧ (0x50000 < 2 ^ 32 ∧ bitsOf 0x50000 0 16 = 0) := by decide

/-- Of O3: no wake and a wake, ticks off and on, the loop in FREE and in ACQUIRE. -/
theorem witness_TicksStartAndStop :
    (State.reset.boot.sby ≠ 6 ∧ State.reset.boot.sby = 0 ∧ State.reset.on F.ENG_TICK_CTRL.RUN = false ∧
      State.reset.rd F.ENG_TICK_STATUS.GLK_STATE ≤ 1 ∧ State.reset.flt.recovered = false) ∧
    (let s : State := { State.reset with boot := { sby := 6 } }; s.boot.sby = 6 ∧ s.flt.recovered = false) ∧
    (let s := stWith [(F.ENG_TICK_CTRL.RUN, 1), (F.ENG_TICK_STATUS.GLK_STATE, 1)];
      s.boot.sby = 0 ∧ s.on F.ENG_TICK_CTRL.RUN = true ∧ s.rd F.ENG_TICK_STATUS.GLK_STATE ≤ 1 ∧ s.flt.recovered = false) := by decide

/-- Of O5: a locked VPLL, MULT at both limits and beyond, a VPLL in use. -/
theorem witness_VideoPlls :
    (let s := stWith [(F.ENG_VPLLk_CTRL.PWR 3, 1), (F.ENG_VPLLk_CTRL.LOCKED 3, 1)];
      s.Calm ∧ s.on (F.ENG_VPLLk_CTRL.LOCKED 3) = true ∧ s.on (F.ENG_VPLLk_CTRL.PWR 3) = true ∧
        s.on (F.ENG_VPLLk_CTRL.RANGE 3) = false ∧ s.vpllUsed 3 = false ∧
        48 * 2 ^ 24 ≠ s.rd (F.ENG_VPLLk_MULT.MULT 3) + 1 ∧ 96 * 2 ^ 24 ≠ s.rd (F.ENG_VPLLk_MULT.MULT 3)) ∧
    96 * 2 ^ 24 < 2 ^ 32 ∧ (stWith [(F.ENGn_CTRL.STATE 5, 2)]).vpllUsed 0 = true ∧
    (let v := 0x2FF;
      192 < bitsOf v 0 8 ∧ v.testBit 9 = true) := by
  unfold State.Calm
  decide

/-- How a read of a schedule failed, if it did. -/
def failsAt {α : Type} : Except (Option Nat) α → Option (Option Nat)
  | .error e => some e
  | .ok _ => none

/-- Of O6: an engine that EW does not shadow, enabled from OFF, fenced, disabled while it runs; raster words refused and
taken, also where EW shadows the engine; LEVEL to lower and not; schedules READY, CHECKING and none, with ticks on and
off; a check that waits for the HBM, one whose read fails, and one with its header read. -/
theorem witness_EnginesAndSchedules :
    (State.reset.shadows 15 = false ∧ (State.reset.rd F.ENG_WARD_FENCE.FENCE).testBit 15 = false ∧
      State.reset.rd (F.ENGn_CTRL.STATE 15) = 0 ∧ (1).testBit 0 = true ∧ rasterOk 2 0 = false ∧
      State.reset.rasterTakes 15 2 0x00080870 = true ∧ State.reset.rasterTakes 15 2 0 = false ∧
      16 ≤ bitsOf 0x00080870 0 13 ∧ bitsOf 0x00080870 0 13 ≤ 4320 ∧ 1 ≤ bitsOf 0x00080870 16 12 ∧
      creditsOf (State.reset.hTotalW 15) (State.reset.rd (F.ENG_VPLLk_MULT.MULT (State.reset.rd (F.ENGn_CTRL.VPLL 15))))
        (State.reset.rd (F.ENG_VPLLk_CTRL.POSTDIV (State.reset.rd (F.ENGn_CTRL.VPLL 15)))) ≤ 65535) ∧
    (let s := stWith [(F.ENG_WARD_FENCE.FENCE, 0x8000)];
      s.shadows 15 = false ∧ (s.rd F.ENG_WARD_FENCE.FENCE).testBit 15 = true ∧ s.rd (F.ENGn_CTRL.STATE 15) = 0 ∧
        s.on (F.ENGn_CTRL.ENABLE 15) = false) ∧
    (let s := (stWith [(F.ENGn_CTRL.STATE 0, 2), (F.ENGn_SPILL.THRESH 0, 9), (F.ENGn_SPILL.RELAX 0, 0)]).setEng 0 { relaxRun := 1 };
      s.shadows 0 = false ∧ s.rd (F.ENGn_CTRL.STATE 0) = 2 ∧ (0x1000).testBit 0 = false ∧
        bitsOf 0x1000 12 2 ≠ s.rd (F.ENGn_CTRL.VPLL 0) ∧ s.act (F.ENGn_SPILL.THRESH 0) ≠ 0 ∧
        max 1 (s.act (F.ENGn_SPILL.RELAX 0)) ≤ (s.engS 0).relaxRun ∧
        (s.engS 15).relaxRun < max 1 (s.act (F.ENGn_SPILL.RELAX 15))) ∧
    (let s := (stWith [(F.ENG_WARD_STATUS.WSTATE, 2), (F.ENG_WARD_STATUS.TARGET, 4)]);
      s.shadows 4 = true ∧ s.rasterTakes 4 2 0x00080870 = true) ∧
    (let s := (stWith [(F.ENGn_SCHED_STATUS.LD_STATE 7, 2), (F.ENG_TICK_CTRL.RUN, 1)]).setEng 7 { ready := some {}, checking := some 0x10000 };
      s.shadows 7 = false ∧ s.rd (F.ENGn_SCHED_STATUS.LD_STATE 7) = 2 ∧ s.on F.ENG_TICK_CTRL.RUN = true ∧
        (s.engS 7).checking = some 0x10000 ∧ (s.engS 7).commit = false ∧ (s.engS 7).drop = false ∧
        failsAt (s.schedRead 0x10000 0x80 5 0).1 = some none) ∧
    (let s := ({ stWith [] with gib := 0 } : State).setEng 7 { checking := some 0x10000 };
      (s.engS 7).checking = some 0x10000 ∧ failsAt (s.schedRead 0x10000 0x80 5 0).1 = some (some 0)) ∧
    (let s := (stWith [(F.ENG_TICK_CTRL.RUN, 1)]).setEng 7 { commit := true, drop := true };
      (s.engS 7).commit = true ∧ (s.engS 7).drop = true) ∧
    (let s := (stWith [(F.ENGn_SCHED_STATUS.LD_STATE 7, 2)]).setEng 7 { ready := some {} };
      s.rd (F.ENGn_SCHED_STATUS.LD_STATE 7) = 2 ∧ s.on F.ENG_TICK_CTRL.RUN = false ∧ (s.engS 7).checking = none) ∧
    State.reset.rd (F.ENGn_SCHED_STATUS.LD_STATE 7) ≠ 2 := by decide

/-- An engine with a line list of the given words in HBM, at word `pos`, in line `line`. -/
def llState (words : List Nat) (pos : Nat) (line : Option Nat) : State :=
  ({ stWith [(F.HBM_STATUS.TRAINED, 1)] with
    mem := ((List.range (8 * words.length)).zip (words.flatMap (leBytes 8))).filter (fun e => e.2 != 0#8) } : State).setEng 0
      { active := some { llSize := 8 * words.length, vActive := 2160 }, llPos := pos, llLine := line }

/-- Of O7: the end of the list; a word of each kind on a line, before the first line, a line ahead, one that is not and one
at V_ACTIVE, a payload that fits the buffer; reads that fail, for lines not yet output, output and none. -/
theorem witness_LineListsAndFailedReads :
    (let s := llState [] 0 none;
      (s.engS 0).active = some { llSize := 0, vActive := 2160 } ∧ (s.engS 0).llEnded = false ∧ 0 / 8 ≤ (s.engS 0).llPos) ∧
    (let s := llState [2 * 2 ^ 60 + 0x1100 * 2 ^ 32 + 5, 10 * 2 ^ 60 + 64 * 2 ^ 32, 1 * 2 ^ 60 + 6 * 2 ^ 32, 0,
        8 * 2 ^ 60 + 3 * 2 ^ 41, 15 * 2 ^ 60, 8 * 2 ^ 60 + 7 * 2 ^ 32 + 3, 1 * 2 ^ 60 + 2160 * 2 ^ 32] 0 (some 5);
      (s.llWordAt 0 0).1 = some (2 * 2 ^ 60 + 0x1100 * 2 ^ 32 + 5) ∧
        (s.llWordAt 0 3).1 = some 0 ∧ (s.llWordAt 0 2).1 = some (1 * 2 ^ 60 + 6 * 2 ^ 32) ∧
        ((s.llWordAt 0 0).2.llPayloadAt 0 (llPayload (2 * 2 ^ 60)) 1).1 = some [] ∧
        (s.engS 0).llHeld + 1 + llPayload (2 * 2 ^ 60) ≤ 2048 ∧ (s.engS 0).llLine = some 5 ∧
        bitsOf (2 * 2 ^ 60 + 0x1100 * 2 ^ 32 + 5) 60 4 = 2 ∧ bitsOf (1 * 2 ^ 60 + 6 * 2 ^ 32) 32 13 < s.vActive 0 ∧
        s.vActive 0 ≤ bitsOf (1 * 2 ^ 60 + 2160 * 2 ^ 32) 32 13 ∧ bitsOf (8 * 2 ^ 60 + 7 * 2 ^ 32 + 3) 41 3 = 0 ∧
        bitsOf (8 * 2 ^ 60 + 7 * 2 ^ 32 + 3) 32 9 < 384 ∧ bitsOf (10 * 2 ^ 60 + 64 * 2 ^ 32) 60 4 = 10 ∧
        11 ≤ bitsOf (15 * 2 ^ 60) 60 4 ∧ 3 ≤ bitsOf (8 * 2 ^ 60 + 3 * 2 ^ 41) 41 3 ∧ bitsOf 0 60 4 = 0) ∧
    ((llState [2 * 2 ^ 60] 0 none).engS 0).llLine = none ∧
    (let s := State.reset.setEng 16 { active := some { vActive := 2160 }, llLine := some 5, live := true, objWork := some 7, linesOut := 3 };
      (s.engS 16).active.isSome = true ∧ (s.engS 16).llEnded = false ∧ (s.engS 16).llLine = some 5 ∧
        (s.engS 16).live = true ∧ (s.engS 16).linesOut ≤ 3 ∧ 3 < s.vActive 16 ∧ 2 < (s.engS 16).linesOut ∧
        (s.engS 16).objWork = some 7 ∧ s.objHolds 16 = false) ∧
    (State.reset.engS 16).active = none ∧ (State.reset.engS 16).live = false ∧ (State.reset.engS 16).objWork = none := by decide

/-- Of O4: no scheduled tick, Standby entered; a tick with RUN = 0, one with RUN = 1. -/
theorem witness_FrameTickPasses :
    (State.reset.tick.at_ = none) ∧ 2 ≤ ({ State.reset with boot := { sby := 2 } } : State).boot.sby ∧
    (let s : State := { State.reset with tick := { at_ := some 7 }, boot := { sby := 1 } };
      s.tick.at_ = some 7 ∧ s.boot.sby ≤ 1 ∧ s.running = false) ∧
    (let s : State := { stWith [(F.ENG_TICK_CTRL.RUN, 1)] with tick := { at_ := some 7, frameCnt := 2 ^ 48 - 1 } };
      s.tick.at_ = some 7 ∧ s.boot.sby = 0 ∧ s.running = true) := by decide

/-- Of O8: both palettes at the last entry, the values at the top of their width, a LUT of the last port; an engine that EW
shadows, one that composes nothing. -/
theorem witness_PalettesAndOutputLuts :
    (let s := stWith [(F.ENGn_PAL_ADDR.PAL 16, 63), (F.ENGn_PAL_ADDR.ENTRY 16, 255), (F.ENGn_PAL_ADDR.AINC 16, 1)];
      s.shadows 16 = false ∧ s.on (F.ENGn_PAL_ADDR.AINC 16) = true ∧ (s.engS 16).comp = none ∧ (s.engS 16).cmp = none) ∧
    (stWith [(F.ENG_WARD_STATUS.WSTATE, 1), (F.ENG_WARD_STATUS.TARGET, 15)]).shadows 15 = true ∧
    2 ^ 32 - 1 < 2 ^ 32 ∧ 2 ^ 16 - 1 < 2 ^ 16 ∧ 23 < 24 := by decide

/-- Of O9: the pool with ticks on and off, the loader idle and busy, its last block read, one that waits for the HBM and one
that fails; a flip to request and one pending, a cancelled flip with and without a tick of its cycle, a stall that is due. -/
theorem witness_ObjectsAndFlips :
    (16383 < 16384 ∧ (stWith [(F.ENG_TICK_CTRL.RUN, 1)]).on F.ENG_TICK_CTRL.RUN = true ∧ State.reset.on F.ENG_TICK_CTRL.RUN = false) ∧
    State.reset.on F.OBJ_STATUS.LOAD_BUSY = false ∧ (stWith [(F.OBJ_STATUS.LOAD_BUSY, 1)]).on F.OBJ_STATUS.LOAD_BUSY = true ∧
    (let s : State := { stWith [(F.ENG_TICK_CTRL.RUN, 1), (F.HBM_STATUS.TRAINED, 1)] with obj := { src := 2 ^ 20, idx := 16383, left := 1 } };
      s.obj.left = 1 ∧
        ∃ bs s1, (s.reach (s.obj.at_ + 2)).readPiece 0x81 s.obj.src 32 = (.ok bs, s1) ∧ s1.arrived 6 (8 * s.obj.idx + 7) = false) ∧
    (let s : State := { State.reset with obj := { src := 0, left := 3 } };
      ∃ s1, (s.reach (s.obj.at_ + 2)).readPiece 0x81 s.obj.src 32 = (.wait, s1)) ∧
    (let s : State := { State.reset with obj := { src := 0x2000000000, left := 3 } };
      ∃ s1, (s.reach (s.obj.at_ + 2)).readPiece 0x81 s.obj.src 32 = (.decode, s1)) ∧
    (State.reset.shadows 16 = false ∧ State.reset.on (F.ENGn_Bb_FLIP_STATUS.PENDING 16 1) = false ∧
      State.reset.arrived 8 33 = false ∧ State.reset.arrived 10 33 = false ∧ (State.reset.arrive 8 33).arrived 8 33 = true) ∧
    (let s := stWith [(F.ENG_WARD_STATUS.WSTATE, 3), (F.ENG_WARD_STATUS.TARGET, 2)];
      s.shadows 2 = true ∧ s.on (F.ENGn_Bb_FLIP_STATUS.PENDING 2 1) = false) ∧
    (let s := (stWith [(F.ENGn_Bb_FLIP_STATUS.PENDING 0 0, 1)]).setEng 0 { stallDue := 1 };
      s.Calm ∧ s.shadows 0 = false ∧ s.on (F.ENGn_Bb_FLIP_STATUS.PENDING 0 0) = true ∧
        (s.engS 0).stallDue.testBit 0 = true ∧ (s.engS 0).stallDue.testBit 1 = false) := by
  refine ⟨by decide, by decide, by decide, ⟨by decide, ?_⟩, ?_, ?_, by decide, by decide, ?_⟩
  · exact ⟨_, _, rfl, by decide⟩
  · exact ⟨_, rfl⟩
  · exact ⟨_, rfl⟩
  · unfold State.Calm; decide

/-- Of O10: an engine whose first line may start: without a schedule, with one whose object line is not done, with a stale
line under way; an engine that is not live, one with no line left, one whose berm is not reached; a line complete, one
that is not, and none. -/
theorem witness_LinesComposed :
    (let s := (stWith [(F.ENGn_VTIME0.V_ACTIVE 0, 16), (F.ENGn_CTRL.BERM 0, 4)]).setEng 0 { rline := 1000, live := true };
      (s.engS 0).live = true ∧ (s.engS 0).comp = none ∧ (s.engS 0).cmp = none ∧ (s.engS 0).nextLine < s.vActive 0 ∧
        s.rasterOf 0 (s.engS 0).nextLine - s.berm 0 < (s.engS 0).rline ∧ (s.engS 0).active = none ∧
        s.llPast 0 (s.engS 0).nextLine = true) ∧
    (let s := (stWith [(F.ENGn_VTIME0.V_ACTIVE 16, 16)]).setEng 16 { rline := 1000, live := true, active := some { vActive := 16 } };
      (s.engS 16).live = true ∧ (s.engS 16).comp = none ∧ (s.engS 16).nextLine < s.vActive 16 ∧
        s.rasterOf 16 (s.engS 16).nextLine - s.berm 16 < (s.engS 16).rline ∧ (s.engS 16).active.isSome = true ∧
        (s.engS 16).objDone.contains (s.engS 16).nextLine = false) ∧
    ((State.reset.setEng 1 { cmp := some { t0 := 0 } }).engS 1).cmp.isSome = true ∧
    (State.reset.engS 3).live = false ∧ (State.reset.engS 3).comp = none ∧
    (let s := (stWith [(F.ENGn_VTIME0.V_ACTIVE 3, 16)]).setEng 3 { nextLine := 16, live := true }; s.vActive 3 ≤ (s.engS 3).nextLine) ∧
    (let s := stWith [(F.ENGn_VTIME0.V_ACTIVE 3, 16), (F.ENGn_VTIME1.V_SYNC 3, 9)];
      (s.engS 3).rline ≤ s.rasterOf 3 (s.engS 3).nextLine - s.berm 3) ∧
    (let s := (stWith [(F.ENGn_HTIME0.H_ACTIVE 3, 16)]).setEng 3 { comp := some { k := 4 }, cmp := some { t0 := 5, x := 16 } };
      let u := (s.compRun 3).lineGo 3 4 (s.hActive 3);
      (s.engS 3).comp = some { k := 4 } ∧ (u.engS 3).cmp.isSome = true ∧ u.hActive 3 = 16 ∧
        ((u.engS 3).cmp.map (fun c => c.x)) = some 16) ∧
    (let s := (stWith [(F.ENGn_HTIME0.H_ACTIVE 3, 16)]).setEng 3 { comp := some { k := 4 }, active := some {} };
      (((s.compRun 3).lineGo 3 4 (s.hActive 3)).engS 3).cmp = none) := by decide

/-- Of O11: a line that may begin, the last line before the limit, a line too far ahead, one whose commands are not read; a
line in work without and with a schedule, and none. -/
theorem witness_ObjectUnitLines :
    (let s := (stWith [(F.ENGn_VTIME0.V_ACTIVE 16, 16)]).setEng 16 { live := true, active := some { vActive := 16 }, objNext := 15, nextLine := 14 };
      (s.engS 16).active.isSome = true ∧ (s.engS 16).live = true ∧ (s.engS 16).objWork = none ∧
        (s.engS 16).objNext < s.vActive 16 ∧ (s.engS 16).objNext ≤ (s.engS 16).nextLine + 1 ∧
        s.llPast 16 (s.engS 16).objNext = true) ∧
    (let s := State.reset.setEng 16 { live := true, active := some { vActive := 16, llSize := 8 }, objNext := 2 };
      (s.engS 16).nextLine + 1 < (s.engS 16).objNext ∧ s.llPast 16 (s.engS 16).objNext = false) ∧
    (State.reset.engS 0).active = none ∧ (State.reset.engS 0).live = false ∧ (State.reset.engS 0).objWork = none ∧
    (let s := State.reset.setEng 2 { objWork := some 5, objT := 9 };
      (s.engS 2).objWork = some 5 ∧ (s.engS 2).active = none) ∧
    (let s := State.reset.setEng 2 { objWork := some 5, objT := 9, active := some {} };
      (s.engS 2).objWork = some 5 ∧ (s.engS 2).active = some {} ∧
        (s.bltTo.objDraw 2 5 (s.bltTo.hActive 2) (s.engS 2).objOrg (s.engS 2).objShed (({} : Sched).bandRefs 5) [] [] 0).isSome = true) := by
  decide

/-- Of O12: a raster line past the last, one outside the active lines, one after them; an idle engine and one that is not;
a good, a poisoned and a missing line to output, and EW in WATCH. -/
theorem witness_LineTickOutput :
    (let s := State.reset.setEng 16 { rline := 100000 }; s.vTotal 16 < (s.engS 16).rline) ∧
    (let s := (stWith [(F.ENGn_VTIME0.V_ACTIVE 16, 16), (F.ENGn_VTIME1.V_SYNC 16, 9)]).setEng 16 {};
      (s.engS 16).rline ≤ s.vTotal 16 ∧ (s.engS 16).outPrev = none ∧ (s.engS 16).rline < s.rasterOf 16 0) ∧
    (let s0 := stWith [(F.ENGn_VTIME0.V_ACTIVE 15, 16), (F.ENGn_VTIME0.V_FP 15, 4)];
     let s := s0.setEng 15 { rline := s0.rasterOf 15 0 + 16 };
      s.rasterOf 15 0 ≤ (s.engS 15).rline ∧ s.vActive 15 ≤ (s.engS 15).rline - s.rasterOf 15 0 ∧ (s.engS 15).rline ≤ s.vTotal 15) ∧
    (let s := stWith [(F.ENG_WARD_STATUS.WSTATE, 3), (F.ENG_WARD_STATUS.TARGET, 15)];
      (s.engS 15).live = false ∧ s.idle 15 = false ∧ State.reset.idle 15 = true) ∧
    (let s0 := stWith [(F.ENGn_VTIME0.V_ACTIVE 15, 16)];
     let s := s0.setEng 15 { rline := s0.rasterOf 15 0 + 15, live := true, fifo := [{ k := 15, pix := [1] }] };
     let u := ((s.reach ((s.engS 15).tStart + s.lineTime 15 (s.engS 15).rline)).pvwFlush 15).modEng 15 (fun e => { e with rline := (s.engS 15).rline + 1 });
      (s.engS 15).rline ≤ s.vTotal 15 ∧ (s.engS 15).live = true ∧ u.rasterOf 15 0 ≤ (s.engS 15).rline ∧
        (s.engS 15).rline - u.rasterOf 15 0 = 15 ∧ 15 < u.vActive 15 ∧
        (u.engS 15).fifo.find? (fun r => r.k == 15) = some { k := 15, pix := [1] } ∧ (u.engS 15).poison.contains 15 = false ∧
        u.served 15 = false ∧ u.flt.outFrozen = false ∧ (u.engS 15).fifo.find? (fun r => r.k == 14) = none) ∧
    ((State.reset.setEng 0 { poison := [0] }).engS 0).poison.contains 0 = true ∧
    (stWith [(F.ENG_WARD_STATUS.WSTATE, 2)]).wstate = 2 ∧ State.reset.wstate ≠ 2 := by decide

/-- Of O13: the inactive and the active bank, both ends of the table, a check under way, a polder to freeze, one that
enters STATIC at its bound, one due for a refresh, a frozen one. -/
theorem witness_PolderCommands :
    (1 < 2 ∧ 4095 < 4096 ∧ 7 < 8 ∧ 2 ^ 32 - 1 < 2 ^ 32 ∧ 1 ≠ State.reset.pld.bank ∧ 0 = State.reset.pld.bank) ∧
    State.reset.rd F.PLD_STATUS.CHK_STATE ≠ 1 ∧
    (let s := stWith [(F.PLD_STATUS.CHK_STATE, 1)];
      s.rd F.PLD_STATUS.CHK_STATE = 1 ∧ s.pldVerdict (1 - s.pld.bank) = none ∧
        (s.setReg (R.PLD_TBLb (32768 + 8 * 2)) 0xC0000000).pldVerdict (1 - s.pld.bank) = some (1, 2)) ∧
    (let s := ((stWith [(F.PLD_STAT.SAME_RUN 4095, 1)]).setReg (R.PLD_TBLb (8 * 4095)) 0x80000000).setReg (R.PLD_TBLb (8 * 4095 + 5)) 0x101;
      s.Calm ∧ (s.polder s.pld.bank 4095).en = true ∧ (s.polder s.pld.bank 4095).motion = true ∧
        (s.polder s.pld.bank 4095).freezeN ≠ 0 ∧ (s.polder s.pld.bank 4095).freezeN ≤ s.rd (F.PLD_STAT.SAME_RUN 4095) ∧
        s.on (F.PLD_STAT.FROZEN 4095) = false ∧ s.rd F.FLT_STATUS.STATE ≠ 2) ∧
    ((State.reset.polder State.reset.pld.bank 0).en = false ∧ State.reset.on (F.PLD_STAT.STATIC 0) = false) ∧
    (let s := ((stWith [(F.PLD_STAT.SAME_RUN 0, 1), (F.PLD_STATIC.ENTER_N, 0)]).setReg (R.PLD_TBLb 0) 0x80000000).setReg (R.PLD_TBLb 5) 0x2;
      (s.polder s.pld.bank 0).en = true ∧ (s.polder s.pld.bank 0).staticOk = true ∧
        max 1 (s.rd F.PLD_STATIC.ENTER_N) ≤ s.rd (F.PLD_STAT.SAME_RUN 0) ∧ s.on (F.PLD_STAT.STATIC 0) = false) ∧
    (let s := (stWith [(F.PLD_STAT.STATIC 0, 1)]).modPld 0 (fun p => { p with sending := false, unsent := 255 });
      s.on (F.PLD_STAT.STATIC 0) = true ∧ (s.pldS 0).sending = false ∧
        (if (s.polder s.pld.bank 0).refreshN = 0 then 255 else (s.polder s.pld.bank 0).refreshN) ≤ (s.pldS 0).unsent) ∧
    (stWith [(F.PLD_STAT.FROZEN 0, 1)]).on (F.PLD_STAT.FROZEN 0) = true := by
  unfold State.Calm
  decide

/-- Of O14: WATCH with its frames done and with a TARGET that is not RUNNING, with and without a next engine; a run to
confirm at its bound; RELEASE in SERVE after two frames, after one, and outside SERVE. -/
theorem witness_WardenCommands :
    (let s := stWith [(F.ENG_WARD_STATUS.WSTATE, 2), (F.ENG_WARD_STATUS.FRAMES, 1), (F.ENG_WARD_CTRL.WATCH_N, 0), (F.ENGn_CTRL.STATE 0, 2), (F.ENG_WARD_MASK.MASK, 0)];
      s.rd F.ENG_WARD_STATUS.WSTATE = 2 ∧ max 1 (s.rd F.ENG_WARD_CTRL.WATCH_N) ≤ s.rd F.ENG_WARD_STATUS.FRAMES ∧
        s.nextTarget = none) ∧
    (let s := (stWith [(F.ENG_WARD_STATUS.WSTATE, 2), (F.ENGn_CTRL.STATE 3, 2), (F.ENG_WARD_MASK.MASK, 8)]).setEng 3
        { active := some {} };
      s.rd F.ENG_WARD_STATUS.WSTATE = 2 ∧ s.rd (F.ENGn_CTRL.STATE (s.rd F.ENG_WARD_STATUS.TARGET)) ≠ 2 ∧ s.nextTarget = some 3) ∧
    (let s : State := { stWith [(F.ENG_WARD_STATUS.WSTATE, 2), (F.ENG_WARD_CTRL.CONFIRM_N, 0)] with ward := { frameMis := true, run := 1 } };
      s.rd F.ENG_WARD_STATUS.WSTATE = 2 ∧ s.ward.frameMis = true ∧ s.ward.confirmed = false ∧
        max 1 (s.rd F.ENG_WARD_CTRL.CONFIRM_N) ≤ s.ward.run) ∧
    (let s : State := { stWith [(F.ENG_WARD_STATUS.WSTATE, 3)] with ward := { targetFrames := 2 } };
      s.rd F.ENG_WARD_STATUS.WSTATE = 3 ∧ 2 ≤ s.ward.targetFrames) ∧
    (State.reset.rd F.ENG_WARD_STATUS.WSTATE ≠ 3) ∧
    (let s : State := { stWith [(F.ENG_WARD_STATUS.WSTATE, 3)] with ward := { targetFrames := 1 } };
      s.rd F.ENG_WARD_STATUS.WSTATE = 3 ∧ s.ward.targetFrames < 2) := by decide

/-- Of O15: a preview OFF and RUNNING, HPD high, low for its time, a link to train, a retry due, AUX idle and busy. -/
theorem witness_PreviewCommands :
    State.reset.rd (F.PVWn_CTRL.STATE 1) = 0 ∧ (stWith [(F.PVWn_CTRL.STATE 1, 2)]).rd (F.PVWn_CTRL.STATE 1) = 2 ∧
    (stWith [(F.PVWn_STATUS.HPD 1, 1)]).on (F.PVWn_STATUS.HPD 1) = true ∧
    (let s := (stWith [(F.PVWn_CTRL.STATE 1, 2)]).modPvw 1 (fun p => { p with hpdLow := some 4 });
      (s.pvwS 1).hpdLow = some 4 ∧ s.rd (F.PVWn_CTRL.STATE 1) = 2) ∧
    (let s := stWith [(F.PVWn_STATUS.HPD 0, 1), (F.PVWn_CTRL.STATE 0, 1)];
      s.on (F.PVWn_STATUS.HPD 0) = true ∧ s.on (F.PVWn_STATUS.LINKUP 0) = false ∧ s.rd (F.PVWn_CTRL.STATE 0) = 1) ∧
    ((State.reset.modPvw 0 (fun p => { p with retryAt := some 4 })).pvwS 0).retryAt = some 4 ∧
    ((State.reset.pvwS 1).retryAt = none ∧ (State.reset.pvwS 1).hpdLow = none ∧ State.reset.on (F.PVWn_STATUS.HPD 1) = false) ∧
    (0x80000000 : Nat).testBit 31 = true ∧ (0x7FFFFFFF : Nat).testBit 31 = false ∧ State.reset.on (F.PVWn_AUX_STATUS.BUSY 1) = false ∧
    3 < 4 ∧ (stWith [(F.PVWn_AUX_STATUS.BUSY 1, 1)]).on (F.PVWn_AUX_STATUS.BUSY 1) = true := by decide

/-- Of O16: a Skokor port and a tile side in each lane state; every timer running on an UP lane; a held cell with resends
below RETRY_MAX and with all of them done; a port whose PERIOD is 0. -/
theorem witness_LaneStatesAndTimers :
    ((stWith [(F.PLKn_LSTAT.LSTATE 23, 1)]).laneSt 23 = 1 ∧ (stWith [(F.PLKn_LSTAT.LSTATE 23, 2)]).laneSt 23 = 2 ∧
      (stWith [(F.PLKn_LSTAT.LSTATE 23, 3)]).laneSt 23 = 3 ∧ (State.reset.modLane 3095 (fun x => { x with st := 1 })).laneSt 3095 = 1 ∧
      (State.reset.modLane 3095 (fun x => { x with st := 2 })).laneSt 3095 = 2 ∧ 3095 < 3096) ∧
    (let s := State.reset.modLane 3095 (fun x =>
        { x with st := 3, nakAt := some 1, ackDue := some 2, stopSent := some 3, stopAt := some 4, inRow := 0,
                 retry := [{ seq := 4095, q := { cell := {} }, tSent := 5 }] });
      (s.laneS 3095).nakAt = some 1 ∧ (s.laneS 3095).ackDue = some 2 ∧ (s.laneS 3095).stopSent = some 3 ∧
        (s.laneS 3095).stopAt = some 4 ∧ s.laneSt 3095 = 3 ∧ (if 3095 < 24 then s.rd (F.PLKn_ECHO.PERIOD 3095) else 1000) ≠ 0 ∧
        (∃ h rest, (s.laneS 3095).retry = h :: rest) ∧ (s.laneS 3095).inRow < s.retryMax 3095 ∧
        s.retryMax 3095 ≤ ((s.modLane 3095 (fun x => { x with inRow := 8 })).laneS 3095).inRow) ∧
    (let s := (stWith [(F.PLKn_LSTAT.LSTATE 0, 3), (F.PLKn_ECHO.PERIOD 0, 1), (F.PLKn_RETRY.MAX 0, 1)]).modLane 0 (fun x =>
        { x with retry := [{ seq := 4095, q := { cell := {} }, tSent := 5 }] });
      s.laneSt 0 = 3 ∧ (if 0 < 24 then s.rd (F.PLKn_ECHO.PERIOD 0) else 1000) ≠ 0 ∧
        (∃ h rest, (s.laneS 0).retry = h :: rest) ∧ (s.laneS 0).inRow < s.retryMax 0 ∧
        s.retryMax 0 ≤ ((s.modLane 0 (fun x => { x with inRow := 1 })).laneS 0).inRow) := by
  refine ⟨by decide, ⟨by decide, by decide, by decide, by decide, by decide, by decide, ⟨_, _, rfl⟩, by decide⟩,
    by decide, by decide, ⟨_, _, rfl⟩, by decide⟩

/-- Of O17: an end in UP with a held cell that NAK names, with resends left and with none; a NAK of a cell not held and one
within RETRY_TO of the last; the outstanding ECHO_REQ, another, and one of a port whose PERIOD is 0; a cell run. -/
theorem witness_ControlBlocksReceived :
    (let s := (stWith [(F.PLKn_LSTAT.LSTATE 23, 3), (F.PLKn_ECHO.PERIOD 23, 1), (F.PLKn_RETRY.MAX 23, 1)]).modLane 23 (fun x =>
        { x with inRun := true, echo := some (65535, 9), retry := [{ seq := 4095, q := { cell := {} }, tSent := 5 }] });
      23 < 3096 ∧ s.laneSt 23 = 3 ∧ (s.laneS 23).retry.any (fun h => h.seq == 4095) = true ∧ (s.laneS 23).nakFrom = none ∧
        (s.laneS 23).retry.any (fun h => h.seq == 4094) = false ∧
        (s.laneS 23).inRow < s.retryMax 23 ∧ (s.laneS 23).echo = some (65535, 9) ∧
        s.rd (F.PLKn_ECHO.PERIOD 23) ≠ 0 ∧ (s.laneS 23).inRun = true ∧
        s.retryMax 23 ≤ ((s.modLane 23 (fun x => { x with inRow := 1 })).laneS 23).inRow ∧
        ((s.laneS 23).release 4095).retry = (s.laneS 23).retry) ∧
    (let s := ({ stWith [(F.PLKn_LSTAT.LSTATE 0, 3), (F.PLKn_RETRY.TO 0, 30), (F.PLKn_ECHO.PERIOD 0, 0)] with now := 10 } : State).modLane 0 (fun x =>
        { x with nakFrom := some (4095, 9), echo := some (1, 2) });
      s.laneSt 0 = 3 ∧ (s.laneS 0).nakFrom = some (4095, 9) ∧ s.now < 9 + s.retryTo 0 ∧ s.rd (F.PLKn_ECHO.PERIOD 0) = 0) := by decide

/-- Of O18: an end in UP and in a run; the expected number at its wrap, one and 2,047 behind, and one further behind; a
transmitter with a control block, a cell to resend, a cell to send, nothing to send, and a port whose lane ends in IDLE. -/
theorem witness_CellsInSequence :
    (let s := State.reset.modLane 24 (fun x => { x with st := 3, inRun := true, e := 4095 });
      24 < 3096 ∧ s.laneSt 24 = 3 ∧ (s.laneS 24).inRun = true ∧ (s.laneS 24).e < 4096 ∧ (s.laneS 24).nakAt = none ∧
        (4095 < 4096 ∧ 4095 = (s.laneS 24).e) ∧
        (1 ≤ ((s.laneS 24).e + 4096 - 4094) % 4096 ∧ ((s.laneS 24).e + 4096 - 4094) % 4096 ≤ 2047) ∧
        (1 ≤ ((s.laneS 24).e + 4096 - 2048) % 4096 ∧ ((s.laneS 24).e + 4096 - 2048) % 4096 ≤ 2047) ∧
        2047 < ((s.laneS 24).e + 4096 - 2047) % 4096) ∧
    (let s := State.reset.modLane 24 (fun x => { x with st := 3, lcbs := [(0xA2, 5, 0)] });
      s.laneSt 24 = 3 ∧ (s.laneS 24).resend = [] ∧ (s.laneS 24).lcbs = (0xA2, 5, 0) :: [] ∧ (0xA2 : Nat) ≠ 0xA6) ∧
    (let s := State.reset.modLane 24 (fun x => { x with st := 3, resend := [7], retry := [{ seq := 7, q := { cell := { typ := 4 } }, tSent := 5 }] });
      s.laneSt 24 = 3 ∧ (s.laneS 24).stopAt = none ∧ (s.laneS 24).resend = 7 :: [] ∧
        (s.laneS 24).retry.find? (fun x => x.seq == 7) = some { seq := 7, q := { cell := { typ := 4 } }, tSent := 5 }) ∧
    (let s := State.reset.modLane 24 (fun x => { x with st := 3, queue := [{ cell := { typ := 4 } }], next := 4095 });
      s.laneSt 24 = 3 ∧ (s.laneS 24).resend = [] ∧ (s.laneS 24).queue = [{ cell := { typ := 4 } }] ∧ (s.laneS 24).lcbs = [] ∧
        (s.laneS 24).stopAt = none ∧ (s.laneS 24).retry = []) ∧
    (let s := (stWith [(F.PLKn_LSTAT.LSTATE 23, 3)]).modPort 23 (fun p => { p with idleEnd := some 8 });
      s.laneSt 23 = 3 ∧ (s.portS 23).idleEnd.isSome = true ∧ (s.laneS 23).queue = [] ∧ (s.laneS 23).lcbs = []) := by decide

/-- Of O19: the last tile's second side in UP and in a run with nothing queued, without an address, with one and nothing
presented, and with one whose frame is later and not later than a TICK's; the words each clause asks for. -/
theorem witness_CellsAtTile :
    (let s := State.reset.modLane (tileLane 1535 1) (fun x => { x with st := 3, inRun := true });
      1535 < 1536 ∧ 1 < 2 ∧ s.laneSt (tileLane 1535 1) = 3 ∧ (s.laneS (tileLane 1535 1)).inRun = true ∧
        (s.laneS (tileLane 1535 1)).queue = [] ∧ (s.tileS 1535).p = none ∧ (s.tileS 1535).r = none ∧
        (s.tileS 1535).valid = false ∧ (s.tileS 1535).acc = none ∧
        ((s.modTile 1535 (fun x => { x with valid := true, p := some 65535 })).tileS 1535).valid = true) ∧
    later (bitsOf 0 16 16) 65535 = true ∧ later (bitsOf 0xFFFF0000 16 16) 65535 = false ∧
    (bitsOf 4 0 16 = 4 ∧ bitsOf 4 16 7 = 0) ∧ bitsOf 0x10000 16 4 = 1 := by decide

/-- Of O20: the last port in UP and in a run, outside a ring; a LATE note, a challenge under way whose TAG an answer has and
has not, a cascade under way. -/
theorem witness_CellsAtSkokor :
    (let s := (((stWith [(F.PLKn_LSTAT.LSTATE 23, 3)]).modLane 23 (fun x => { x with inRun := true })).modCh (64 * 23 + 63)
        (fun c => { c with step := 1, atag := 65535 })).modPort 23 (fun x => { x with step := 1, hop := 64, dtag := 7 });
      23 < 24 ∧ 63 < 64 ∧ s.laneSt 23 = 3 ∧ (s.laneS 23).inRun = true ∧ s.rd (F.PLKn_RING.MODE 23) = 0 ∧
        bitsOf 5 0 8 = 5 ∧ (bitsOf 0x1FFFF 16 4 = 1 ∧ (s.chT (64 * 23 + 63)).step = 1 ∧
          bitsOf 0x1FFFF 0 16 = (s.chT (64 * 23 + 63)).atag ∧ bitsOf 0x1FFFE 0 16 ≠ (s.chT (64 * 23 + 63)).atag) ∧
        ((s.portS 23).step = 1 ∧ (s.portS 23).hop = 63 + 1 ∧ (s.portS 23).farTest = false ∧ 7 % 65536 = (s.portS 23).dtag ∧
          s.rd (F.PLK_TILE0.TSTATE (64 * 23 + 63)) ≠ 3)) ∧
    beVal (sha384 (beBytes 97 (payField 1 0 97))) ≠ (State.reset.chT 0).keyhash :=
  ⟨by decide, by decide +kernel⟩

/-- Of O21: a port OFF, STARTING, RUNNING, STOPPING with its tick, and OFF with its lane in IDLE; a lane in UP and one that
is not; offsets at both sides of the limit. -/
theorem witness_PortCommands :
    (State.reset.rd (F.PLKn_CTRL.STATE 23) = 0 ∧ State.reset.laneSt 23 ≠ 3 ∧ (State.reset.portS 23).idleEnd = none ∧
      (State.reset.portS 23).stopTick = none) ∧
    (stWith [(F.PLKn_CTRL.STATE 23, 1)]).rd (F.PLKn_CTRL.STATE 23) = 1 ∧
    (stWith [(F.PLKn_CTRL.STATE 23, 2)]).rd (F.PLKn_CTRL.STATE 23) = 2 ∧
    (let s := (stWith [(F.PLKn_CTRL.STATE 0, 3)]).modPort 0 (fun x => { x with stopTick := some 6 });
      (s.portS 0).idleEnd = none ∧ (s.portS 0).stopTick = some 6 ∧ s.rd (F.PLKn_CTRL.STATE 0) = 3 ∧
        s.on (F.PLKn_CTRL.ENABLE 0) = false) ∧
    ((State.reset.modPort 0 (fun x => { x with idleEnd := some 6 })).portS 0).idleEnd = some 6 ∧
    (stWith [(F.PLKn_LSTAT.LSTATE 0, 3)]).laneSt 0 = 3 ∧ 16000001 < 2 ^ 32 ∧ 16000000 < 16000001 ∧ 16000000 ≤ 16000000 := by decide

/-- Of O22: a running port in UP for REDISC and for the patrol; DISC at its second and third try; a patrol DISC at both;
an address write; a port for which there is nothing to do. -/
theorem witness_DiscoveryAndPatrol :
    (let s := stWith [(F.PLKn_CTRL.STATE 23, 2), (F.PLKn_LSTAT.LSTATE 23, 3), (F.PLKn_DISC.PERIOD 23, 1)];
      s.isB 23 = false ∧ s.rd (F.PLKn_CTRL.STATE 23) ≠ 0 ∧ s.laneSt 23 = 3 ∧ s.rd (F.PLKn_DISC.PERIOD 23) ≠ 0 ∧
        s.rd (F.PLKn_CTRL.STATE 23) = 2 ∧ (s.portS 23).step = 0 ∧ (s.portS 23).breaks = []) ∧
    (State.reset.rd (F.PLKn_CTRL.STATE 23) = 0 ∧ State.reset.laneSt 23 ≠ 3 ∧ (State.reset.portS 23).step ≠ 2 ∧
      (State.reset.portS 23).step = 0 ∧ (State.reset.portS 23).patWait = []) ∧
    (let s := State.reset.modPort 0 (fun x => { x with step := 1, tries := 2, hop := 64 });
      (s.portS 0).step = 1 ∧ (s.portS 0).tries < 3) ∧
    (let s := State.reset.modPort 0 (fun x => { x with step := 1, tries := 3, hop := 64 });
      (s.portS 0).step = 1 ∧ 3 ≤ (s.portS 0).tries ∧ (s.portS 0).hop ≤ 64) ∧
    (let s := State.reset.modPort 23 (fun x => { x with patWait := [(64, 3, 9)] });
      (s.portS 23).step = 0 ∧ (s.portS 23).patWait = (64, 3, 9) :: [] ∧ 64 * s.tableOf 23 + s.addrAt 23 64 < 1536) ∧
    (let s := State.reset.modPort 23 (fun x => { x with patWait := [(64, 2, 9)] });
      (s.portS 23).step = 0 ∧ (s.portS 23).patWait = (64, 2, 9) :: []) ∧
    (let s := State.reset.modPort 0 (fun x => { x with step := 2, hop := 64 });
      (s.portS 0).step = 2 ∧ (s.portS 0).hop ≤ 64) := by decide

/-- Of O23: a tile with a scheduled presentation, READY and telemetry due; one whose lock has not come and that waits for
nothing; a finished verification of a challenge, whose
result is either; a request in the sign unit; a second and a third try unanswered, and none under way; an admitted tile
whose telemetry is stale; a closed ring that moves its split to the ends of its range, and one in another cycle. -/
theorem witness_TilesAndAuthentication :
    (let s : State := { State.reset with tile := [(1535, { sched := some (9, 0x8001, false), valid := true, telemPeriod := 1 })] };
      1535 < 1536 ∧ (s.tileS 1535).sched = some (9, 0x8001, false) ∧ (s.tileS 1535).valid = true ∧
        (s.tileS 1535).readySent = false ∧ (s.tileS 1535).telemPeriod ≠ 0 ∧
        ((s.modTile 1535 (fun x => { x with tlock := true })).tileS 1535).tlock = true) ∧
    ((State.reset.tileS 1535).sched = none ∧ (State.reset.tileS 1535).tlock = false ∧
      State.reset.laneSt (tileLane 1535 (State.reset.tileS 1535).feed) ≠ 3 ∧ (State.reset.tileS 1535).valid = false ∧
      (State.reset.chT 1535).step ≠ 1 ∧ State.reset.rd (F.PLK_TILE0.TSTATE 1535) ≠ 3) ∧
    (let s := State.reset.modCh 0 (fun c => { c with step := 1, tries := 2 });
      (s.chT 0).step = 1 ∧ (s.chT 0).tries < 3 ∧ s.sec.trngBad = false) ∧
    (let s : State := { State.reset with now := 1 }; (s.portS 23).lastTick ≠ s.now) ∧
    (let s : State := { State.reset with
        sec := { verRun := [(.tile 1535 0, 8)], enrolled := [beBytes 48 77] }, chain := [(1535, { step := 2, keyhash := 77 })] };
      s.sec.verRun = (.tile 1535 0, 8) :: [] ∧ (s.chT 1535).step = 2 ∧
        s.sec.enrolled.contains (beBytes 48 (s.chT 1535).keyhash) = true ∧ (s.chT 1535).background = false) ∧
    (let s : State := { State.reset with sec := { signJob := some (.attest 3) } }; s.sec.signJob = some (.attest 3)) ∧
    (let s := State.reset.modCh 0 (fun c => { c with step := 1, tries := 3 }); (s.chT 0).step = 1 ∧ 3 ≤ (s.chT 0).tries) ∧
    (let s := stWith [(F.PLK_TILE0.TSTATE 0, 3)];
      s.Calm ∧ s.rd (F.PLK_TILE0.TSTATE 0) = 3 ∧ (s.chT 0).staleRaised = false) ∧
    (let s := (stWith [(F.PLKn_RSTAT.CLOSED 22, 1), (F.PLKn_RSTAT.LEN 22, 40), (F.PLKn_REBAL.N 22, 0), (F.PLKn_REBAL_RANGE.LO 22, 19),
        (F.PLKn_REBAL_RANGE.HI 22, 30)]).modPort 22 (fun x => { x with split := 20, runA := 1 });
      (s.portS 22).lastTick = s.now ∧ (s.portS 22).wait = 0 ∧ (s.portS 22).breaks = [] ∧ s.on (F.PLKn_RSTAT.CLOSED 22) = true ∧
        max 1 (s.rd (F.PLKn_REBAL.N 22)) ≤ (s.portS 22).runA ∧ s.rd (F.PLKn_REBAL_RANGE.LO 22) ≤ (s.portS 22).split - 1 ∧
        (s.portS 22).split - 1 ≤ s.rd (F.PLKn_REBAL_RANGE.HI 22) ∧ (s.portS 22).split - 1 ≤ s.ringLen 22 ∧
        (s.portS 22).split - 1 ≠ (s.portS 22).split) ∧
    (let s := (stWith [(F.PLKn_RSTAT.CLOSED 22, 1), (F.PLKn_RSTAT.LEN 22, 40), (F.PLKn_REBAL.N 22, 0), (F.PLKn_REBAL_RANGE.LO 22, 19),
        (F.PLKn_REBAL_RANGE.HI 22, 21)]).modPort 22 (fun x => { x with split := 20, runB := 1 });
      (s.portS 22).lastTick = s.now ∧ (s.portS 22).wait = 0 ∧ (s.portS 22).breaks = [] ∧ s.on (F.PLKn_RSTAT.CLOSED 22) = true ∧
        ¬ max 1 (s.rd (F.PLKn_REBAL.N 22)) ≤ (s.portS 22).runA ∧ max 1 (s.rd (F.PLKn_REBAL.N 22)) ≤ (s.portS 22).runB ∧
        (s.portS 22).split + 1 ≤ s.rd (F.PLKn_REBAL_RANGE.HI 22) ∧ (s.portS 22).split + 1 ≤ s.ringLen 22) := by
  unfold State.Calm
  decide

/-- Of O24: a queue OFF, in the cycle of an error and in no such cycle, one that is STARTING, one that runs, with and
without a command in execution; TAIL at both sides of the ring's size, and past HEAD; each command at HEAD, a fence
and a tick that have come and not; a BLT that fails its checks and one that passes; one in execution whose rows are not
written, one whose rows all are, its watermark due, and one that an error stopped. -/
theorem witness_BlitterCommands :
    (State.reset.bltState 3 = 0 ∧ (1 : Nat).testBit 0 = true ∧ State.reset.arrived 5 3 = false ∧
      (State.reset.arrive 5 3).arrived 5 3 = true ∧ State.reset.blt.run = none ∧ State.reset.bltHead 3 = none ∧
      (State.reset.bltUpTo 3).bltStart 3 = none) ∧
    (let s := stWith [(F.BLT_Qq_CTRL.STATE 3, 1)]; s.bltState 3 = 1) ∧
    (let s := stWith [(F.BLT_Qq_CTRL.STATE 3, 2), (F.BLT_Qq_SIZE.LOG2 3, 15)];
      s.bltState 3 = 2 ∧ (2 : Nat).testBit 0 = false ∧ s.bltBusy 3 = false ∧ s.bltHead 3 = none ∧ s.bltLog2 3 = 15 ∧
        32768 < 65536 ∧ 2 ^ 15 ≤ 32768 ∧ 32767 < 2 ^ s.bltLog2 3 ∧ 32767 ≠ s.rd (F.BLT_Qq_HEAD.HEAD 3)) ∧
    (∃ bs w', (stWith [(F.HBM_STATUS.TRAINED, 1), (F.BLT_Qq_CTRL.STATE 3, 2), (F.BLT_Qq_SIZE.LOG2 3, 15)]).bltRead 0 128 = (.ok bs, w')) ∧
    (let f := fun w : List Nat => ({ stWith [(F.BLT_Qq_CTRL.STATE 3, 2), (F.BLT_Qq_SIZE.LOG2 3, 4), (F.BLT_Qq_HEAD.HEAD 3, 15)] with
        blt := { head := [(3, w)] } } : State);
     let u := fun w => (f w).bltUpTo 3;
      ((u [0]).bltStart 3 = some [0] ∧ bltOp [0] = 0 ∧ (f [0]).bltHead 3 = some [0] ∧ (∀ k, k < 4 → (f [0]).bltState k ≠ 1)) ∧
      ((u [0x3F000004]).bltStart 3 = some [0x3F000004] ∧ bltOp [0x3F000004] = 4) ∧
      ((u [2]).bltStart 3 = some [2] ∧ (u [2]).bltHead 3 = some [2] ∧ (u [2]).bltState 3 = 2 ∧ bltOp [2] = 2 ∧
        (u [2]).waitOver 3 [2] = true) ∧
      (let w := 2 :: List.replicate 17 0 ++ [1];
        (u w).bltHead 3 = some w ∧ bltOp w = 2 ∧ (u w).waitOver 3 w = false ∧ (u w).bltStart 3 = none) ∧
      ((u [3]).bltHead 3 = some [3] ∧ bltOp [3] = 3 ∧ (u [3]).waitOver 3 [3] = false ∧
        (let v := { f [3] with blt := { head := [(3, [3])], ticked := [3] } }.bltUpTo 3;
          v.waitOver 3 [3] = true ∧ v.bltStart 3 = some [3])) ∧
      ((u [0x31]).bltStart 3 = some [0x31] ∧ bltOp [0x31] = 1 ∧ bltCheck [0x31] ≠ 0) ∧
      ((u [5]).bltStart 3 = some [5] ∧ 5 ≤ bltOp [5] ∧ bltCheck [5] ≠ 0) ∧
      (let w := [1 + 0xF0 * 65536, 0x1000, 4 * 65536, 0, 3 + 65536 * 2, 0, 0, 0, 0, 0, 0, 0, 0, 0, 0, 0, 1, 5];
        (u w).bltStart 3 = some w ∧ bltOp w = 1 ∧ bltCheck w = 0)) ∧
    (let w := [1 + 0xF0 * 65536 + 0x3000, 0x1000, 4 * 65536, 0, 3 + 65536 * 2, 0, 0, 0, 0, 0, 0, 0, 0, 0, 0, 0, 1, 5];
     let r : BltRun := { q := 3, words := w, t0 := 0, wm := bltBit w 13 };
     let f := fun x : BltRun => ({ stWith [(F.BLT_Qq_CTRL.STATE 3, 3)] with blt := { run := some x } } : State);
      r.wm = true ∧ (f r).blt.run = some r ∧ r.q < 4 ∧ bltBit w 12 = true ∧
        (let x := { r with rows := r.height }; (((f x).reach (x.rowsAt x.height)).bltTo).blt.run = some x ∧ x.err = false ∧
          x.height ≤ x.rows ∧ x.wmRows ≤ x.rows ∧ (((f x).reach x.wmAt).bltTo).blt.run = some x ∧
          (((f x).reach (x.rowsAt x.height)).bltTo).bltState x.q = 3 ∧
          (((f x).reach (x.rowsAt x.height)).bltTo).on (F.BLT_Qq_CTRL.ENABLE x.q) = false) ∧
        (let x := { r with err := true }; (f x).bltTo.blt.run = some x ∧ x.err = true ∧ x.rows < x.wmRows ∧
          (((f x).reach x.wmAt).bltTo).blt.run = some x ∧ (((f x).reach (x.rowsAt x.height)).bltTo).blt.run = some x) ∧
        (let x := { r with wm := false }; x.wm = false ∧ (f x).bltTo.blt.run = some x ∧ x.err = false)) := by
  refine ⟨by decide +kernel, by decide +kernel, by decide +kernel, ⟨_, _, rfl⟩, by decide +kernel, by decide +kernel⟩

/-- Of O25: a word to write back and one that is not; entries of both merge buffers, partial over a word or block with
no error, with one that can be corrected and with one that cannot; complete ones. -/
theorem witness_BuffersWrittenBack :
    (let s : State := { State.reset with memc := { fix := [0x1000000008], sramErr := [(0x1000000008, 2 ^ 20)] } };
      s.memc.fix.contains 0x1000000000 = false ∧ s.memc.fix.contains 0x1000000008 = true ∧
        (s.peekWord8 0x1000000008).isSome = true) ∧
    (State.reset.memc.merge.find? (fun e => e.addr == 0) = none ∧ State.reset.memc.rmw.find? (fun e => e.addr == 0) = none) ∧
    (let s : State := { State.reset with
        memc := { merge := [{ addr := 0x1000000008, bytes := [(7, 9#8)], t := 3 }], rmw := [{ addr := 32, bytes := [(31, 9#8)], t := 3 }] } };
      (∃ e, s.memc.merge.find? (fun e => e.addr == 0x1000000008) = some e ∧ e.bytes.length ≠ 8) ∧
        (s.peekWord8 0x1000000008).isSome = true ∧
        (∃ e, s.memc.rmw.find? (fun e => e.addr == 32) = some e ∧ e.bytes.length ≠ 32) ∧ 32 % 32 = 0 ∧
        (s.peekBlk (32 / 32)).isSome = true) ∧
    (let s : State := { State.reset with
        memc := { merge := [{ addr := 0x1000000008, bytes := [(7, 9#8)], t := 3 }], rmw := [{ addr := 32, bytes := [(31, 9#8)], t := 3 }],
                  sramErr := [(0x1000000008, 2 ^ 20 + 2 ^ 30 + 2 ^ 40 + 2 ^ 50 + 1)],
                  hbmErr := [(36, 5#8), (38, 5#8), (40, 7#8), (42, 9#8)] } };
      s.peekWord8 0x1000000008 = none ∧ s.peekBlk (32 / 32) = none) ∧
    (let s : State := { State.reset with
        memc := { merge := [{ addr := 0, bytes := (List.range 8).map (fun j => (j, 1#8)) }],
                  rmw := [{ addr := 0, bytes := (List.range 32).map (fun j => (j, 1#8)) }] } };
      (∃ e, s.memc.merge.find? (fun e => e.addr == 0) = some e ∧ e.bytes.length = 8) ∧
        ∃ e, s.memc.rmw.find? (fun e => e.addr == 0) = some e ∧ e.bytes.length = 32) := by
  refine ⟨by decide +kernel, by decide +kernel, ⟨⟨_, rfl, by decide +kernel⟩, by decide +kernel, ⟨_, rfl, by decide +kernel⟩,
    by decide +kernel, by decide +kernel⟩, by decide +kernel, ⟨_, rfl, by decide +kernel⟩, ⟨_, rfl, by decide +kernel⟩⟩

/-- Of O26: the scrubber off and on, at the last block, over clean memory, over a block to correct and over one that cannot
be; a log that is full, without and with an entry lost in this cycle; a pop and a write that is none. -/
theorem witness_ScrubberAndErrorLog :
    (0 < State.reset.gib ∧ State.reset.gib ≤ 16 ∧ State.reset.memc.rmw = [] ∧ (State.reset.on F.MEM_SCRUB_CTRL.EN = false ∨ State.reset.on F.HBM_STATUS.TRAINED = false)) ∧
    (let s := stWith [(F.MEM_SCRUB_CTRL.EN, 1), (F.HBM_STATUS.TRAINED, 1), (F.MEM_SCRUB_POS.BLOCK, 16 * 2 ^ 25 - 1)];
      s.gib ≤ 16 ∧ s.memc.rmw = [] ∧ s.on F.MEM_SCRUB_CTRL.EN = true ∧ s.on F.HBM_STATUS.TRAINED = true ∧ s.memc.hbmErr = [] ∧
        s.hbmBlocks ≤ s.rd F.MEM_SCRUB_POS.BLOCK + 1) ∧
    (let s : State := { stWith [(F.MEM_SCRUB_CTRL.EN, 1), (F.HBM_STATUS.TRAINED, 1), (F.MEM_SCRUB_POS.BLOCK, 1)] with
        memc := { hbmErr := [(36, 5#8)] } };
      s.memc.repair = [] ∧ (s.peekBlk (s.rd F.MEM_SCRUB_POS.BLOCK)).any (fun x => x.2 != 0) = true) ∧
    (let s : State := { stWith [(F.MEM_SCRUB_CTRL.EN, 1), (F.HBM_STATUS.TRAINED, 1), (F.MEM_SCRUB_POS.BLOCK, 1)] with
        memc := { hbmErr := [(36, 5#8), (38, 5#8), (40, 7#8), (42, 9#8)] } };
      s.peekBlk (s.rd F.MEM_SCRUB_POS.BLOCK) = none) ∧
    ((1 : Nat).testBit 0 = true ∧ (2 : Nat).testBit 0 = false ∧
      (let s : State := { State.reset with memc := { log := List.replicate 16 ⟨1, 2, 3, 4⟩ } };
        s.memc.log.length ≤ 16 ∧ s.memc.logLost.all (fun x => x.1 != s.now) = true) ∧
      (let s : State := { State.reset with memc := { log := List.replicate 16 ⟨1, 2, 3, 4⟩, logLost := some (0, ⟨5, 6, 7, 8⟩, true) } };
        s.memc.log.length ≤ 16 ∧ s.memc.logLost = some (0, ⟨5, 6, 7, 8⟩, true) ∧ 0 = s.now ∧ s.memc.log ≠ [])) := by
  decide +kernel

/-- Of O27: memory with HBM trained and a partial entry in each buffer; the last bytes of HBM, and SRAM. -/
theorem witness_WritesReadBack :
    let s : State := { stWith [(F.HBM_STATUS.TRAINED, 1)] with
      memc := { merge := [{ addr := 0x1000000000, bytes := [(1, 7#8)] }], rmw := [{ addr := 16 * 2 ^ 30 - 32, bytes := [(31, 9#8)] }] } }
    s.CleanMemory ∧ (∀ i, i < [1#8, 2#8].length → s.Stores (16 * 2 ^ 30 - 2 + i)) ∧
    (∀ i, i < [1#8, 2#8].length → s.Stores (0x1000000000 + i)) := by
  refine ⟨?_, ?_, ?_⟩
  · unfold State.CleanMemory mergeOk
    refine ⟨by decide, by decide, by decide, ?_, by decide, by decide, by decide⟩
    intro e he
    have : e.addr = 0x1000000000 := by revert e; decide
    exact ⟨_, by rw [this]; rfl⟩
  · intro i hi
    refine Or.inl ?_
    revert i
    decide
  · intro i hi
    refine Or.inr ?_
    have : i = 0 ∨ i = 1 := by simp at hi; omega
    rcases this with rfl | rfl <;> exact ⟨_, rfl⟩

/-- Of O28: a channel OFF, also in the cycle that cleared ENABLE; RUNNING between descriptors, also paused, while it waits
and while it moves; STARTING and STOPPING for PAUSE; one not paused. -/
theorem witness_DmaStartStopPause :
    (State.reset.dmaState 63 = 0 ∧ (1 : Nat).testBit 0 = true ∧ State.reset.arrived 12 63 = false ∧
      (State.reset.arrive 12 63).arrived 12 63 = true ∧ (State.reset.arrive 12 63).dmaState 63 = 0 ∧
      State.reset.on (F.DMAn_CTRL.ENABLE 63) = false ∧ State.reset.on (F.DMAn_CTRL.PAUSE 63) = false) ∧
    (let s : State := { stWith [(F.DMAn_CTRL.STATE 63, 2), (F.DMAn_CTRL.ENABLE 63, 1), (F.DMAn_CTRL.PAUSE 63, 1)] with dma := [(63, { phase := .wait })] };
      s.dmaState 63 = 2 ∧ (2 : Nat).testBit 0 = false ∧ (s.dmaS 63).phase = .wait ∧ s.on (F.DMAn_CTRL.ENABLE 63) = true ∧
        s.on (F.DMAn_CTRL.PAUSE 63) = true) ∧
    (let s : State := { stWith [(F.DMAn_CTRL.STATE 31, 2)] with dma := [(31, { phase := .fetch })] };
      s.dmaState 31 = 2 ∧ (s.dmaS 31).phase = .fetch ∧ (0 : Nat).testBit 1 = false ∧ (2 : Nat).testBit 1 = true) ∧
    (let s : State := { stWith [(F.DMAn_CTRL.STATE 31, 2)] with dma := [(31, { phase := .move })] };
      s.dmaState 31 = 2 ∧ (s.dmaS 31).phase ≠ .fetch ∧ (s.dmaS 31).phase ≠ .wait) ∧
    (stWith [(F.DMAn_CTRL.STATE 0, 1)]).dmaState 0 = 1 ∧
    (let s : State := { stWith [(F.DMAn_CTRL.STATE 0, 3), (F.DMAn_CTRL.PAUSE 0, 1)] with dma := [(0, { phase := .fetch })] };
      s.dmaState 0 = 3 ∧ (s.dmaS 0).phase = .fetch ∧ s.arrived 12 0 = false ∧ s.on (F.DMAn_CTRL.PAUSE 0) = true) := by decide

/-- A descriptor of one unit of 64 bytes, with these flags. -/
def dscOf (flags : Nat) : List Byte :=
  leBytes 8 0x1000000100 ++ leBytes 8 0x1000004000 ++ leBytes 4 64 ++ leBytes 4 0 ++ leBytes 4 1 ++ leBytes 4 64 ++ leBytes 4 0 ++
    leBytes 4 1 ++ leBytes 2 0 ++ leBytes 2 flags ++ leBytes 4 0 ++ leBytes 8 0 ++ leBytes 8 0

/-- Channel 63 fetches the descriptor at 0x10_0000_2000. -/
def fetching (ctrl : List (Fld × Nat)) (flags : Nat) : State :=
  { ((stWith ([(F.DMAn_CTRL.STATE 63, 1), (F.DMAn_CTRL.ENABLE 63, 1)] ++ ctrl)).dmaSetDesc 63 0x1000002000).setBytes 0x1000002000 (dscOf flags)
    with dma := [(63, { phase := .fetch })] }

def readOk (s : State) (p : List Byte → State → Bool) : Bool :=
  match s.busRead (0x40 + 63) (s.dmaDesc 63) 64 with
  | (.ok b, x) => p b x
  | _ => false

/-- Of O29: descriptors that fail a check, that pass, that wait for a trigger, with ENABLE cleared meanwhile and with the
trigger there; one that no memory answers and one whose HBM does not yet; a paused channel; a trigger that is
not there, one with TRIG_PEND set, one that finds no descriptor waiting, one that does. -/
theorem witness_DmaFetchAndTrigger :
    ((State.reset.dmaS 63).phase ≠ .fetch ∧ State.reset.slcTake 1 63 = none) ∧
    (fetching [(F.DMAn_CTRL.PAUSE 63, 1)] 0).on (F.DMAn_CTRL.PAUSE 63) = true ∧
    ((fetching [] 0x40).dmaS 63).phase = .fetch ∧ (fetching [] 0x40).on (F.DMAn_CTRL.PAUSE 63) = false ∧ readOk (fetching [] 0x40) (fun b _ => dmaCheck b != 0) = true ∧
    readOk (fetching [] 0) (fun b x => dmaCheck b == 0 && !(dmaParse b).wait && x.on (F.DMAn_CTRL.ENABLE 63) && x.dmaState 63 == 1) = true ∧
    (dmaParse (dscOf 0)).crcInit = false ∧
    readOk (fetching [] 0x3F) (fun b x => dmaCheck b == 0 && (dmaParse b).wait && x.on (F.DMAn_CTRL.ENABLE 63) &&
      !x.on (F.DMAn_STATUS.TRIG_PEND 63)) = true ∧
    readOk (fetching [(F.DMAn_STATUS.TRIG_PEND 63, 1)] 0x3F) (fun b x => dmaCheck b == 0 && (dmaParse b).wait &&
      x.on (F.DMAn_STATUS.TRIG_PEND 63) && x.on (F.DMAn_CTRL.ENABLE 63) && x.dmaState 63 == 1) = true ∧
    readOk (fetching [(F.DMAn_CTRL.ENABLE 63, 0)] 0x3F) (fun b x => dmaCheck b == 0 && (dmaParse b).wait &&
      !x.on (F.DMAn_CTRL.ENABLE 63) && x.dmaState 63 == 1) = true ∧
    (dmaParse (dscOf 0x3F)).crcInit = true ∧
    (let s : State := { State.reset with dma := [(63, { phase := .fetch })] };
      (s.dmaS 63).phase = .fetch ∧ ((s.busRead (0x40 + 63) (s.dmaDesc 63) 64).1 == .wait) = true) ∧
    (let s : State := { State.reset.dmaSetDesc 63 0x3000000000 with dma := [(63, { phase := .fetch })] };
      (s.dmaS 63).phase = .fetch ∧ ((s.busRead (0x40 + 63) (s.dmaDesc 63) 64).1 == .decode) = true) ∧
    (let s : State := { stWith [(F.DMAn_STATUS.TRIG_PEND 63, 1)] with slc := { due := [(1, 63, 5)] } };
      (s.slcTake 1 63).isSome = true ∧ s.on (F.DMAn_STATUS.TRIG_PEND 63) = true) ∧
    (let s : State := { State.reset with slc := { due := [(1, 63, 5)] } };
      (s.slcTake 1 63).isSome = true ∧ s.on (F.DMAn_STATUS.TRIG_PEND 63) = false ∧ (s.dmaS 63).phase ≠ .wait) ∧
    (let s : State := { State.reset with slc := { due := [(1, 63, 5)] }, dma := [(63, { phase := .wait })] };
      (s.slcTake 1 63).isSome = true ∧ s.on (F.DMAn_STATUS.TRIG_PEND 63) = false ∧ (s.dmaS 63).phase = .wait) := by
  decide +kernel

/-- Channel 63 moves the last bytes of its descriptor. -/
def moving : State :=
  { stWith [(F.DMAn_CTRL.STATE 63, 2), (F.DMAn_CTRL.ENABLE 63, 1)] with dma := [(63, { phase := .move, desc := dmaParse (dscOf 0), pos := 32 })] }

/-- The burst of channel 63 of a state: what it reads, and its write. -/
def burstOf (s : State) (p : List Byte → Option BusRes → BusRes → State → Bool) : Bool :=
  let d := (s.dmaS 63).desc
  let i := (s.dmaS 63).pos
  match ({ s with dmaServed := s.dmaServed.put (s.rd (F.DMAn_CTRL.PRIO 63)) 63 } : State).dmaRead (0x40 + 63) 10 (d.srcAt i) (d.burstLen i) with
  | (bs, e, x) =>
    let out := dmaWithin (x.freeCnt + 256) (d.srcAt i) (d.dstAt i) [] (bs.zipIdx.map (fun p =>
      dmaChoose (s.dmaS 63).recent (x.freeCnt + p.2) (i + p.2) (d.srcAt i + p.2) p.1))
    let r := ({ x with freeCnt := x.freeCnt + 512 } : State).busWrite (0x40 + 63) (d.dstAt i) out
    p bs e r.1 r.2

/-- Channel 63 moves from and to these addresses. -/
def movingAt (src dst : Nat) : State :=
  { moving with dma := [(63, { phase := .move, desc := { dmaParse (dscOf 0) with src := src, dst := dst }, pos := 32 })] }

def okRes : BusRes → Bool
  | .ok _ => true
  | _ => false

/-- Of O30: nothing to move; a burst that ends its descriptor, one whose source waits, one whose source fails, one whose
destination waits and one whose destination fails; a write elsewhere than the read; a descriptor moved without write-back,
chained and not, one whose stop a pause holds, one with a write-back that is done, that waits and that fails; ABORT of the
first and last channel; a channel with a failed access and one without. -/
theorem witness_DmaTransfers :
    State.reset.dmaPick = none ∧ (16 + [1#8].length ≤ 17 ∨ 17 + [1#8].length ≤ 16) ∧
    (moving.dmaPick = some 63 ∧ burstOf moving (fun bs e r y => bs.length == 32 && e.isNone && okRes r && (y.dmaS 63).phase == .move &&
      (y.dmaS 63).desc == (moving.dmaS 63).desc) = true) ∧
    ((movingAt 0 0x1000004000).dmaPick = some 63 ∧ burstOf (movingAt 0 0x1000004000) (fun _ e _ _ => e == some .wait) = true) ∧
    ((movingAt 0x3000000000 0x1000004000).dmaPick = some 63 ∧
      burstOf (movingAt 0x3000000000 0x1000004000) (fun _ e r _ => e.isSome && e != some .wait && okRes r) = true) ∧
    ((movingAt 0x1000000100 0).dmaPick = some 63 ∧ burstOf (movingAt 0x1000000100 0) (fun _ e r _ => e.isNone && r == .wait) = true) ∧
    ((movingAt 0x1000000100 0x3000000000).dmaPick = some 63 ∧
      burstOf (movingAt 0x1000000100 0x3000000000) (fun _ e r _ => e.isNone && r == .decode) = true) ∧
    (let s : State := { State.reset with dma := [(63, { phase := .moved, desc := dmaParse (dscOf 0) })] };
      (s.dmaS 63).phase = .moved ∧ (s.dmaS 63).desc.wbEn = false ∧ (s.dmaS 63).desc.chain = false ∧ s.dmaState 63 ≠ 3) ∧
    (let s : State := { stWith [(F.DMAn_CTRL.STATE 63, 3), (F.DMAn_CTRL.PAUSE 63, 1)] with dma := [(63, { phase := .moved })] };
      (s.dmaS 63).phase = .moved ∧ s.dmaState 63 = 3 ∧ s.on (F.DMAn_CTRL.PAUSE 63) = true) ∧
    (let f := fun a : Nat => ({ stWith [(F.DMAn_CTRL.STATE 63, 2)] with
        dma := [(63, { phase := .moved, desc := { flags := 16, wb := a } })] } : State);
      (f 0).dmaState 63 ≠ 3 ∧ ((f 0).dmaS 63).desc.wbEn = true ∧ ((f 0).dmaWb 63 0 0 1).1 = .wait ∧
        okRes ((f 0x1000000100).dmaWb 63 0 0 1).1 = true ∧ ((((f 0x1000000100).dmaWb 63 0 0 1).2).dmaS 63).phase ≠ .error ∧
        ((f 0x3000000000).dmaWb 63 0 0 1).1 = .decode) ∧
    (let s : State := { stWith [(F.DMAn_CTRL.STATE 63, 2)] with dma := [(63, { phase := .moved, desc := { flags := 1, next := 2 ^ 40 - 16 } })] };
      (s.dmaS 63).phase = .moved ∧ (s.dmaS 63).desc.wbEn = false ∧ (s.dmaS 63).desc.chain = true ∧ (s.dmaS 63).desc.irq = false ∧
        s.dmaState 63 ≠ 3 ∧ (s.dmaS 63).desc.next % 16 = 0 ∧ (s.dmaS 63).desc.next < 2 ^ 40) ∧
    (let s := stWith [(F.DMAn_CTRL.STATE 63, 2), (F.DMAn_CTRL.STATE 32, 1)];
      0x80000001 < 2 ^ 32 ∧ (∀ i, i < 32 → (0x80000001 : Nat).testBit i = true → (s.dmaS (if true then 32 + i else i)).desc.wbEn = false) ∧
        (0x80000001 : Nat).testBit 31 = true ∧ s.dmaState 63 ≠ 0 ∧ (0x80000001 : Nat).testBit 30 = false) ∧
    (let s : State := { State.reset with dma := [(63, { phase := .error }), (0, { phase := .wbError })] };
      (s.dmaS 63).phase = .error ∧ (s.dmaS 0).phase = .wbError ∧ (s.dmaS 1).phase ≠ .error ∧ (s.dmaS 1).phase ≠ .wbError) := by
  decide +kernel

/-- Of O31: the last voice and the last tone channel, OFF, STARTING, RUNNING and STOPPING; the words that enable, disable
and kill; the cycle in which hardware cleared ENABLE. -/
theorem witness_VoicesAndTones :
    (383 < 384 ∧ (1 : Nat).testBit 1 = false ∧ (1 : Nat).testBit 0 = true ∧ State.reset.rd (F.AUD_Vv_CTRL.STATE 383) = 0 ∧
      (0x30 : Nat).testBit 0 = false ∧ (0x30 : Nat).testBit 1 = false ∧ (2 : Nat).testBit 1 = true ∧
      State.reset.arrived 11 383 = false ∧ (State.reset.arrive 11 383).arrived 11 383 = true ∧
      State.reset.on (F.AUD_Vv_CTRL.ENABLE 383) = false) ∧
    ((stWith [(F.AUD_Vv_CTRL.STATE 383, 2), (F.AUD_Vv_CTRL.ENABLE 383, 1)]).rd (F.AUD_Vv_CTRL.STATE 383) = 2 ∧
      (stWith [(F.AUD_Vv_CTRL.STATE 383, 2), (F.AUD_Vv_CTRL.ENABLE 383, 1)]).on (F.AUD_Vv_CTRL.ENABLE 383) = true ∧
      (stWith [(F.AUD_Vv_CTRL.STATE 383, 1)]).rd (F.AUD_Vv_CTRL.STATE 383) = 1 ∧
      (stWith [(F.AUD_Vv_CTRL.STATE 383, 3)]).rd (F.AUD_Vv_CTRL.STATE 383) = 3) ∧
    (63 < 64 ∧ State.reset.rd (F.AUD_Tc_CTRL.STATE 63) = 0 ∧ State.reset.on (F.AUD_Tc_CTRL.ENABLE 63) = false ∧
      (State.reset.arrive 11 (384 + 63)).arrived 11 (384 + 63) = true ∧ State.reset.arrived 11 (384 + 63) = false ∧
      (stWith [(F.AUD_Tc_CTRL.STATE 63, 1)]).rd (F.AUD_Tc_CTRL.STATE 63) = 1 ∧
      (stWith [(F.AUD_Tc_CTRL.STATE 63, 2), (F.AUD_Tc_CTRL.ENABLE 63, 1)]).rd (F.AUD_Tc_CTRL.STATE 63) = 2 ∧
      (stWith [(F.AUD_Tc_CTRL.STATE 63, 2), (F.AUD_Tc_CTRL.ENABLE 63, 1)]).on (F.AUD_Tc_CTRL.ENABLE 63) = true ∧
      (stWith [(F.AUD_Tc_CTRL.STATE 63, 3)]).rd (F.AUD_Tc_CTRL.STATE 63) = 3) := by decide

/-- The preset that the oldest start of a state waits for is read. -/
def presetOf (s : State) : BusRes :=
  match s.aud.trig.find? (fun e => e.action == 0 && e.data.isNone) with
  | some e => (s.busRead 0x83 ((s.reg R.AUD_PRESET_BASE * 256 + 64 * e.preset) % 2 ^ 40) 64).1
  | none => .ok []

/-- Of O32: the last voice, and the first and last number beyond; no preset to read, and one whose read is done, waits and
fails; sends of a bus to itself, to the next bus, of a source that is OFF and of one that runs, with a new gain and the
old; bands to apply and none. -/
theorem witness_SoundTriggersAndRouting :
    (383 < 384 ∧ 384 ≤ 384 ∧ 511 < 512 ∧ State.reset.aud.trig.find? (fun e => e.action == 0 && e.data.isNone) = none) ∧
    (let f := fun l : List (Fld × Nat) => ({ stWith l with aud := { trig := [{ voice := 383, preset := 65535 }] } } : State);
      (f []).aud.trig.find? (fun e => e.action == 0 && e.data.isNone) = some { voice := 383, preset := 65535 } ∧
        okRes (presetOf (f [(F.HBM_STATUS.TRAINED, 1)])) = true ∧ presetOf (f []) = .wait ∧
        presetOf ((f []).setReg R.AUD_PRESET_BASE 0x30000000) = .decode) ∧
    (543 < 544 ∧ 3 < 4 ∧ 512 ≤ 543 ∧ bitsOf 31 0 5 ≤ 543 - 512 ∧ 542 - 512 < bitsOf 31 0 5 ∧ 511 < 512 ∧ State.reset.srcOff 447 = true ∧
      State.reset.running = false ∧ bitsOf 0x10000 16 16 ≠ State.reset.rd (F.AUD_Ss_SENDk.GAIN 543 3) ∧
      bitsOf 0x40000000 16 16 = State.reset.rd (F.AUD_Ss_SENDk.GAIN 543 3)) ∧
    (let s : State := { stWith [(F.ENG_TICK_CTRL.RUN, 1), (F.AUD_Vv_CTRL.STATE 383, 2), (F.AUD_Tc_CTRL.STATE 63, 2), (F.AUD_Ss_SENDk.GAIN 0 0, 7)] with
        tick := { at_ := some 5 } };
      s.srcOff 63 = false ∧ s.srcOff 447 = false ∧ s.srcOff 448 = false ∧ s.running = true) ∧
    (31 < 32 ∧ 256 % 256 = 0 ∧ 255 % 256 ≠ 0) := by decide +kernel

/-- Of O33: ports OFF and RUNNING, PDELAY at its limit and above; inputs OFF, with and without their pins, without and with
an earlier frame, at and below the run that locks, locked; a boundary at the tick, before it, and without one; Standby, a
trip and a wake. -/
theorem witness_TdmPortsAndBoundaries :
    (7 < 8 ∧ State.reset.rd (F.AUD_Op_CTRL.STATE 7) = 0 ∧ (0x25800001 : Nat).testBit 0 = true ∧ bitsOf 0x25800001 16 14 = 9600 ∧
      bitsOf 0x25810001 16 14 ≠ State.reset.rd (F.AUD_Op_CTRL.PDELAY 7) ∧ 9600 < bitsOf 0x25810001 16 14) ∧
    (stWith [(F.AUD_Op_CTRL.STATE 7, 2)]).rd (F.AUD_Op_CTRL.STATE 7) = 2 ∧
    (State.reset.rd (F.AUD_Ip_CTRL.STATE 3) = 0 ∧ State.reset.on (F.AUD_Ip_CTRL.LOCK 3) = false ∧ (State.reset.inS 3).run < 8192) ∧
    (let s : State := { stWith [(F.AUD_Ip_CTRL.STATE 3, 1), (F.AUD_Ip_CTRL.ENABLE 3, 1)] with
        aud := { inp := [(3, { run := 8192, frames := [(0, [1])], ref := 12500 })] }, now := 12501 };
      s.rd (F.AUD_Ip_CTRL.STATE 3) = 1 ∧ 8192 ≤ (s.inS 3).run ∧ s.on (F.AUD_Ip_CTRL.ENABLE 3) = true ∧
        s.on (F.AUD_Ip_CTRL.LOCK 3) = false ∧ (s.inS 3).frames = (0, [1]) :: []) ∧
    (State.reset.tdmFed 33 = false ∧ State.reset.tdmFed 34 = false ∧ (let s := stWith [(F.AUD_Ip_CTRL.STATE 3, 1), (F.PMX_PINp.FUNC 33, 4), (F.PMX_PINp.FUNC 34, 4), (F.PMX_PINp.FUNC 35, 4)];
      s.tdmFed 33 = true ∧ s.tdmFed 34 = true ∧ s.tdmFed 35 = true ∧ s.rd (F.AUD_Ip_CTRL.STATE 3) ≠ 0)) ∧
    (stWith [(F.PMX_PINp.FUNC 33, 4), (F.PMX_PINp.FUNC 34, 4)]).tdmFed 35 = false ∧
    ((stWith [(F.AUD_Ip_CTRL.LOCK 3, 1), (F.AUD_Ip_CTRL.STATE 3, 2)]).on (F.AUD_Ip_CTRL.LOCK 3) = true) ∧
    (stWith [(F.AUD_Ip_CTRL.LOCK 3, 1), (F.AUD_Ip_CTRL.STATE 3, 2)]).rd (F.AUD_Ip_CTRL.STATE 3) = 2 ∧
    (let s : State := { stWith [(F.ENG_TICK_CTRL.RUN, 1)] with tick := { at_ := some 12500 } };
      s.running = true ∧ s.tick.at_.any (fun a => decide (a ≤ s.nextBoundary.1)) = true) ∧
    (State.reset.running = false ∧ State.reset.boot.sby ≠ 5 ∧ State.reset.boot.tripped = false) ∧
    ({ State.reset with boot := { sby := 5 } } : State).boot.sby = 5 ∧ ({ State.reset with boot := { tripped := true } } : State).boot.tripped = true ∧
    ({ State.reset with boot := { sby := 6 } } : State).boot.sby = 6 ∧
    (let s : State := { State.reset with tick := { at_ := some 12501 } };
      s.tick.at_.any (fun a => decide (a ≤ s.nextBoundary.1)) = false) := by decide

/-- Core 3 runs with word `w` at its PC 0x100, g31 = `a`, g30 = `b` and STATUS `st`. -/
def coreAt (w a b st : Nat) (stack : List Nat := []) (sb : List SbEntry := []) : State :=
  { stWith [(F.CPUn_STATUS.IN_RESET 3, 0), (F.CPUn_CTRL.RESET 3, 0)] with
    cores := [(3, { g := [(30, BitVec.ofNat 32 b), (31, BitVec.ofNat 32 a)], pc := 0x100, pref := [some w, some 0, some 0], status := st, stack, sb })] }

/-- Format A, I and M words with rd = g29, ra = g31, rb = g30, and J and X words (R329). -/
def wordA (op fn : Nat) : Nat := op * 2 ^ 26 + 29 * 2 ^ 21 + 31 * 2 ^ 16 + 30 * 2 ^ 11 + fn
def wordI (op imm : Nat) : Nat := op * 2 ^ 26 + 29 * 2 ^ 21 + 31 * 2 ^ 16 + imm
def wordX (sr fn : Nat) : Nat := 0x3F * 2 ^ 26 + sr * 2 ^ 11 + fn

/-- What a core runs when `w` is its next word. -/
def runsOp (w : Nat) (op : QOp) : Bool := (coreAt w 5 7 0).coreWord 3 == some w && qMnem w == some op

/-- Of O34: words written out from the spec's tables (R329, R331), each the next word of core 3. -/
theorem witness_Qc32Arithmetic :
    ([(wordA 0 0, .add), (wordA 0 1, .sub), (wordA 0 2, .and), (wordA 0 3, .or), (wordA 0 4, .xor), (wordA 0 5, .nor), (wordA 0 6, .slt),
      (wordA 0 7, .sltu), (wordA 0 8, .sll), (wordA 0 9, .srl), (wordA 0 0xA, .sra), (wordA 0 0xC, .slli), (wordA 0 0xD, .srli),
      (wordA 0 0xE, .srai), (wordA 0 0x10, .min), (wordA 0 0x11, .max), (wordA 0 0x12, .minu), (wordA 0 0x13, .maxu),
      (wordI 0 0x14, .clz), (wordA 1 0, .mul), (wordA 1 1, .mulh), (wordA 1 2, .mulhu), (wordA 1 4, .div), (wordA 1 5, .divu),
      (wordA 1 6, .rem), (wordA 1 7, .remu), (wordI 4 0x8000, .addi), (wordI 5 0xFFFF, .andi), (wordI 6 0xFFFF, .ori),
      (wordI 7 0xFFFF, .xori), (wordI 8 0x8000, .slti), (wordI 9 0x7FFF, .sltiu), (0x0A * 2 ^ 26 + 29 * 2 ^ 21 + 0xFFFF, .lui)].all
      (fun p => runsOp p.1 p.2)) = true := by decide +kernel

/-- Of O35: words that transfer; return stacks of depth 0, 15 and 16 in wrapping and in trapping mode; a misaligned and an
aligned target. -/
theorem witness_Qc32Transfers :
    ([(wordI 0x18 0x8000, .beq), (wordI 0x19 0x7FFF, .bne), (wordI 0x1A 1, .blt), (wordI 0x1B 1, .bge), (wordI 0x1C 1, .bltu),
      (wordI 0x1D 1, .bgeu), (0x20 * 2 ^ 26 + 0x1FFFFF, .jmp), (0x21 * 2 ^ 26 + 0x100000, .call), (0x22 * 2 ^ 26 + 29 * 2 ^ 21 + 1, .beqz),
      (0x23 * 2 ^ 26 + 29 * 2 ^ 21 + 1, .bnez), (0x24 * 2 ^ 26 + 29 * 2 ^ 21 + 1, .bltz), (0x25 * 2 ^ 26 + 29 * 2 ^ 21 + 1, .bgez),
      (0x02 * 2 ^ 26 + 31 * 2 ^ 16, .jr), (0x02 * 2 ^ 26 + 31 * 2 ^ 16 + 1, .callr), (0x02 * 2 ^ 26 + 2, .ret)].all
      (fun p => runsOp p.1 p.2)) = true ∧
    (let w := 0x02 * 2 ^ 26 + 31 * 2 ^ 16;
      (coreAt w 8 0 0).gpr 3 (qRa w) % 4 = 0 ∧ (coreAt w 9 0 0).gpr 3 (qRa w) % 4 ≠ 0 ∧ (coreAt w 9 0 0).coreExc 3 = false) ∧
    (let st := List.replicate 16 0x40; (coreAt 0x84000001 0 0 8 st).coreWord 3 = some 0x84000001 ∧
      16 ≤ st.length ∧ ((coreAt 0x84000001 0 0 8 st).coreS 3).status.testBit 3 = true ∧
      ((coreAt 0x84000001 0 0 0 st).coreS 3).status.testBit 3 = false ∧ (List.replicate 15 0x40).length < 16) ∧
    (([0x40, 0x80] : List Nat).getLast? = some 0x80 ∧ (coreAt 0x08000002 0 0 0).coreExc 3 = false) := by decide +kernel

/-- Of O36: an aligned and a misaligned local access with nothing in its way, and one to the fabric with room in the store
buffer and without; a reservation that covers the word and none; an atomic outside SRAM. -/
theorem witness_Qc32Memory :
    ([(wordI 0x10 0x8000, .ld), (wordI 0x11 0x4004, .ldu), (wordI 0x12 0, .st), (wordI 0x13 0x8000, .lr), (wordI 0x14 0x8000, .sc),
      (wordI 0x15 0x8000, .tas)].all (fun p => runsOp p.1 p.2)) = true ∧
    (let w := wordI 0x15 0x8000; let s := coreAt w 0x3FFFC 0 0; let a := qEa (s.gpr 3 (qRa w)) w;
      s.gib ≤ 16 ∧ (s.coreS 3).prog = 0 ∧ a < 0x40000 ∧ a % qSize w = 0 ∧
        s.memc.merge.find? (fun e => e.addr == ownSys 3 a / 8 * 8) = none ∧ Tbl.get 0 s.memc.sramErr (ownSys 3 a / 8 * 8) = 0 ∧
        (s.coreS 3).sb.any (fun e => overlaps a (qSize w) e.addr e.bytes.length) = false ∧
        (s.coreS 3).sb = [] ∧ (s.coreS 3).haltReq = 0 ∧ Tbl.find s.memc.resv 3 ≠ some (ownSys 3 a / 8 * 8)) ∧
    (let w := wordI 0x14 0x8000; let s : State := { coreAt w 0x3FFFC 0 0 with memc := { resv := [(3, ownSys 3 0x3FFF8)] } };
      s.coreWord 3 = some w ∧ Tbl.find s.memc.resv 3 = some (ownSys 3 0x3FFFC / 8 * 8)) ∧
    (let w := wordI 0x12 0x8000; let s := coreAt w 0x103FFFFC 0 0;
      s.coreMap 3 (qEa (s.gpr 3 (qRa w)) w) = .fabric 0x10003FFFFC ∧ (s.coreS 3).sb.length < 4) ∧
    (let w := wordI 0x12 0x8000; let s := coreAt w 0x103FFFFC 0 0 [] (List.replicate 4 { addr := 0x10000000, sys := some 0x1000000000, bytes := [], issued := none });
      s.coreWord 3 = some w ∧ 4 ≤ (s.coreS 3).sb.length) ∧
    (let w := wordI 0x13 0x8000; (qEa ((coreAt w 1 0 0).gpr 3 (qRa w)) w % 4 ≠ 0 ∧ (coreAt w 1 0 0).coreExc 3 = false) ∧
      qEa ((coreAt w 0x20000000 0 0).gpr 3 (qRa w)) w % 4 = 0 ∧
      (coreAt w 0x20000000 0 0).atomicAt 3 (qEa ((coreAt w 0x20000000 0 0).gpr 3 (qRa w)) w) = none) := by decide +kernel

/-- Of O37: every system instruction as the next word; both ends of the system registers; the store buffer empty and not;
EXC 0 and 1; BRK_HALT 0 and 1; the last address of the return-stack area; the request line low and high. -/
theorem witness_Qc32System :
    ([(0x3F * 2 ^ 26 + 29 * 2 ^ 21 + 23 * 2 ^ 11, .mfs), (0x3F * 2 ^ 26 + 31 * 2 ^ 16 + 23 * 2 ^ 11 + 1, .mts), (wordX 0 2, .eret), (wordX 31 3, .trap),
      (wordX 0 4, .brk), (wordX 0 5, .syncI), (wordX 0 6, .drain), (0x3F * 2 ^ 26 + 31 * 2 ^ 16 + 7, .stksave),
      (0x3F * 2 ^ 26 + 31 * 2 ^ 16 + 8, .stkload), (wordX 0 9, .wfi)].all (fun p => runsOp p.1 p.2)) = true ∧
    ([0, 1, 2, 3, 4, 5, 6, 7, 8, 10, 16, 23].all (fun r => qSr (0x3F * 2 ^ 26 + 29 * 2 ^ 21 + r * 2 ^ 11) == r)) = true ∧
    (let sb : List SbEntry := [{ addr := 0x10000000, sys := some 0x1000000000, bytes := [], issued := some 0 }];
      (coreAt (wordX 0 6) 0 0 0 [] sb).coreWord 3 = some (wordX 0 6) ∧ ((coreAt (wordX 0 6) 0 0 0 [] sb).coreS 3).sb ≠ []) ∧
    ((coreAt (wordX 31 3) 0 0 0).coreExc 3 = false ∧ (coreAt (wordX 31 3) 0 0 4).coreExc 3 = true ∧
      (coreAt (wordX 31 3) 0 0 4).coreWord 3 = some (wordX 31 3)) ∧
    ((coreAt (wordX 0 4) 0 0 0).on (F.CPUn_DBG_CTRL.BRK_HALT 3) = false ∧
      ((coreAt (wordX 0 4) 0 0 0).wr (F.CPUn_DBG_CTRL.BRK_HALT 3) 1).on (F.CPUn_DBG_CTRL.BRK_HALT 3) = true) ∧
    ((coreAt 0 0x3FFBC 0 0).gpr 3 31 % 4 = 0 ∧ (coreAt 0 0x3FFBC 0 0).gpr 3 31 + 68 ≤ 0x40000) ∧
    ((coreAt (wordX 0 9) 0 0 0).irqLine 3 = false ∧
      (((((coreAt (wordX 0 9) 0 0 0).wr (F.IRQ_SRCs.EN 5) 1).wr (F.IRQ_SRCs.PRIO 5) 15).wr (F.IRQ_SRCs.TARGET 5) 3).wr (F.IRQ_SRCs.COUNT 5) 2).irqLine 3
        = true) := by decide +kernel

/-- Of O38: an interrupt to take, a store's bus error with EXC 0 and 1, an illegal word and a word that could not be
fetched with EXC 0 and 1, a breakpoint at PC, a store buffer with an entry that nothing answers and with one in SRAM. -/
theorem witness_CoreBoundaries :
    (let s := ((((coreAt 0 0 0 1).wr (F.IRQ_SRCs.EN 5) 1).wr (F.IRQ_SRCs.PRIO 5) 15).wr (F.IRQ_SRCs.TARGET 5) 3).wr (F.IRQ_SRCs.COUNT 5) 2;
      s.coreFree 3 = true ∧ s.storeErr 3 = none ∧ s.intTaken 3 = true) ∧
    ((coreAt 0 0 0 0).on (F.CPUn_STATUS.WFI 3) = false ∧ (coreAt 0 0 0 0).intTaken 3 = false ∧ (coreAt 0 0 0 0).bpHit 3 = false ∧
      ((coreAt 0 0 0 0).coreS 3).sb = [] ∧ State.reset.coreWord 3 = none) ∧
    (let s : State := { coreAt 0 0 0 0 with memc := { lateErr := [(3, 7)] } }; s.coreFree 3 = true ∧ s.storeErr 3 = some 7 ∧ s.coreExc 3 = false) ∧
    (let s : State := { coreAt 0 0 0 4 with memc := { lateErr := [(3, 7)] } }; s.coreFree 3 = true ∧ s.storeErr 3 = some 7 ∧ s.coreExc 3 = true) ∧
    ((coreAt 0xFFFFFFFF 0 0 0).coreWord 3 = some 0xFFFFFFFF ∧ qMnem 0xFFFFFFFF = none ∧ (coreAt 0xFFFFFFFF 0 0 0).coreExc 3 = false ∧
      (coreAt 0xFFFFFFFF 0 0 4).coreWord 3 = some 0xFFFFFFFF ∧ (coreAt 0xFFFFFFFF 0 0 4).coreExc 3 = true) ∧
    (let s : State := { coreAt 0 0 0 4 with cores := [(3, { pref := [none], status := 4 })] };
      s.coreFree 3 = true ∧ s.storeErr 3 = none ∧ s.intTaken 3 = false ∧ (s.coreS 3).pref.head? = some none ∧ s.coreExc 3 = true) ∧
    (let s : State := { coreAt 0 0 0 0 with cores := [(3, { pref := [none] })] };
      s.coreFree 3 = true ∧ s.storeErr 3 = none ∧ s.intTaken 3 = false ∧ (s.coreS 3).pref.head? = some none ∧ s.coreExc 3 = false) ∧
    (let s := ((coreAt 0 0 0 0).wr (F.CPUn_BPk.EN 3 3) 1).wr (F.CPUn_BPk.ADDR 3 3) 0x40;
      s.coreLive 3 = true ∧ s.on (F.CPUn_STATUS.HALTED 3) = false ∧ s.coreIdle 3 = true ∧ s.bpHit 3 = true) ∧
    (let s := coreAt 0 0 0 0 [] [{ addr := 0x50000, sys := none, bytes := [1#8], issued := some 5 }];
      s.boot.tripped = false ∧ (s.coreS 3).waiting = none ∧ s.on (F.CPUn_CTRL.RESET 3) = false ∧ (s.coreS 3).haltReq = 0 ∧
        (s.coreS 3).sb = [{ addr := 0x50000, sys := none, bytes := [1#8], issued := some 5 }]) ∧
    (regionOf State.reset.gib 0x1000000003 = .sram 0 ∧ [1#8].length ≤ 4 - 0x1000000003 % 4) := by decide +kernel

/-- Of O39: a core that runs, one that is halted, with an ADD to step over, one in reset; the words of CPUn_CTRL. -/
theorem witness_CoreDebugAndReset :
    (let s := coreAt 0 0 0 0; s.on (F.CPUn_STATUS.HALTED 3) = false ∧ s.on (F.CPUn_STATUS.IN_RESET 3) = false ∧
      s.on (F.CPUn_CTRL.RESET 3) = false ∧ s.coreIdle 3 = true ∧ (s.coreS 3).sb = []) ∧
    (let s : State := ((coreAt 0 0 0 0).wr (F.CPUn_STATUS.HALTED 3) 1).setBytes (ownSys 3 0x100) (leBytes 4 (wordA 0 0));
      s.on (F.CPUn_STATUS.HALTED 3) = true ∧ s.on (F.CPUn_STATUS.IN_RESET 3) = false ∧ s.on (F.CPUn_CTRL.RESET 3) = false ∧
        s.coreIdle 3 = true ∧ s.storeErr 3 = none ∧ s.on (F.CPUn_DBG_CTRL.STEP_IRQ 3) = false ∧
        (s.fetchWord 3 (s.coreS 3).pc).1 = some (wordA 0 0) ∧ qMnem (wordA 0 0) = some .add) ∧
    ((1 : Nat).testBit 0 = true ∧ (2 : Nat).testBit 0 = false ∧ State.reset.on (F.CPUn_STATUS.IN_RESET 3) = true) := by decide +kernel

/-- Of O40: a source that qualifies, without and with events of this cycle, and none; a stack of one and an empty one; the
first and last source. -/
theorem witness_InterruptController :
    (let s := stWith [(F.IRQ_SRCs.EN 338, 1), (F.IRQ_SRCs.PRIO 338, 15), (F.IRQ_SRCs.TARGET 338, 3), (F.IRQ_SRCs.COUNT 338, 255)];
      s.Calm ∧ (s.irqBest 3).map (fun e => e.1) = some 338 ∧ Tbl.find s.cycNow.rc (32 * R.IRQ_SRCs 338 + 8) = none ∧
        ({ s with cyc := { rc := [(32 * R.IRQ_SRCs 338 + 8, (8, 254, 1))] } } : State).irqCycle 338 = (254, 1)) ∧
    (State.reset.Calm ∧ State.reset.irqBest 0 = none ∧ State.reset.irqStack 0 = [] ∧ State.reset.boot.sby ≠ 5) ∧
    (let s : State := { State.reset with irqStk := [(3, [15])] }; s.Calm ∧ s.irqStack 3 = 15 :: []) ∧ 1 ≤ 1 ∧ 338 ≤ 338 := by
  unfold State.Calm
  decide +kernel

/-- Of O41: GO and no GO, a check in each of its results, an active configuration with a software event on the last
channel, a channel locked and not. -/
theorem witness_SluiceConfiguration :
    (State.reset.Calm ∧ (1 : Nat).testBit 0 = true ∧ (2 : Nat).testBit 0 = false ∧ State.reset.on F.SLC_STATUS.BUSY = false ∧ State.reset.slc.act = []) ∧
    (let s := fun snap : Tbl Word => ({ stWith [(F.SLC_STATUS.BUSY, 1), (F.SLC_CHn_CFG.LOCK 5, 1)] with slc := { snap } } : State);
      let s2 := s [(R.SLC_CHn_CFG 63, 0x190#32)]; let s3 := s [(R.SLC_CHn_CFG 5, 0x180#32)]; let s4 := s [(R.SLC_CELLk_IN01 0, 0x160#32)];
      let s1 := s [(R.SLC_CHn_CFG 63, 0x1FF#32)];
      (s2.Calm ∧ s2.on F.SLC_STATUS.BUSY = true ∧ cfgCodeBad s2.slc.snap = true) ∧
      (s3.Calm ∧ cfgCodeBad s3.slc.snap = false ∧ s3.slcLockBad s3.slc.snap = true) ∧
      (s4.Calm ∧ cfgCodeBad s4.slc.snap = false ∧ s4.slcLockBad s4.slc.snap = false ∧ cfgLoops s4.slc.snap ≠ []) ∧
      (s1.Calm ∧ cfgCodeBad s1.slc.snap = false ∧ s1.slcLockBad s1.slc.snap = false ∧ cfgLoops s1.slc.snap = [])) ∧
    (let s : State := { State.reset with slc := { act := [(R.SLC_CHn_CFG 63, w32 (0x180 + 15))] } };
      s.Calm ∧ 15 < 16 ∧ 63 < 64 ∧ s.slc.act = [(R.SLC_CHn_CFG 63, w32 (0x180 + 15))] ∧ s.slc.ch.testBit 63 = false ∧
        s.rd (F.SLC_CHn_STAT.CLASS 63) = 0 ∧ s.boot.sby = 0) ∧
    (let s : State := { State.reset with slc := { act := [(R.SLC_CHn_CFG 63, 0x160#32), (R.SLC_CELLk_CFG 0, 0x10000#32)] } };
      0 ∈ cfgCone s.slc.act 32 (codeCells [bitsOf (cfgWord s.slc.act (R.SLC_CHn_CFG 63)) 0 9,
        bitsOf (cfgWord s.slc.act (R.SLC_CHn_CFG 63)) 16 9]) ∧ (s.cellCfg 0).reg = true ∧ (s.cellCfg 0).clk = false) ∧
    ((stWith [(F.SLC_CHn_CFG.LOCK 63, 1)]).on (F.SLC_CHn_CFG.LOCK 63) = true ∧ State.reset.on (F.SLC_CHn_CFG.LOCK 0) = false) := by
  unfold State.Calm
  decide +kernel

/-- Of O42: pins without a change of function due; the last pin's function written as it is, to one it has, to one that a
timer's second capture pin takes too, and to one it has not; a pad that the part drives, that
is driven from outside or by its pull in each setting; a filter window; a task event; a bank whose level agrees and
differs; the Standby states; TICK_OUT high. -/
theorem witness_PinsAndBanks :
    (∀ e, e ∈ State.reset.pin → e.2.mux = none) ∧
    (bitsOf (State.reset.func 95) 0 3 = State.reset.func 95 ∧ (bitsOf 1 0 3 ≠ State.reset.func 95 ∧ funcOk 95 (bitsOf 1 0 3) = true) ∧
      (bitsOf 7 0 3 ≠ State.reset.func 95 ∧ funcOk 95 (bitsOf 7 0 3) = false)) ∧
    (let s := stWith [(F.PMX_PINp.FUNC 79, 2)];
      bitsOf 2 0 3 ≠ s.func 95 ∧ funcOk 95 (bitsOf 2 0 3) = true ∧
        1 < ((s.wr (F.PMX_PINp.FUNC 95) 2).capPins (95 % 16)).length) ∧
    ((stWith [(F.GPIO_OEb.OE 5, 0x8000)]).pinsDue.padDrive 95 = some false) ∧
    (let u := State.reset.pinsDue;
      u.padDrive 95 = none ∧ 1 < 2 ∧ 2 ≤ 2 ∧ (u.pinFilt 95).1 = 0 ∧ u.pinRaw 95 ≠ (1 == 1) ∧
      u.on F.GPIO_SBY_CTRL.HELD = false ∧ (u.pinS 95).busy = none ∧ u.slcTake 4 95 = none) ∧
    ([1, 2, 3].all (fun v => (stWith [(F.GPIO_PINp_CFG.PULL 95, v)]).pinsDue.rd (F.GPIO_PINp_CFG.PULL 95) == v)) = true ∧
    (let s := stWith [(F.GPIO_SBY_CTRL.HELD, 1), (F.GPIO_PINp_SBY.SPULL 95, 1)];
      s.pinsDue.on F.GPIO_SBY_CTRL.HELD = true ∧ s.pinsDue.rd (F.GPIO_PINp_SBY.SPULL 95) = 1) ∧
    (let s : State := { State.reset with pin := [(95, { busy := some 7 })], slc := { due := [(4, 95, 6)] }, tickOut := some 600 };
      (s.pinsDue.pinS 95).busy = some 7 ∧ (s.pinsDue.slcTake 4 95).isSome = true ∧ s.tickOut = some 600) ∧
    (State.reset.bankOff 5 = false ∧ (stWith [(F.GPIO_BANKb_CFG.V33 5, 1), (F.GPIO_BANKb_CFG.VSENSE 5, 1)]).bankOff 5 = false ∧
      (stWith [(F.GPIO_BANKb_CFG.V33 5, 1)]).on (F.GPIO_BANKb_CFG.V33 5) = true ∧ State.reset.on (F.GPIO_BANKb_CFG.V33 5) = false) ∧
    ((1 : Nat).testBit 0 = true ∧ (2 : Nat).testBit 0 = false ∧ (stWith [(F.GPIO_SBY_CTRL.HELD, 1)]).on F.GPIO_SBY_CTRL.HELD = true ∧
      State.reset.on F.GPIO_SBY_CTRL.HELD = false ∧ State.reset.tickOut = none) := by
  decide +kernel

/-- Engine 15 is in state `st` and is about to begin an instruction of operation `op`. -/
def cloveAt (st op : Nat) (tx rx : List Nat) : State :=
  { ((stWith [(F.CLVn_CTRL.STATE 15, st), (F.CLVn_CTRL.ENABLE 15, 1), (F.CLVn_SREG.STATE 15, 31)]).setReg (R.CLVn_PROGi_LO 15 31)
      (op * 2 ^ 28)).setReg (R.CLVn_PROGi_HI 15 31) 0x1001FF with clv := [(15, { tx, rx, cycAt := 9 })] }

/-- Of O43: every operation about to begin, in RUNNING and from STARTING, its FIFO with room or a word and without; an
engine that begins none. -/
theorem witness_CloveOperations :
    (State.reset.rd (F.CLVn_CTRL.STATE 15) ≠ 1 ∧ (State.reset.clvArm 15).clvReady 15 = false) ∧
    ((cloveAt 1 0 [] []).rd (F.CLVn_CTRL.STATE 15) = 1 ∧ (cloveAt 1 0 [] []).on (F.CLVn_CTRL.ENABLE 15) = true) ∧
    ([1, 2].all (fun st => (List.range 16).all (fun op => let u := (cloveAt st op [] []).clvArm 15;
      u.clvReady 15 && clvOp (u.clvWord 15) == op))) = true ∧
    (((cloveAt 2 3 [9] []).clvArm 15).clvS 15).tx = 9 :: [] ∧ (((cloveAt 2 3 [] []).clvArm 15).clvS 15).tx = [] ∧
    (((cloveAt 2 4 [] [1, 2, 3]).clvArm 15).clvS 15).rx.length < 4 ∧
    4 ≤ (((cloveAt 2 4 [] [1, 2, 3, 4]).clvArm 15).clvS 15).rx.length := by decide +kernel

/-- Of O44: an engine OFF and one whose start is not over; one that runs and one that stops, stalled, in its last cycle and
in an earlier one; FIFOs with room, full, empty, full while a FETCH is due; a core read in the cycle of a stalled DEPOSIT;
a trigger taken in and none, with TRIG_PEND clear and set, and cleared by an instruction of the same cycle. -/
theorem witness_CloveCommands :
    (let s := State.reset.clvFollow 15;
      s.rd (F.CLVn_CTRL.STATE 15) = 0 ∧ (1 : Nat).testBit 0 = true ∧ (1 : Nat).testBit 1 = false ∧ (3 : Nat).testBit 1 = true ∧
        (0 : Nat).testBit 0 = false ∧ (2 : Nat).testBit 0 = false ∧ 31 < 32 ∧ (s.clvS 15).tx.length < 4 ∧
        (State.reset.clvS 15).rx = [] ∧ State.reset.slcTake 3 15 = none) ∧
    (let s : State := { stWith [(F.CLVn_CTRL.STATE 15, 1)] with clv := [(15, { cycAt := 6 })] };
      s.now < (s.clvS 15).cycAt ∧ (s.clvFollow 15).rd (F.CLVn_CTRL.STATE 15) = 1) ∧
    ([2, 3].all (fun st => let s : State := { stWith [(F.CLVn_CTRL.STATE 15, st)] with clv := [(15, { stalled := true })] };
      (s.clvFollow 15).rd (F.CLVn_CTRL.STATE 15) == st && ((s.clvFollow 15).clvS 15).stalled)) = true ∧
    ([2, 3].all (fun st => let s : State := { stWith [(F.CLVn_CTRL.STATE 15, st)] with clv := [(15, { begun := true, left := 1 })] };
      (s.clvFollow 15).rd (F.CLVn_CTRL.STATE 15) == st && !((s.clvFollow 15).clvS 15).stalled && ((s.clvFollow 15).clvS 15).begun &&
        decide (((s.clvFollow 15).clvS 15).left ≤ 1))) = true ∧
    (let s : State := { ((stWith [(F.CLVn_CTRL.STATE 15, 2)]).setReg (R.CLVn_PROGi_LO 15 0) (13 * 2 ^ 20)) with clv := [(15, { begun := true, left := 1 })] };
      let v := (s.clvFollow 15).reach 0;
      v.trigNow 15 = none ∧ bitsOf (v.clvWord 15) 20 4 = 13) ∧
    (let s : State := { stWith [(F.CLVn_CTRL.STATE 15, 2)] with clv := [(15, { begun := true, left := 2, tx := [1, 2, 3, 4], rx := [9] })],
                                                                 slc := { due := [(3, 15, 6)] } };
      1 < ((s.clvFollow 15).clvS 15).left ∧ ((s.clvFollow 15).clvS 15).tx.length = 4 ∧ (s.clvFollow 15).fetchDue 15 = false ∧
        (s.clvS 15).rx = 9 :: [] ∧ (s.clvS 15).stalled = false ∧ (s.clvFollow 15).rd (F.CLVn_CTRL.STATE 15) ≠ 0 ∧
        (s.slcTake 3 15).isSome = true ∧ s.on (F.CLVn_STATUS.TRIG_PEND 15) = false) ∧
    (let s : State := { cloveAt 2 3 [1, 2, 3, 4] [] with now := 9 };
      ((s.clvFollow 15).clvS 15).tx.length = 4 ∧ (s.clvFollow 15).fetchDue 15 = true) ∧
    (let s : State := { cloveAt 2 4 [] [] with now := 9, clv := [(15, { rx := [7, 1, 2, 3], stalled := true, cycAt := 9 })] };
      (s.clvS 15).rx = 7 :: [1, 2, 3] ∧ (s.clvS 15).stalled = true ∧ (s.clvS 15).cycAt / 3 = s.now / 3 ∧
        clvOp (s.clvWord 15) = 4 ∧ (s.clvS 15).begun = false ∧ s.rd (F.CLVn_CTRL.STATE 15) = 2 ∧ [1, 2, 3].length < 4) ∧
    (let s : State := { ((stWith [(F.CLVn_CTRL.STATE 15, 2), (F.CLVn_STATUS.TRIG_PEND 15, 1)]).setReg (R.CLVn_PROGi_LO 15 0) (13 * 2 ^ 20)) with
        clv := [(15, { begun := true, left := 1, cycEnd := 6 })], slc := { due := [(3, 15, 6)] } };
      s.on (F.CLVn_STATUS.TRIG_PEND 15) = true ∧
        (match s.slcTake 3 15 with
          | some (t0, x) => let y := x.reach t0;
            y.clvEnds 15 && (bitsOf (s.clvWord 15) 20 4 == 13) && y.trigNow 15 == none
          | none => false) = true) ∧
    (let s : State := { stWith [(F.CLVn_CTRL.STATE 15, 2), (F.CLVn_STATUS.TRIG_PEND 15, 1)] with slc := { due := [(3, 15, 6)] } };
      s.on (F.CLVn_STATUS.TRIG_PEND 15) = true ∧ (s.slcTake 3 15).isSome = true ∧ s.clvEnds 15 = false) := by decide +kernel

/-- Of O45: a timer OFF, STARTING and STOPPING before and after their time, one that counts, one whose count clock falls in
the cycle of a clear, one that is frozen; a wrap and a match outstanding; both capture edges; a task
event with each action, also in the cycle of a one-shot's stop; buffered and direct compares; a read in the cycle of a
capture. -/
theorem witness_TimerCommands :
    ((State.reset.tmrS 15).wrapped = false ∧ (State.reset.tmrS 15).hit = 0 ∧ State.reset.tmrState 15 = 0 ∧ State.reset.capOn 15 = false ∧
      State.reset.slcTake 2 15 = none ∧ State.reset.on (F.TMRn_CTRL.CMP_BUF 15) = false ∧
      (State.reset.tmrFollow 15).tmrState 15 = 0 ∧ ((State.reset.tmrFollow 15).tmrS 15).shot ≠ some ((State.reset.tmrFollow 15).now / 3) ∧
      State.reset.capOld (State.reset.tmrS 15).capROld = none ∧ State.reset.capOld (State.reset.tmrS 15).capFOld = none) ∧
    (let s : State := { stWith [(F.TMRn_CTRL.STATE 15, 1), (F.TMRn_CTRL.ENABLE 15, 1), (F.TMRn_CTRL.STATE 14, 3)] with
        now := 5, tmr := [(14, { moveAt := 6 }), (15, { moveAt := 5 })] };
      s.now < (s.tmrS 14).moveAt ∧ (s.tmrS 15).moveAt ≤ s.now ∧ s.tmrState 15 = 1 ∧ s.on (F.TMRn_CTRL.ENABLE 15) = true ∧
        ({ s with now := 6 } : State).tmrState 14 = 3 ∧ (s.tmrS 14).moveAt ≤ 6 ∧ s.on (F.TMRn_CTRL.ENABLE 14) = false ∧
        (s.tmrFollow 14).tmrState 14 ≠ 0) ∧
    (let s := stWith [(F.TMRn_CTRL.STATE 15, 2), (F.TMRn_CTRL.CAP_EN 15, 1), (F.TMRn_CTRL.CAP_INV 15, 1), (F.TMRn_CTRL.CMP_BUF 15, 1)];
      let f := s.tmrFlush 15; let u := (if f.tmrState 15 = 1 then f.reach (f.tmrS 15).moveAt else f).tmrFollow 15;
      (u.tmrState 15 = 2 ∧ (u.tmrS 15).frozen = none ∧ u.clearDue 15 (u.tmrS 15).nextAt = false ∧
        ({ u with slc := { due := [(2, 15, 0)] } } : State).clearDue 15 (u.tmrS 15).nextAt = false ∧
        ({ u.wr (F.TMRn_TASK.ACTION 15) 1 with slc := { due := [(2, 15, 0)] } } : State).clearDue 15 (u.tmrS 15).nextAt = true) ∧
        (s.tmrFollow 15).capOn 15 = true ∧ (s.tmrFollow 15).capNow 15 = true ∧ ((s.tmrFollow 15).tmrS 15).capLevel = false ∧
        s.on (F.TMRn_CTRL.CMP_BUF 15) = true ∧ bitsOf 0x10 4 4 ≠ s.rd (F.TMRn_CTRL.PRE 15) ∧ (s.tmrFollow 15).tmrState 15 = 2) ∧
    (let s : State := { stWith [(F.TMRn_CTRL.STATE 15, 2), (F.TMRn_CTRL.CAP_EN 15, 1)] with
        tmr := [(15, { wrapped := true, capLevel := true, frozen := some 1, hit := 8 })] };
      (s.tmrS 15).wrapped = true ∧ ((s.tmrFlush 15).tmrS 15).frozen.isSome = true ∧ (s.tmrFollow 15).capOn 15 = true ∧
        (s.tmrFollow 15).capNow 15 = false ∧ ((s.tmrFollow 15).tmrS 15).capLevel = true ∧ s.on (F.TMRn_CTRL.ONESHOT 15) = false ∧
        (s.wr (F.TMRn_CTRL.ONESHOT 15) 1).on (F.TMRn_CTRL.ONESHOT 15) = true) ∧
    (let s : State := { State.reset with tmr := [(15, { hit := 8 })] };
      (s.tmrS 15).wrapped = false ∧ (s.tmrS 15).hit.testBit 3 = true ∧ (s.tmrS 15).hit.testBit 2 = false) ∧
    (let s : State := { stWith [(F.TMRn_TASK.ACTION 15, 1), (F.TMRn_TASK.ACTION 0, 2)] with slc := { due := [(2, 15, 6), (2, 0, 6)] } };
      (s.slcTake 2 15).isSome = true ∧ s.rd (F.TMRn_TASK.ACTION 15) = 1 ∧ (s.slcTake 2 0).isSome = true ∧
        s.rd (F.TMRn_TASK.ACTION 0) = 2 ∧ s.rd (F.TMRn_TASK.ACTION 1) ≠ 1 ∧ s.rd (F.TMRn_TASK.ACTION 1) ≠ 2 ∧
        (s.tmrS 0).shot ≠ some (6 / 3) ∧
        ((s.modTmr 0 (fun x => { x with shot := some 2 })).tmrS 0).shot = some (6 / 3)) ∧
    (let s : State := { State.reset with tmr := [(15, { shot := some 0, capROld := some (0, 7, true, false), capFOld := some (0, 7, true, true) })] };
      ((s.tmrFollow 15).tmrS 15).shot = some ((s.tmrFollow 15).now / 3) ∧
        s.capOld (s.tmrS 15).capROld = some (7, true, false) ∧ s.capOld (s.tmrS 15).capFOld = some (7, true, true)) := by
  refine ⟨?_, ?_, ?_, ?_, ?_, ?_, ?_⟩
  all_goals decide +kernel

/-- Mailbox slot `k` holds a command at the head of the order: CODE, envelope (session, SEQ, tag), body. -/
def slotWith (s : State) (k code : Nat) (tag : Option (Nat × Nat × Nat)) (body : List Byte) (len : Nat) : State :=
  let hdr := leBytes 4 (code + (if tag.isSome then 256 else 0) + len * 65536) ++ List.replicate 12 0#8
  let env : List Byte := match tag with
    | none => []
    | some (i, seq, tag) => leBytes 4 (s.rd (F.SEC_SESSs_SID.SID i)) ++ leBytes 4 seq ++ beBytes 24 tag
  let b := hdr ++ env ++ body
  let s := s.setSlotSt k 1
  { s with hst := { s.hst with order := [k], mb := (List.range ((b.length + 3) / 4)).map (fun i => (256 * k + i, w32 (leAt b (4 * i) 4))) } }

/-- Session 3 is open with privilege 3, SEQ 4 and a key. -/
def sess : State :=
  { stWith [(F.SEC_SESSs_CTRL.OPEN 3, 1), (F.SEC_SESSs_SID.SID 3, 0x1003), (F.SEC_SESSs_CTRL.PRIV 3, 3), (F.SEC_SESSs_SEQ.SEQ 3, 4)] with
    sec := { keys := [(3, List.replicate 48 7#8)], operators := [(List.replicate 97 4#8, 2)], nonces := [(List.replicate 48 9#8, 0)] } }

/-- The body of an OPEN with nonce byte `n`, privilege `p` and operator `k`. -/
def openBody (n p k : Nat) : List Byte := List.replicate 48 (BitVec.ofNat 8 n) ++ [BitVec.ofNat 8 p, BitVec.ofNat 8 k] ++ List.replicate 198 0#8

def tagOk (s : State) (k priv : Nat) : Bool :=
  match s.tagCheck k priv with
  | .inl _ => false
  | .inr i => i == 3

/-- Of O46: commands at the head of the order and none; LEN at its limit and above; an unknown session, a right tag; a
nonce that is known, one that is not, operators and privileges that exist and do not; the sign unit with each of its
requests; sessions open, in use and closed. -/
theorem witness_SessionCommands :
    (State.reset.sec.closing = [] ∧ State.reset.mbNext ≠ some 7) ∧
    ([(0x01, 0), (0x02, 0), (0x10, 1), (0x11, 1), (0x12, 0), (0x13, 3), (0x14, 3), (0x15, 3), (0x20, 0)].all (fun p =>
      (let s := slotWith sess 7 p.1 none [] 1009; s.mbNext == some 7 && s.mbCode 7 == p.1 && decide (1008 < s.mbLen 7)) &&
      (let s := slotWith sess 7 p.1 none [] 1008; s.mbCode 7 == p.1 && decide (s.mbLen 7 ≤ 1008) && !s.mbTagged 7) &&
      (let s := slotWith sess 7 p.1 (some (0, 5, 0)) [] 32; s.mbNext == some 7 && s.mbCode 7 == p.1 && s.mbTagged 7 && !tagOk s 7 p.2))) = true ∧
    ([(0x10, 0xa50cf12bd1e09d93044607eafb369cddf159fb12da7d7a0b), (0x11, 0xd1e6fb929fd4217ac4fc5e026e89514722b62cd35d104b43)].all (fun p => let c := p.1; let s := slotWith sess 7 c (some (3, 5, p.2)) [] 32;
      s.mbNext == some 7 && s.mbCode 7 == c && s.mbTagged 7 && tagOk s 7 1)) = true ∧
    (sess.sec.trngBad = false ∧ ({ sess with sec := { trngBad := true } } : State).sec.trngBad = true) ∧
    (let b := fun n p k => (slotWith sess 7 0x02 none (openBody n p k) 248).mbBytes 7 0x10 248;
      (∀ e ∈ sess.sec.nonces, e.1 = (b 8 1 0).take 48 → e.2 + sess.nonceTtl ≤ sess.now) ∧
      (∃ e ∈ sess.sec.nonces, e.1 = (b 9 2 0).take 48 ∧ sess.now < e.2 + sess.nonceTtl) ∧
      sess.sec.operators[leAt (b 9 1 1) 0x31 1]? = none ∧
      (sess.sec.operators[leAt (b 9 3 0) 0x31 1]? = some (List.replicate 97 4#8, 2) ∧ 2 < leAt (b 9 3 0) 0x30 1) ∧
      (1 ≤ leAt (b 9 2 0) 0x30 1 ∧ leAt (b 9 2 0) 0x30 1 ≤ 2)) ∧
    (let s : State := { State.reset with sec := { signJob := some (.attest 7), report := List.replicate 288 1#8 } };
      s.sec.signJob = some (.attest 7) ∧ s.sec.report.length = 288 ∧ State.reset.sec.signJob = none ∧ State.reset.sec.nonces = []) ∧
    (let s : State := { sess with sec := { signJob := some (.openRsp 7), opening := some { priv := 3, keyIdx := 7, sid := 2 ^ 32 - 1, devEpk := List.replicate 97 1#8 } } };
      (∃ o, s.sec.opening = some o ∧ o.devEpk.length = 97 ∧ o.priv ≤ 3 ∧ o.keyIdx < 8 ∧ o.sid < 2 ^ 32) ∧ s.sec.busy = none ∧
        (List.range 4).find? (fun j => !s.on (F.SEC_SESSs_CTRL.OPEN j)) = some 0) ∧
    (sess.on (F.SEC_SESSs_CTRL.OPEN 3) = true ∧ sess.sec.busy ≠ some 3 ∧ sess.on (F.SEC_SESSs_CTRL.OPEN 0) = false ∧
      ({ sess with sec := { busy := some 3 } } : State).sec.busy = some 3) := by
  refine ⟨by decide +kernel, by decide +kernel, by decide +kernel, by decide +kernel,
    ⟨by decide +kernel, by decide +kernel, by decide +kernel, by decide +kernel, by decide +kernel⟩, by decide +kernel,
    ⟨⟨_, rfl, by decide +kernel⟩, by decide +kernel, by decide +kernel⟩, by decide +kernel⟩

/-- The body of OTP_PROGRAM and PROVISION for slot `n` with hash byte `h`. -/
def otpBody (n h : Nat) : List Byte := [BitVec.ofNat 8 n, 0#8, 0#8, 0#8] ++ List.replicate 48 (BitVec.ofNat 8 h)

/-- Of O47: tagged commands with a slot beyond the last, a hash that lacks a bit, one that adds one; a revocation that would
leave no usable slot and one that leaves one; the counter below and at SVN; PROVISION before and after; agents at both
ends of C0-C3; an operation with a bit left; the TRNG failed and not. -/
theorem witness_OtpAndTrng :
    (let t := fun (s : State) c (tag : Nat) body => slotWith s 7 c (some (3, 5, tag)) body (32 + body.length);
      let p : State := { sess with sec := { sess.sec with otpHash := [(0, 5), (1, 7)] } };
      (let s := t p 0x13 0x3da863860b9acc5bb4cc77b20717647719a680e340b7936a (otpBody 4 255); s.sec.closing = [] ∧ tagOk s 7 3 = true ∧ s.mbNext = some 7 ∧ s.mbLen 7 ≤ 1008 ∧ s.mbTagged 7 = true ∧
        s.mbCode 7 = 0x13 ∧ 4 ≤ leAt (s.mbBytes 7 0x30 52) 0 1) ∧
      (let s := t p 0x13 0 (otpBody 0 2); s.otpHash 0 &&& beVal ((s.mbBytes 7 0x30 52).drop 4) ≠ s.otpHash 0) ∧
      (let s := t p 0x13 0 (otpBody 3 255); leAt (s.mbBytes 7 0x30 52) 0 1 = 3 ∧ s.sec.ops = [] ∧
        s.otpHash 3 &&& beVal ((s.mbBytes 7 0x30 52).drop 4) = s.otpHash 3 ∧
        (s.otpNext { item := 3, val := beVal ((s.mbBytes 7 0x30 52).drop 4) }).isSome = true) ∧
      (let s := t { sess with sec := { sess.sec with otpHash := [(0, 5)] } } 0x14 0 [0#8, 0#8, 0#8, 0#8];
        s.mbCode 7 = 0x14 ∧ leAt (s.mbBytes 7 0x30 1) 0 1 = 0 ∧ ∀ j, j < 4 → j ≠ 0 → s.usable j = false) ∧
      (let s := t p 0x14 0 [1#8, 0#8, 0#8, 0#8]; leAt (s.mbBytes 7 0x30 1) 0 1 = 1 ∧ s.usable 0 = true ∧ s.sec.revoked.testBit 1 = false) ∧
      (let s := t p 0x15 0x1eb4c838de3fc05eedbe5c8708e72cefb2563779b76c607e []; s.mbCode 7 = 0x15 ∧ tagOk s 7 3 = true ∧ s.rd F.SEC_OTP.SVN ≤ ones64 s.sec.counter) ∧
      (let s := t (p.wr F.SEC_OTP.SVN 1) 0x15 0 []; ones64 s.sec.counter < s.rd F.SEC_OTP.SVN ∧ ones64 s.sec.counter < 64)) ∧
    (let s := slotWith State.reset 7 0x20 none (otpBody 3 255) 52; s.mbNext = some 7 ∧ s.mbCode 7 = 0x20 ∧ s.mbTagged 7 = false ∧
      s.mbLen 7 ≤ 1008 ∧ s.provisioned = false ∧ s.sec.ops = [] ∧ leAt (s.mbBytes 7 0x10 52) 0 1 < 4 ∧
        (s.otpNext { item := 3, val := beVal ((s.mbBytes 7 0x10 52).drop 4) }).isSome = true) ∧
    (let s : State := { State.reset with sec := { otpHash := [(0, 5)], ops := [{ item := 3, val := 2 ^ 383 }] } };
      s.provisioned = true ∧ s.sec.ops = { item := 3, val := 2 ^ 383 } :: [] ∧ s.otpNext { item := 3, val := 2 ^ 383 } = some 383) ∧
    (0x1F < 0x20 ∧ 0x23 < 0x24 ∧ 0x20 ≤ 0x20 ∧ 0x23 ≤ 0x23) ∧
    (State.reset.sec.trngBad = false ∧ ({ State.reset with sec := { trngBad := true } } : State).sec.trngBad = true) := by decide +kernel

/-- An entry of a register list (R445). -/
def entry (op a v arg : Nat) : List Byte := leBytes 4 op ++ leBytes 4 a ++ leBytes 4 v ++ leBytes 4 arg

/-- The boot executes list `which`, whose entry at hand is `e`, before an END. -/
def atEntry (which : Nat) (e : List Byte) : State :=
  { State.reset with boot := { did := 6, list := some { which, bytes := e ++ entry 3 0 0 0, ix := 0, t := 0 } } }

/-- The next section to load: step, TYPE, FLAGS and digest, of the 16 erased bytes at flash offset 0x1000. -/
def loading (step typ flags : Nat) (digest : Nat) : State :=
  { stWith [(F.HBM_STATUS.TRAINED, 1)] with
    boot := { size := 8, did := 14, secs := [(step, 0)],
              flash := ((leBytes 4 typ ++ leBytes 4 flags ++ leBytes 4 0x1000 ++ leBytes 4 16 ++ leBytes 8 0 ++ beBytes 48 digest).zipIdx.map
                (fun e => (0x200 + e.2, e.1))) } }

/-- Of O48: power-up with and without programmed slots and flash; HBM trained once and before; stacks of the right and of
another height; sections whose digest fails and passes; each list entry, met and not met. -/
theorem witness_BootAndLists :
    (State.reset.boot.start = none ∧ State.reset.provisioned = false ∧ ({ State.reset with boot := { start := some 0 } } : State).boot.start.isSome = true ∧
      ({ State.reset with sec := { otpHash := [(3, 1)] } } : State).provisioned = true) ∧
    (State.reset.boot.did.testBit 1 = false ∧
      (let s : State := { State.reset with boot := { did := 2 } }; s.boot.did.testBit 1 = true ∧ s.boot.did.testBit 2 = false ∧
        s.rd F.BOOT_STATUS.PHASE ≠ 11 ∧ 2 * 8 = s.gib ∧ 2 * 4 ≠ s.gib ∧ 8 < 16)) ∧
    State.reset.boot.secs = [] ∧
    (let s := loading 9 1 1 0; s.boot.secs = (9, 0) :: [] ∧ s.on F.HBM_STATUS.TRAINED = true ∧ s.boot.did.testBit 3 = true ∧
      sha384 (s.flashBytes (s.imageAt 0 + (s.section_ 0 0).off) (s.section_ 0 0).size) ≠ (s.section_ 0 0).digest) ∧
    (let s := loading 8 2 0 0; s.boot.secs = (8, 0) :: [] ∧ s.boot.list = none ∧ (s.section_ 0 0).flags % 2 = 0 ∧ (s.section_ 0 0).typ ≠ 1) ∧
    (let s := loading 3 1 0 0x98a758d1fa668efbbdc48e2e24ad8950204cf518ced324738d3124ea0f32154ae5ad205ed2a544f4f003e06a337d2956;
      s.boot.secs = (3, 0) :: [] ∧ (s.section_ 0 0).typ = 1 ∧ s.rd F.BOOT_STATUS.IMAGE = 0 ∧
        sha384 (s.flashBytes (s.imageAt 0 + (s.section_ 0 0).off) (s.section_ 0 0).size) = (s.section_ 0 0).digest) ∧
    (State.reset.listEntry 0 = none ∧ State.reset.listEntry 1 = none ∧ State.reset.listEntry 2 = none ∧ State.reset.listEntry 3 = none) ∧
    (let s := atEntry 1 (entry 0 (R.CLVn_CLKDIV 15) 5 0); let u := s.regWrite 0x30 (R.CLVn_CLKDIV 15) 5;
      (s.listEntry 0).isSome = true ∧ R.CLVn_CLKDIV 15 % 4 = 0 ∧ u.boot.list = s.listEntry 0 ∧
        (s.listEntry 0).all (fun r => r.word 1 == R.CLVn_CLKDIV 15 && r.word 2 == 5 && decide (r.which < 4) && decide (r.ix < 65536) &&
          decide (16 * (r.ix + 1) + 16 ≤ r.bytes.length) && decide (({ r with ix := r.ix + 1, t := u.now } : ListRun).word 0 ≤ 3)) = true) ∧
    (let s := atEntry 2 (entry 1 R.BOOT_STATUS 0 0xF); (s.listEntry 1).all (fun r => r.word 1 % 4 == 0 &&
      ((s.regRead 0x30 (r.word 1)).1 &&& r.word 3) == r.word 2 && decide (16 * (r.ix + 1) + 16 ≤ r.bytes.length)) = true ∧ s.listEntry 1 ≠ none) ∧
    (let s := atEntry 2 (entry 1 R.BOOT_STATUS 1 0xF); (s.listEntry 1).all (fun r =>
      ((s.regRead 0x30 (r.word 1)).1 &&& r.word 3) != r.word 2 && !s.boot.did.testBit 9) = true ∧ s.listEntry 1 ≠ none) ∧
    ((atEntry 1 (entry 2 0 0 100001)).listEntry 2 ≠ none) ∧
    ((atEntry 1 (entry 3 0 0 0)).listEntry 3 ≠ none ∧ (atEntry 1 (entry 3 0 0 0)).boot.sby ≠ 6 ∧ (atEntry 2 (entry 3 0 0 0)).listEntry 3 ≠ none ∧
      ({ atEntry 3 (entry 3 0 0 0) with boot := { (atEntry 3 (entry 3 0 0 0)).boot with sby := 6 } } : State).listEntry 3 ≠ none) := by
  decide +kernel

/-- A wake that has its HBM back and is to restore, with a recorded hash. -/
def waking (h : List Byte) : State := { stWith [(F.HBM_STATUS.TRAINED, 1)] with boot := { sby := 6, wakeStep := 1, wakeSize := 0x100000, rec_ := { hash := h } } }

theorem bytes_congr {s t : State} (h : s.mem = t.mem) (a n : Nat) : s.bytes a n = t.bytes a n := by
  simp [State.bytes, State.byte, h]

/-- The restore of the wake reads its area, whatever hash was recorded. -/
theorem witness_WakeRestore (h : List Byte) :
    ({ waking h with now := max (waking h).now ((waking h).boot.wakeAt + 3600000), boot := { (waking h).boot with wakeStep := 2 } } : State).busRead 0x30
      (waking h).boot.wakeBase (waking h).boot.wakeSize =
    (.ok ((waking []).bytes 0 0x100000), { waking h with now := max (waking h).now ((waking h).boot.wakeAt + 3600000), boot := { (waking h).boot with wakeStep := 2 } }) := by
  have o : (stWith [(F.HBM_STATUS.TRAINED, 1)]).on F.HBM_STATUS.TRAINED = true := by decide
  have ho : ({ waking h with now := max (waking h).now ((waking h).boot.wakeAt + 3600000), boot := { (waking h).boot with wakeStep := 2 } } : State).hbmOpen = true :=
    (Bool.or_eq_true _ _).mpr (.inl o)
  refine (State.busRead_hbm_clean rfl rfl ho _ _ _ (by show 0 + 0x100000 ≤ 2 ^ 30 * 16; decide)).trans ?_
  show (BusRes.ok (State.bytes _ 0 0x100000), _) = _
  rw [bytes_congr (t := waking []) rfl]
  rfl

theorem waking_hash (x : List Byte) : (∃ h, x = (waking h).boot.rec_.hash) ∧ ∃ h, x ≠ (waking h).boot.rec_.hash :=
  ⟨⟨x, rfl⟩, 0#8 :: x, fun e => List.cons_ne_self 0#8 x (id (e : x = 0#8 :: x)).symm⟩

/-- Of O49: ENTER outside its phases and in them, with ticks and without; each Standby state and none; a wake event of a
watched source, of another, none; a wake at each of its steps; hashes that match and do not; a device reset due. -/
theorem witness_StandbyAndWake :
    (State.reset.rd F.BOOT_STATUS.PHASE ≠ 9 ∧ State.reset.rd F.BOOT_STATUS.PHASE ≠ 10 ∧ 2 ≤ (waking []).boot.sby) ∧
    (let s := stWith [(F.BOOT_STATUS.PHASE, 9)]; s.boot.sby < 2 ∧ s.rd F.BOOT_STATUS.PHASE = 9 ∧ s.running = false) ∧
    (let s := stWith [(F.BOOT_STATUS.PHASE, 10), (F.ENG_TICK_CTRL.RUN, 1)]; s.rd F.BOOT_STATUS.PHASE = 10 ∧ s.running = true) ∧
    (State.reset.boot.sby ≠ 2 ∧ State.reset.boot.sby ≠ 3 ∧ State.reset.boot.sby ≠ 4 ∧ State.reset.boot.sby ≠ 6 ∧ State.reset.boot.wakeDue = []) ∧
    (let s := fun n => ({ State.reset with boot := { sby := n, wakeT := if n = 4 then some 9 else none } } : State);
      (s 2).boot.sby = 2 ∧ (s 3).boot.sby = 3 ∧ (s 4).boot.sby = 4 ∧ (s 4).boot.wakeT = some 9 ∧ (s 3).boot.wakeT = none) ∧
    (let s : State := { stWith [(F.IRQ_WAKEk.EN 31, 1), (F.IRQ_WAKEk.SRC 31, 338)] with boot := { sby := 5, wakeDue := [(338, 7)] } };
      s.boot.wakeDue = [(338, 7)] ∧ s.wakeSlots 338 = 31 :: [] ∧ s.boot.sby = 5 ∧ s.boot.wakeT = none ∧ s.wakeSlots 1 = []) ∧
    (let s := fun n => ({ State.reset with boot := { sby := 6, wakeStep := n, runHeld := true } } : State);
      (s 0).boot.sby = 6 ∧ (s 0).boot.wakeStep = 0 ∧ (s 2).boot.wakeStep = 2 ∧ (s 2).boot.list = none ∧ (s 3).boot.wakeStep = 3 ∧
        (s 3).boot.runHeld = true ∧ State.reset.boot.runHeld = false) ∧
    ((waking []).boot.wakeStep = 1 ∧ (∃ h, sha384 ((waking []).bytes 0 0x100000) = (waking h).boot.rec_.hash) ∧
      (∃ h, sha384 ((waking []).bytes 0 0x100000) ≠ (waking h).boot.rec_.hash)) ∧
    (State.reset.hst.resetAt = none ∧ ({ State.reset with hst := { resetAt := some 4 } } : State).hst.resetAt = some 4) := by
  refine ⟨by decide, by decide, by decide, by decide, by decide, by decide, by decide, ⟨rfl, waking_hash _⟩, by decide⟩

/-- Of O50: no fault of the cycle; one that was taken in it, of a class that the write names, with every other class pending. -/
theorem witness_FaultAcknowledgement :
    (State.reset.Calm ∧ State.reset.fltNow = none) ∧
    (let s := ((stWith [(F.FLT_CLASS.PEND, 0x7F), (F.FLT_CLASS.LVL, 0x5555)]).fault 0x46 4095).settle;
      s.Calm ∧ (∃ y, s.fltNow = some y ∧ y.set = [(0x46, 4095)] ∧ y.rec_ = false) ∧ (faultInfo 0x46).isSome = true ∧
        s.on (F.FLT_SRCs_CFG.EN 0x46) = true ∧ ∀ c, c < 8 → (0xFF : Nat).testBit c = true) := by
  unfold State.Calm
  exact ⟨by decide, by decide, ⟨_, rfl, by decide, by decide⟩, by decide, by decide, by decide⟩

/-- Of O51: one fault waits, of a source that is enabled and of one that is not, with a log that has room and a full one,
with the class pending and not. -/
theorem witness_FaultsEscalate :
    (let s : State := { stWith [(F.FLT_CLASS.PEND, 0x7F), (F.FLT_CLASS.LVL, 0x5555)] with raised := [(0x46, 4095)] };
      ({ s with raised := [] } : State).Calm ∧ s.fltNow = none ∧ s.raised = [(0x46, 4095)] ∧ (faultInfo 0x46).isSome = true ∧
        s.on (F.FLT_SRCs_CFG.EN 0x46) = true ∧ s.flt.log.length < 32) ∧
    (let s : State := { stWith [(F.FLT_SRCs_CFG.EN 1, 0)] with raised := [(1, 0)], flt := { log := List.replicate 32 ⟨1, 0, false, 0, 0⟩ } };
      ({ s with raised := [] } : State).Calm ∧ s.fltNow = none ∧ s.raised = [(1, 0)] ∧ (faultInfo 1).isSome = true ∧
        s.on (F.FLT_SRCs_CFG.EN 1) = false ∧ 32 ≤ s.flt.log.length) := by
  unfold State.Calm
  decide

/-- Of O52: two faults of one source with the later INST first, a log with room for two. -/
theorem witness_FaultsOfOneCycle :
    let s : State := { State.reset with raised := [(0x46, 4095)], flt := { log := List.replicate 30 ⟨1, 0, false, 0, 0⟩ } }
    ({ s with raised := [] } : State).Calm ∧ s.fltNow = none ∧ s.raised = [(0x46, 4095)] ∧ s.flt.log.length ≤ 30 ∧
      (faultInfo 0x46).isSome = true ∧ s.on (F.FLT_SRCs_CFG.EN 0x46) = true ∧ 4095 < 4096 ∧ 4094 < 4096 ∧
      ((0x46, 4094).1 < (0x46, 4095).1 ∨ (0x46, 4094).1 = (0x46, 4095).1 ∧ (0x46, 4094).2 < (0x46, 4095).2) := by
  unfold State.Calm
  decide

/-- Of O53: a pulse and none; NORMAL and not, with a fault of the cycle and none; AUTO 1 and 0; a quiet timer at MS and below;
locked and not; a log to pop; temperatures at HOT and CRIT, one below, 5 °C below. -/
theorem witness_FaultUnitCommands :
    (State.reset.Calm ∧ State.reset.on F.FLT_STATUS.PULSING = false ∧ State.reset.rd F.FLT_STATUS.STATE = 0 ∧ State.reset.fltLocked = false ∧
      (0 : Nat).testBit 1 = false ∧ (0 : Nat).testBit 0 = false ∧ (1 : Nat).testBit 0 = true ∧ State.reset.flt.log.length ≤ 32 ∧
      State.reset.fltNow = none ∧ State.reset.boot.sby ≠ 5 ∧ State.reset.quietTimer < State.reset.quietMs) ∧
    (let s := (State.reset.fault 0x46 4095).settle;
      s.Calm ∧ s.rd F.FLT_STATUS.STATE ≠ 0 ∧ s.flt.lastT = s.now ∧ (∃ y, s.fltNow = some y ∧ y.set = [(0x46, 4095)] ∧ y.rec_ = false)) ∧
    (let s := (({ State.reset with flt := { log := List.replicate 32 ⟨1, 0, false, 0, 0⟩ } } : State).fault 0x46 4095).settle;
      s.Calm ∧ (∃ y, s.fltNow = some y ∧ y.set = [(0x46, 4095)] ∧ y.rec_ = false ∧ y.log.length ≤ 32 ∧ 0 < y.log.length) ∧
        (faultInfo 0x46).isSome = true ∧ s.on (F.FLT_SRCs_CFG.EN 0x46) = true) ∧
    (let s : State := { stWith [(F.FLT_STATUS.PULSING, 1), (F.FLT_STATUS.STATE, 2)] with now := 2000 * 600000 };
      s.Calm ∧ s.on F.FLT_STATUS.PULSING = true ∧ s.rd F.FLT_STATUS.STATE ≠ 0 ∧ s.flt.lastT ≠ s.now ∧ s.on F.FLT_CTRL.AUTO = true ∧
        s.quietMs ≤ s.quietTimer) ∧
    ((stWith [(F.FLT_CTRL.AUTO, 0)]).on F.FLT_CTRL.AUTO = false ∧ (stWith [(F.FLT_CTRL.LOCK, 1)]).fltLocked = true) ∧
    (({ State.reset with boot := { sby := 5 } } : State).boot.sby = 5) ∧
    (sext 16 (State.reset.rd F.FLT_THERM.HOT) ≤ sext 16 0x6400 ∧ State.reset.flt.hotArmed = true ∧ sext 16 0x63FF < sext 16 (State.reset.rd F.FLT_THERM.HOT) ∧
      sext 16 (State.reset.rd F.FLT_THERM.CRIT) ≤ sext 16 0x7FFF ∧ State.reset.flt.critArmed = true ∧
      ({ State.reset with flt := { hotArmed := false } } : State).flt.hotArmed = false) := by
  unfold State.Calm
  exact ⟨by decide, ⟨by decide, by decide, by decide, _, rfl, by decide, by decide⟩,
    ⟨by decide, ⟨_, rfl, by decide, by decide, by decide, by decide⟩, by decide, by decide⟩, by decide, by decide, by decide, by decide⟩

/-- Of O54: Standby and not, the link up and down, in D0 and D3hot, entries waiting or none and an interrupt held; each host
privilege; the last bytes of the window; outbound requests carried and not, a blitter that reads host memory. -/
theorem witness_HostLinkAndBars :
    (State.reset.boot.sby ≠ 5 ∧ State.reset.on F.HST_LINK.UP = false ∧ State.reset.hostPriv < 3 ∧ State.reset.hostUp = false ∧ State.reset.hst.ents = []) ∧
    (({ State.reset with boot := { sby := 5 } } : State).boot.sby = 5) ∧
    (let s : State := { stWith [(F.HST_LINK.UP, 1), (F.HST_LINK.D3HOT, 1), (F.HST_CQq_CFG.VEC 3, 63)] with hst := { cq := [(3, { held := true })], msix := [(255, 0#32)] } };
      s.on F.HST_LINK.UP = true ∧ s.on F.HST_LINK.D3HOT = true ∧ s.hst.ents = [] ∧ (s.cqS 3).held = true ∧
        s.msixWord (4 * s.rd (F.HST_CQq_CFG.VEC 3) + 3) = 0) ∧
    ((stWith [(F.SEC_STATUS.MAXPRIV, 0)]).hostPriv = 0) ∧
    (let s := stWith [(F.SEC_STATUS.MAXPRIV, 1), (F.HBM_STATUS.TRAINED, 1), (F.HST_BAR2_WIN.BASE, 0x3FFF)];
      1 ≤ s.hostPriv ∧ 4 ≤ 2 ^ 34 - (s.rd F.HST_BAR2_WIN.BASE * 2 ^ 20 + 0xFFFFC) % 2 ^ 34 ∧
        ∃ b x, s.busRead 0x86 ((s.rd F.HST_BAR2_WIN.BASE * 2 ^ 20 + 0xFFFFC) % 2 ^ 34) 4 = (.ok b, x)) ∧
    (let s := stWith [(F.SEC_STATUS.MAXPRIV, 3)]; s.hostPriv = 3 ∧ [1, 2].length ≤ 2 ^ 34 - (s.rd F.HST_BAR2_WIN.BASE * 2 ^ 20 + 0) % 2 ^ 34) ∧
    (let s : State := { stWith [(F.HST_LINK.UP, 1), (F.HST_LINK.BME, 1)] with
        blt := { run := some { q := 0, words := [1 + 0xF0 * 65536, 0x1000, 0x80, 0, 3 + 65536 * 2, 0x80], t0 := 1, wm := false } },
        dma := [(63, { phase := .move, desc := { src := 0x8000000000 } })], obj := { src := 0x8000000000, left := 1 } };
      s.hostUp = true ∧ s.boot.tripped = false ∧ 0x1F < 0x20 ∧ 0x24 ≤ 0x24 ∧ 0x3F < 0x40 ∧ 0x83 < 0x84 ∧
        (∃ b, s.bltTo.blt.run = some b ∧ b.rows < b.height ∧ hostAddr (bltDst b.words) = true) ∧
        ((s.dmaS 63).phase = .move ∧ hostAddr ((s.dmaS 63).desc.srcAt (s.dmaS 63).pos) = true) ∧ (s.dmaS 0).phase ≠ .move ∧
        (s.dmaS 0).phase ≠ .fetch ∧ s.obj.left ≠ 0 ∧ hostAddr s.obj.src = true) ∧
    (let s : State := { State.reset with blt := { run := some { q := 0, words := [1], t0 := 1, wm := false } } };
      State.reset.bltTo.blt.run = none ∧ State.reset.obj.left = 0 ∧
        ∃ b, s.bltTo.blt.run = some b ∧ hostAddr (bltSrc b.words) = false ∧ hostAddr (bltDst b.words) = false) := by
  refine ⟨by decide, by decide, by decide, by decide, ⟨by decide, by decide, _, _, State.busRead_hbm_clean rfl rfl (by decide) _ _ _ (by decide)⟩, by decide,
    ⟨by decide, by decide, by decide, by decide, by decide, by decide, ⟨_, rfl, by decide, by decide⟩, by decide, by decide, by decide, by decide, by decide⟩,
    ⟨by decide, by decide, _, rfl, by decide, by decide⟩⟩

/-- Of O55: entries waiting and none; a doorbell for slots that are IDLE and BUSY; a queue full and with room at the end of its
ring; D3hot; a link that carries nothing; moderation by count and by timer; MSI-X enabled and not. -/
theorem witness_CompletionQueues :
    (State.reset.hst.ents = [] ∧ (State.reset.cqS 0).timer = none ∧ State.reset.on F.HST_LINK.MSIX_EN = false) ∧
    (let s := State.reset.setSlotSt 7 1; 7 < 8 ∧ (0x80 : Nat).testBit 7 = true ∧ s.slotSt 7 = 1 ∧ s.slotSt 6 = 0) ∧
    (let s : State := { stWith [(F.HST_CQq_CFG.LOG2 0, 4)] with hst := { ents := [7] } };
      s.hst.ents = 7 :: [] ∧ s.hostUp = false ∧ s.on F.HST_LINK.D3HOT = false ∧ s.cqFull (s.mbQueue 7) = false ∧
        (s.wr F.HST_LINK.D3HOT 1).on F.HST_LINK.D3HOT = true) ∧
    (let s : State := { stWith [(F.HST_LINK.UP, 1), (F.HST_LINK.BME, 1), (F.HST_CQq_CFG.LOG2 0, 4), (F.HST_CQq_TAIL.TAIL 0, 15)] with hst := { ents := [7] } };
      s.hst.ents = 7 :: [] ∧ s.cqFull (s.mbQueue 7) = true) ∧
    (let s : State := { stWith [(F.HST_LINK.UP, 1), (F.HST_LINK.BME, 1), (F.HST_CQq_CFG.LOG2 0, 4), (F.HST_CQq_TAIL.TAIL 0, 15), (F.HST_CQq_HEAD.HEAD 0, 1), (F.HST_CQq_MOD.COUNT 0, 2),
        (F.HST_CQq_MOD.TIMER 0, 1)] with hst := { ents := [7] } };
      s.hst.ents = 7 :: [] ∧ s.hostUp = true ∧ s.cqFull (s.mbQueue 7) = false ∧ s.mbQueue 7 = 0 ∧ s.hst.resetSlot ≠ some 7 ∧ (s.cqS 0).held = false ∧
        (s.cqS 0).unc + 1 < max 1 (s.rd (F.HST_CQq_MOD.COUNT 0)) ∧ s.rd (F.HST_CQq_MOD.TIMER 0) ≠ 0) ∧
    (let s : State := { stWith [(F.HST_LINK.UP, 1), (F.HST_LINK.BME, 1), (F.HST_LINK.MSIX_EN, 1), (F.HST_CQq_CFG.LOG2 0, 4), (F.HST_CQq_TAIL.TAIL 0, 15), (F.HST_CQq_HEAD.HEAD 0, 1),
        (F.HST_CQq_MOD.COUNT 0, 2), (F.HST_CQq_MOD.TIMER 0, 1), (F.HST_CQq_CFG.VEC 0, 63)] with
        hst := { ents := [7], cq := [(0, { unc := 1, timer := some 5 })], msix := [(255, 0#32)] } };
      s.hostUp = true ∧ s.cqFull (s.mbQueue 7) = false ∧ s.on F.HST_LINK.MSIX_EN = true ∧ s.on F.HST_LINK.D3HOT = false ∧ s.hst.fmask = false ∧
        s.msixWord (4 * s.rd (F.HST_CQq_CFG.VEC 0) + 3) = 0 ∧ max 1 (s.rd (F.HST_CQq_MOD.COUNT 0)) ≤ (s.cqS 0).unc + 1 ∧
        (s.cqS 0).timer = some 5) ∧
    (let s : State := { stWith [(F.HST_LINK.MSIX_EN, 1), (F.HST_CQq_CFG.VEC 3, 63)] with hst := { cq := [(3, { held := true })] } };
      63 < 64 ∧ (s.cqS 3).held = true ∧ s.rd (F.HST_CQq_CFG.VEC 3) = 63 ∧ s.on F.HST_LINK.MSIX_EN = true) := by decide

/-- A flash command's body with OFFSET and SIZE. -/
def flashBody (o n : Nat) : List Byte := leBytes 4 o ++ leBytes 4 n

/-- Of O56: codes of the core, of the firmware at both ends, and unknown; READY 0 and 1; a tagged command that passes; a
firmware command to answer and none; flash ranges that end with the flash and beyond it, aligned and not. -/
theorem witness_FirmwareAndFlashCommands :
    (State.reset.mbNext ≠ some 7 ∧ coreCode 0x33 = true ∧ State.reset.hst.exec = none) ∧
    (let s := slotWith sess 7 0x3F none [] 1008; s.sec.closing = [] ∧ s.mbNext = some 7 ∧ coreCode (s.mbCode 7) = false ∧ s.mbLen 7 ≤ 1008 ∧ s.mbCode 7 < 0x40) ∧
    (let s := slotWith sess 7 0x40 none [] 0; coreCode (s.mbCode 7) = false ∧ s.on F.HST_FW_CTRL.READY = false) ∧
    (let s := slotWith (sess.wr F.HST_FW_CTRL.READY 1) 7 0x7F (some (3, 5, 0x0b4e6e0574b4b2bbe7ecaf91dcf027a29c1b0bb6c009e5ad)) [] 32;
      s.mbNext = some 7 ∧ coreCode (s.mbCode 7) = false ∧ s.mbLen 7 ≤ 1008 ∧ 0x40 ≤ s.mbCode 7 ∧ s.mbCode 7 ≤ 0x7F ∧ s.on F.HST_FW_CTRL.READY = true ∧
        s.mbTagged 7 = true ∧ tagOk s 7 (fwPriv (s.mbCode 7)) = true) ∧
    (let s : State := { sess with hst := { exec := some 7, fw := true } }; s.hst.exec = some 7 ∧ s.hst.fw = true ∧ s.sec.busy = none) ∧
    ([0x30, 0x31, 0x32, 0x33].all (fun c => let s := slotWith (sess.wr F.BOOT_STATUS.PHASE 11) 7 c none (flashBody 0 0) 8;
      s.mbNext == some 7 && s.mbCode 7 == c && !s.mbTagged 7 && s.flashFree)) = true ∧
    (let s := slotWith { sess with sec := { sess.sec with otpHash := [(0, 1)] } } 7 0x30 none (flashBody 0 0) 8;
      s.mbNext = some 7 ∧ s.mbTagged 7 = false ∧ s.flashFree = false) ∧
    (let s := slotWith { (sess.wr F.BOOT_STATUS.PHASE 10) with boot := { size := 1 } } 7 0x30 (some (3, 5, 0xdd967ff06afe63f7b731596f6210e32370f06cfe3fd763f3)) (flashBody 0x10000 0x10000) 40;
      s.mbTagged 7 = true ∧ tagOk s 7 3 = true ∧ s.flashBusy = false ∧ leAt (s.mbBytes 7 (s.mbBody 7) 8) 0 4 = 0x10000 ∧
        0x10000 % 65536 = 0 ∧ 0xF0000 + 0x10000 ≤ s.flashSize ∧ s.flashSize < 0x100000 + 0x10000 ∧ 0x8000 % 65536 ≠ 0 ∧ 0x100000 - 960 + 960 ≤ s.flashSize ∧
        s.flashSize < 0x100000 - 959 + 960) := by decide +kernel

/-- Of O57: aligned and misaligned offsets, through BAR0 and from inside, Standby, the host below and at MAINTAIN, ticks and none, offsets at both ends of
what is not assigned. -/
theorem witness_RegisterWrites :
    (4 % 4 = 0 ∧ 5 % 4 ≠ 0 ∧ 0x20 ≠ 0x86 ∧ ({ State.reset with boot := { sby := 5 } } : State).boot.sby = 5 ∧ State.reset.boot.sby ≠ 5) ∧
    ((stWith [(F.SEC_STATUS.MAXPRIV, 2)]).hostPriv = 2 ∧ hostWrites 2 0x13FFC = false) ∧
    ((stWith [(F.SEC_STATUS.MAXPRIV, 3)]).hostPriv = 3 ∧ (stWith [(F.ENG_TICK_CTRL.RUN, 1)]).running = true ∧ State.reset.running = false) ∧
    (0x14000 % 4 = 0 ∧ 0x1FFFC < 0x20000 ∧ 0x780000 % 4 = 0 ∧ 0x7FFFFC < 0x800000) := by decide

/-- Of O58, O59: a command at the front, and none, with and without a configured fabric; a step from a calm state that
answers a next state. -/
theorem witness_StepTakesTheFrontCommand :
    ({ State.reset with pending := [.mbDoorbell 1, .resync] } : State).pending = .mbDoorbell 1 :: [.resync] ∧ State.reset.pending = [] ∧
      State.reset.slc.act = [] ∧
      (let s : State := { State.reset with slc := { act := [(R.SLC_CHn_CFG 63, 0x18F#32)] } }; s.pending = [] ∧ s.Calm ∧ s.slc.act ≠ []) := by
  unfold State.Calm
  decide +kernel

theorem witness_StepsEndCalm :
    (let s : State := { State.reset with pending := [.hpdPlug 1] }; s.Calm ∧ (match step s with
      | .next _ => true
      | _ => false) = true) := by
  unfold State.Calm
  decide

/-- The key pair of RFC 6979 A.2.6 for P-384: the public key, the r of its signatures, and their s for a tile's and
an OPEN's message, worked out outside the model. -/
def rfcKey : List Byte := 4#8 :: (beBytes 48 0xEC3A4E415B4E19A4568618029F427FA5DA9A8BC4AE92E02E06AAE5286B300C64DEF8F0EA9055866064A254515480BC13 ++
  beBytes 48 0x8015D9B72D7D57244EA8EF9AC0C621896708A59367F9DFB9F54CA84B3F1C9DB1288B231C3AE0D4FE7344FD2533264720)
def rfcR : Nat := 0x94EDBB92A5ECB8AAD4736E56C691916B3F88140666CE9FA73D64C4EA95AD133C81A648152E44ACF96E36DD1E80FABE46
def tileSig : Nat := 0x447db6fe9f03b12c2f9165ef55a4af7ae246986bf5859b0177b8de3429866d4cd1d3b02436b3e77b3e752c9c1fcd79a9
def openSig : Nat := 0xc0302625ba273b916868375ca309ed438174215da6701f5bc8799f29914dcc3f8ebf571cbd1d7eab62597fb21a38e059

/-- Of O23 and O46: signatures that verify and that do not, of a tile and of an OPEN with free slots and without; an OPEN
whose key agreement and whose response are under way, also one that was shut meanwhile. -/
theorem witness_Signatures :
    (let s : State := { State.reset with
        sec := { verRun := [(.tile 1535 0, 8)], enrolled := [beBytes 48 77] },
        chain := [(1535, { step := 2, keyhash := 77, pubkey := beVal rfcKey, sig := rfcR * 2 ^ 384 + tileSig })] };
      let ok := fun (m : Nat) => ecVerify (beBytes 97 (s.chT 1535).pubkey)
        (sha384 (beBytes 48 (s.chT 1535).nonce ++ (beBytes 4 (s.rd (F.PLK_TILE1.UID_HI 1535)) ++ beBytes 4 (s.rd (F.PLK_TILE2.UID_LO 1535))) ++
          [BitVec.ofNat 8 m])) (beBytes 96 (s.chT 1535).sig);
      s.sec.verRun = (.tile 1535 0, 8) :: [] ∧ (s.chT 1535).step = 2 ∧ ok (1535 % 64) = true ∧ ok 62 = false) ∧
    (let body := fun (x : Nat) => (openBody 9 2 0).take 152 ++ beBytes 48 rfcR ++ beBytes 48 (x + openSig);
      let s := fun x => slotWith { sess with sec := { sess.sec with operators := [(rfcKey, 2)], verRun := [(.session 7, 5)], opening := some {} } } 7 2 none (body x) 248;
      let ok := fun x => let b := (s x).mbBytes 7 ((s x).mbBody 7) 248;
        ecVerify rfcKey (sha384 (b.take 0x98 ++ leBytes 8 (s x).sec.devId)) (b.drop 0x98);
      (s 0).sec.closing = [] ∧ (s 0).sec.verRun = (.session 7, 5) :: [] ∧ (s 0).sec.opening = some {} ∧ (s 0).sec.busy = none ∧
        (s 0).sec.operators[({} : OpenOp).keyIdx]? = some (rfcKey, 2) ∧ ok 0 = true ∧ ok 1 = false ∧ (s 0).on (F.SEC_SESSs_CTRL.OPEN 0) = false ∧
        (s 0).sec.trngBad = false ∧
        ((List.range 4).all (fun j => (stWith ((List.range 4).map (fun i => (F.SEC_SESSs_CTRL.OPEN i, 1)))).on (F.SEC_SESSs_CTRL.OPEN j))) = true) ∧
    (let s : State := { sess with sec := { signJob := some (.ecdh 7), opening := some {} } };
      s.sec.closing = [] ∧ s.sec.opening = some {} ∧ s.sec.signJob = some (.ecdh 7)) ∧
    (let s : State := { sess with sec := { signJob := some (.openRsp 7), opening := some { shut := true, devEpk := List.replicate 97 1#8 } } };
      s.sec.signJob = some (.openRsp 7) ∧ s.sec.busy = none ∧ s.on (F.SEC_SESSs_CTRL.OPEN 0) = false ∧
        (∃ o, s.sec.opening = some o ∧ o.devEpk.length = 97 ∧ o.shut = true)) :=
  ⟨by decide +kernel, by decide +kernel, by decide +kernel, by decide +kernel, by decide +kernel, by decide +kernel, ⟨_, rfl, by decide +kernel, rfl⟩⟩

/-- Of O8, O12, O16, O18: arrays without a wrong bit; a STOP outstanding with 33 and 32 cells in the receive buffer; a held
cell to resend with an uncorrectable word, and one without; a line whose word in the FIFO cannot be corrected. -/
theorem witness_OnChipArrays :
    (∀ e ∈ State.reset.memc.arrErr, e.1 ≠ .pal 16 16383) ∧ (∀ e ∈ State.reset.memc.arrErr, e.1 ≠ .lut 23 511) ∧
    ([32, 33].all (fun n => let s := ((stWith [(F.PLKn_LSTAT.LSTATE 23, 3)]).modLane 23 (fun x => { x with stopSent := some 3 })).modPort 23 (fun p => { p with rxBuf := n });
      s.laneSt 23 == 3 && (s.laneS 23).stopSent == some 3 && (s.portS 23).rxBuf == n)) = true ∧
    (let h : Held := { seq := 7, q := { cell := { typ := 4 }, bad := [(63, 7)] }, tSent := 5 };
      let s := State.reset.modLane 24 (fun x => { x with st := 3, resend := [7], retry := [h] });
      s.laneSt 24 = 3 ∧ (s.laneS 24).stopAt = none ∧ (s.laneS 24).resend = 7 :: [] ∧ (s.laneS 24).retry.find? (fun x => x.seq == 7) = some h ∧
        h.q.bad = [(63, 7)] ∧ bchDecode 7 = none) ∧
    (let s := State.reset.modLane 24 (fun x => { x with st := 3, retry := [{ seq := 7, q := { cell := { typ := 4 } }, tSent := 5 }] });
      ∀ g ∈ (s.laneS 24).retry, g.q.bad = []) ∧
    (let s0 := stWith [(F.ENGn_VTIME0.V_ACTIVE 15, 16)];
     let s : State := { s0.setEng 15 { rline := s0.rasterOf 15 0 + 15, live := true, fifo := [{ k := 15, pix := [1] }] } with memc := { arrErr := [(.line 15 15 0, 7)] } };
     let v := s.reach ((s.engS 15).tStart + s.lineTime 15 (s.engS 15).rline);
     let u := (v.recoverDue.pvwFlush 15).modEng 15 (fun e => { e with rline := (s.engS 15).rline + 1 });
      v.flt.recovered = false ∧ (s.engS 15).outPrev = none ∧ (u.engS 15).fifo.find? (fun r => r.k == 15) = some { k := 15, pix := [1] } ∧
        (.line 15 15 0, 7) ∈ u.memc.arrErr ∧ ArrWord.isLine 15 15 (.line 15 15 0) = true ∧ bchDecode 7 = none) := by decide +kernel

/-- Of O35: a return stack of 16 under CALL and CALLR, in wrapping and in trapping mode, with EXC 0 and 1. -/
theorem witness_FullReturnStack :
    ([0, 4, 8, 12].all (fun st => let t := List.replicate 16 0x40; let s := coreAt 0x84000001 0 0 st t;
      let r := coreAt (0x02 * 2 ^ 26 + 31 * 2 ^ 16 + 1) 8 0 st t;
      s.coreWord 3 == some 0x84000001 && qMnem 0x84000001 == some .call && (s.coreS 3).status.testBit 3 == st.testBit 3 &&
        s.coreExc 3 == st.testBit 2 && r.coreWord 3 == some (0x02 * 2 ^ 26 + 31 * 2 ^ 16 + 1) && r.gpr 3 31 % 4 == 0 &&
        decide (16 ≤ (r.coreS 3).stack.length))) = true ∧
    ([0, 4].all (fun st => let s := coreAt 0x08000002 0 0 st; s.coreWord 3 == some 0x08000002 && qMnem 0x08000002 == some .ret &&
      (s.coreS 3).stack == [] && s.coreExc 3 == st.testBit 2)) = true ∧
    (coreAt (0x02 * 2 ^ 26 + 31 * 2 ^ 16) 9 0 4).coreExc 3 = true := by decide +kernel

/-- Of O36: a misaligned load and store about to begin, and between their parts, at the last addresses of SRAM; a
reservation, without and with another requester's write of its cycle before it. -/
theorem witness_SplitAccesses :
    ([(wordI 0x10 0x4000, QOp.ld), (wordI 0x11 0x4000, .ldu), (wordI 0x12 0x4000, .st)].all (fun p =>
      let s := coreAt p.1 0x3FFFD 7 0; let a := qEa (s.gpr 3 (qRa p.1)) p.1; let x := ownSys 3 a;
      let m : State := { s with cores := s.cores.map (fun e => (e.1, { e.2 with waiting := some (p.1, 6), between := true, prog := 1, part := [1#8] })) };
      let y := ownSys 3 (a + qSize p.1 - a % qSize p.1);
      s.coreWord 3 == some p.1 && qMnem p.1 == some p.2 && qSize p.1 == 2 && a % qSize p.1 != 0 && decide (a + qSize p.1 ≤ 0x40000) &&
        decide (s.gib ≤ 16) && (s.coreS 3).prog == 0 && (s.coreS 3).part.length == 0 && (s.coreS 3).sb.length == 0 &&
        (s.memc.merge.find? (fun e => e.addr == x / 8 * 8)).isNone && Tbl.get 0 s.memc.sramErr (x / 8 * 8) == 0 &&
        (m.coreS 3).waiting == some (p.1, 6) && (m.coreS 3).between && (m.coreS 3).prog == 1 && !m.boot.tripped &&
        !m.on (F.CPUn_CTRL.RESET 3) && qEa (m.gpr 3 (qRa p.1)) p.1 == a && (m.coreS 3).part.length == qSize p.1 - a % qSize p.1 &&
        (m.memc.merge.find? (fun e => e.addr == y / 8 * 8)).isNone && Tbl.get 0 m.memc.sramErr (y / 8 * 8) == 0)) = true ∧
    State.reset.memc.sc = [] ∧ State.reset.memc.merge = [] := by decide +kernel

/-- Of O28, O29, O30: a found trigger before and in its cycle; an event in the cycle of the clear, and one before it. -/
theorem witness_DmaTriggerFound :
    (let s := fun ta => ({ stWith [(F.DMAn_STATUS.TRIG_PEND 63, 1)] with now := 5, slc := { due := [(1, 63, 5)] }, dma := [(63, { phase := .wait, trigAt := ta })] } : State);
      (s none).dmaDue 63 = s none ∧ ((s (some 6)).dmaS 63).trigAt = some 6 ∧ ((s (some 6)).dmaS 63).phase = .wait ∧
        (s (some 6)).now < 6 ∧ 5 ≤ (s (some 5)).now ∧ ((s none).slcTake 1 63).isSome = true ∧
        ((s (some 6)).slcTake 1 63).isSome = true ∧ max (s (some 6)).now 5 < 6 ∧ 5 ≤ max (s (some 5)).now 5 ∧
        (s (some 6)).on (F.DMAn_STATUS.TRIG_PEND 63) = true) ∧
    (State.reset.dmaDueAll.dmaPick = none) := by decide +kernel

/-- Of O33: an input in lock that loses it and one that already does, its ramp at its end; PORST_N low. -/
theorem witness_InputLoss :
    (let s : State := { stWith [(F.AUD_Ip_CTRL.LOCK 3, 1), (F.AUD_Ip_CTRL.STATE 3, 2)] with aud := { inp := [(3, { frames := [(7, [1])] })] } };
      s.on (F.AUD_Ip_CTRL.LOCK 3) = true ∧ (s.inS 3).losing = false ∧ (s.inS 3).moved = false ∧ (s.inS 3).frames = (7, [1]) :: []) ∧
    (let s : State := { stWith [(F.AUD_Ip_CTRL.LOCK 3, 1), (F.AUD_Ip_CTRL.STATE 3, 2)] with
        aud := { inp := [(3, { losing := true, gain := { g0 := 1, g1 := 0, n := 48, k := 47 } })] } };
      (s.inS 3).losing = true ∧ ((s.inS 3).gain.step 5).ended = true ∧ s.rd (F.AUD_Ip_CTRL.STATE 3) = 2) ∧
    ({ State.reset with boot := { porst := true } } : State).boot.porst = true := by decide +kernel

/-- Of O42: a bank without supply and one at another voltage; a change of function that has not reached its pad and none; a
second pin of one timer input; TICK_OUT at a pin of its function. -/
theorem witness_UnsuppliedBanks :
    (({ State.reset with boot := { unpow := [5] } } : State).pinsDue.bankDead 5 = true ∧ State.reset.pinsDue.bankDead 5 = false) ∧
    ((nextOr (execBankSense 5 1 State.reset)).bankOff 5 = true ∧ State.reset.raised = [] ∧ State.reset.bankOff 5 = false ∧
      (nextOr (execBankSense 5 0 State.reset)).bankOff 5 = false) ∧
    (let s := stWith [(F.PMX_PINp.FUNC 95, 5)];
      s.func 95 = 5 ∧ s.on F.GPIO_SBY_CTRL.HELD = false ∧ s.bankOff 5 = false ∧ s.bankDead 5 = false ∧ s.muxHeld 95 = none) ∧
    (let t := nextOr (execPmxWrite 95 2 (stWith [(F.PMX_PINp.FUNC 79, 2)]));
      bitsOf 2 0 3 = 2 ∧ 1 < (t.capPins (95 % 16)).length ∧ (t.pinS 95).mux.isSome = true) ∧
    (let s := stWith [(F.GPIO_SBY_CTRL.HELD, 1)]; (1 : Nat).testBit 0 = true ∧ s.on F.GPIO_SBY_CTRL.HELD = true) := by decide +kernel

/-- Of O43, O44: engines whose start is over, with ENABLE set and cleared; one that drives a pin of a lower-numbered one,
with PIN_CONFLICT set and clear; one in STARTING; the cycle before the last; a trigger in OFF and in RUNNING. -/
theorem witness_CloveStartsAndConflicts :
    ([0, 1].all (fun e => let s := (cloveAt 1 0 [] []).wr (F.CLVn_CTRL.ENABLE 15) e;
      s.rd (F.CLVn_CTRL.STATE 15) == 1 && s.on (F.CLVn_CTRL.ENABLE 15) == (e == 1) &&
        decide ((s.clvS 15).cycAt ≤ ({ s with now := 9 } : State).now) && decide (s.now < (s.clvS 15).cycAt))) = true ∧
    ([2, 3].all (fun st => let s : State := stWith [(F.CLVn_CTRL.STATE 15, st), (F.CLVn_PINS.DIR 15, 0x80), (F.CLVn_PINS.DIR 14, 0x80),
          (F.CLVn_CTRL.STATE 14, 2), (F.PMX_PINp.FUNC 7, 1)];
      (s.clvFollow 15).rd (F.CLVn_CTRL.STATE 15) == st && (s.clvFollow 15).clvConflict 15 &&
        (s.wr (F.CLVn_STATUS.PIN_CONFLICT 15) 1).on (F.CLVn_STATUS.PIN_CONFLICT 15))) = true ∧
    (let s : State := { stWith [(F.CLVn_CTRL.STATE 15, 2)] with clv := [(15, { begun := true, left := 2, own := 1 })] };
      let c := (s.clvFollow 15).clvS 15; c.stalled = false ∧ c.begun = true ∧ c.left = 2 ∧ c.own.testBit 0 = true ∧ c.own.testBit 7 = false ∧
        (s.clvFollow 15).clvConflict 15 = false) ∧
    ([0, 2].all (fun st => let s : State := { stWith [(F.CLVn_CTRL.STATE 15, st)] with slc := { due := [(3, 15, 6)] } };
      match s.slcTake 3 15 with
      | some (t0, x) => ((x.reach t0).clvFollow 15).rd (F.CLVn_CTRL.STATE 15) == st
      | none => false)) = true := by decide +kernel

/-- Of O45: a count clock in the cycle of the clear and in another one; a captured pair that waits. -/
theorem witness_ClearedCountClock :
    (let s := fun p => ({ stWith [(F.TMRn_TASK.ACTION 15, 1), (F.TMRn_CTRL.STATE 15, 2)] with slc := { due := [(2, 15, 6)] }, tmr := [(15, { wrapped := true, hit := 15, width := 5, clock := some (p, 4), cmpBuf := [(3, 9)] })] } : State);
      [1, 2].all (fun p => match (s p).slcTake 2 15 with
        | some (t0, x) => (((x.reach t0).tmrFollow 15).tmrS 15).clock == some (p, 4) && (p == t0 / 3) == (p == 2)
        | none => false)) = true := by decide +kernel

/-- Of O49: a session whose command executes as Standby is entered, and one that does not; a wake event later in the cycle
of the first one, and in another. -/
theorem witness_StandbyEntry :
    (let s : State := { sess with boot := { sby := 0 }, sec := { sess.sec with busy := some 3 } };
      s.sec.busy = some 3 ∧ s.sec.busy ≠ some 0 ∧ s.running = false ∧ s.showDue.boot.sby < 2) ∧
    ((stWith [(F.BOOT_STATUS.PHASE, 10), (F.ENG_TICK_CTRL.RUN, 1)]).showDue.rd F.BOOT_STATUS.PHASE = 10) ∧
    (let s : State := { stWith [(F.IRQ_WAKEk.EN 31, 1), (F.IRQ_WAKEk.SRC 31, 338)] with boot := { sby := 6, wakeT := some 12, wakeDue := [(338, 23)] } };
      s.boot.wakeDue = [(338, 23)] ∧ s.wakeSlots 338 = 31 :: [] ∧ 2 ≤ s.boot.sby ∧ s.boot.wakeT = some 12 ∧ 12 / 12 = 23 / 12 ∧ 12 / 12 ≠ 24 / 12) := by
  decide +kernel

/-- Of O51: a fault of the cycle in which Standby is entered, and one of another cycle. -/
theorem witness_FaultAtStandbyEntry :
    let s : State := { State.reset with raised := [(0x46, 4095)], boot := { sby := 2 } }
    ({ s with raised := [] } : State).Calm ∧ s.fltNow = none ∧ s.raised = [(0x46, 4095)] ∧ (faultInfo 0x46).isSome = true ∧
      (decide (s.boot.sby = 2) && decide (s.boot.sbyAt = s.now)) = true ∧
      (let r := { s with now := 1 }; (decide (r.boot.sby = 2) && decide (r.boot.sbyAt = r.now)) = false) := by
  unfold State.Calm
  decide

/-- Of O54: a live engine with lines left, and without; a core that loads from host memory, from elsewhere, and none; engines
with and without a check of host memory; a frame store in host memory; a voice that plays from host memory, and none. -/
theorem witness_OutboundTimeouts :
    (let h := stWith [(F.HST_LINK.UP, 1), (F.HST_LINK.BME, 1)];
      let e := (h.wr (F.ENGn_VTIME0.V_ACTIVE 16) 16).setEng 16 { live := true, linesOut := 15, checking := some 0x8000000000 };
      h.hostUp = true ∧ h.boot.tripped = false ∧ (h.engS 16).live = false ∧ (e.engS 16).live = true ∧ (e.engS 16).linesOut < e.vActive 16 ∧
        (e.engS 16).checking = some 0x8000000000 ∧ hostAddr 0x8000000000 = true ∧ hostAddr 0x7FFFFFFFFF = false ∧
        h.fsHost = false ∧ (h.wr (F.ENGn_FS_BASE1.BASE 16) 0x80000000).fsHost = true ∧
        (∀ m, m < 16 → (e.engS m).checking = none) ∧ (∀ n, n < 17 → (h.engS n).checking = none)) ∧
    (let w := wordI 0x10 0x8000; let h := fun a => ((coreAt w a 0 0).wr F.HST_LINK.UP 1).wr F.HST_LINK.BME 1;
      (h 0x80000000).loadWord 3 = some w ∧ (h 0x40000000).loadWord 3 = some w ∧ State.reset.loadWord 3 = none ∧
        (h 0).hostLoad 3 w = none ∧ (h 0).coreExc 3 = false ∧ ((h 0).coreS 3).haltReq = 0 ∧ (h 0).on (F.CPUn_CTRL.RESET 3) = false) ∧
    (State.reset.outAudList = [] ∧
      (let s : State := { State.reset with aud := { voice := [(255, { buf := [(0x400000000, [])] })] } };
        s.outAudList = [(1, 255)] ∧ (s.voiceS 255).buf.any (fun b => hostAddr (32 * b.1)) = true) ∧
      (stWith [(F.AUD_Bb_CTRL.DLY_EN 31, 1), (F.AUD_Bb_DLY_BASE.BASE 31, 0x80000000)]).outAudList = [(2, 31)]) := by decide +kernel

/-- Of O6, O9, O10, O55, O57: no other check in the SHARE test's cycle; a flip in the tick's own cycle; caches to invalidate;
the host's write of a register below its privilege and of one within it; the next entry finds the queue full; reads that the
gate refuses and admits. -/
theorem witness_GatesAndCycles :
    (State.reset.cycNow.shr = [] ∧ (State.reset.arrive 10 33).arrived 10 33 = true) ∧
    (let s := (stWith []).setEng 15 { tcInv := true, tcBlk := [(0, [1#8])] }; (s.engS 15).tcInv = true ∧ ((s.bltTo.tcSync 15).engS 15).tcBlk = []) ∧
    (let s := stWith [(F.SEC_STATUS.MAXPRIV, 2)]; s.boot.sby ≠ 5 ∧ hostWrites s.hostPriv (R.HST_CQq_HEAD 3) = true ∧
      hostWrites s.hostPriv (0x60000 + 16 * 63 + 12) = true) ∧
    (let s := stWith [(F.SEC_STATUS.MAXPRIV, 1)]; hostWrites s.hostPriv (R.HST_CQq_HEAD 3) = false ∧ hostWrites s.hostPriv (0x60000 + 16 * 63 + 12) = false) ∧
    (let s : State := { stWith [(F.HST_LINK.UP, 1), (F.HST_LINK.BME, 1), (F.HST_CQq_CFG.LOG2 0, 4), (F.HST_CQq_TAIL.TAIL 0, 14)] with hst := { ents := [7, 6] } };
      s.hst.ents = 7 :: 6 :: [] ∧ s.hostUp = true ∧ s.cqFull (s.mbQueue 7) = false ∧ ((nextOr (execCqEntryWrite s)).cqFull (s.mbQueue 6)) = true) ∧
    (let s := stWith [(F.SEC_STATUS.MAXPRIV, 0)]; s.hostPriv = 0 ∧ 4 % 4 = 0 ∧ hostReads (R.CLVn_CLKDIV 0) = false ∧ s.boot.sby ≠ 5 ∧
      ∀ n, n < 16 → R.CLVn_CLKDIV n % 4 = 0) := by decide +kernel

/-! ### One step each: expected values worked out from the spec's rules -/

/-- The state after one step that takes `c`. -/
def stp (s : State) (c : Instr) : State := nextOr (step { s with pending := [c] })

def ascii9 : List Nat := [0x31, 0x32, 0x33, 0x34, 0x35, 0x36, 0x37, 0x38, 0x39]

/-- The published check value of the CRC-32 of IEEE 802.3 (R166). -/
theorem test_crc32_check : crcOut (ascii9.foldl crc32Byte 0xFFFFFFFF) = 0xCBF43926 := by decide +kernel

/-- The published check value of CRC-32C (R194). -/
theorem test_crc32c_check : (ascii9.foldl crc32cByte 0xFFFFFFFF) ^^^ 0xFFFFFFFF = 0xE3069283 := by decide +kernel

/-- SHA-384 of "abc", as FIPS 180-4's example gives it. -/
theorem test_sha384_abc : beVal (sha384 [0x61#8, 0x62#8, 0x63#8]) =
    0xcb00753f45a35e8bb5a03d699ac65007272c32ab0eded1631a8b605a43ff5bed8086072ba1e7cc2358baeca134c825a7 := by decide +kernel

/-- The first 80 primes. -/
def primes80 : List Nat :=
  ((List.range 410).filter (fun p => decide (2 ≤ p) && (List.range 21).all (fun d => decide (d < 2) || decide (p ≤ d) || p % d != 0)))

/-- Each SHA-384 round constant is the fraction of a prime's cube root, cut to 64 bits (FIPS 180-4). -/
theorem sha_cube_roots : (primes80.length == 80 && shaK.length == 80 && (primes80.zip shaK).all (fun e =>
    (List.range 8).any (fun j => let n := e.2 + j * 2 ^ 64; decide (n ^ 3 ≤ e.1 * 2 ^ 192) && decide (e.1 * 2 ^ 192 < (n + 1) ^ 3)))) = true := by
  decide +kernel

/-- An idle block lets one ECLK cycle pass (log 2). -/
theorem test_idle_step : (nextOr (step State.reset)).now = 1 := by decide

/-- R22: a PERIOD of 2,499,999 is refused. -/
theorem test_period_refused : let t := stp State.reset (.tickPeriodWrite false 2499999);
    t.on F.ENG_TICK_STATUS.CFG_REJECT = true ∧ t.rd F.ENG_TICK_PERIOD.PERIOD = 10000000 := by decide

/-- R38: a lost lock of VPLL 2 is fault 0x02. -/
theorem test_vpll_unlock_fault : let t := stp (stWith [(F.ENG_VPLLk_CTRL.LOCKED 2, 1)]) (.vpllUnlock 2);
    t.on (F.ENG_VPLLk_CTRL.LOCKED 2) = false ∧ t.rd (F.FLT_SRCs_CNT.COUNT 0x02) = 1 := by decide

/-- R85: PAL_DATA1 takes the high 16 bits, the hold the low 32, and ENTRY wraps under AINC. -/
theorem test_palette_write : let s := stWith [(F.ENGn_PAL_ADDR.PAL 3, 2), (F.ENGn_PAL_ADDR.ENTRY 3, 255), (F.ENGn_PAL_ADDR.AINC 3, 1)];
    let t := stp (stp s (.palData0Write 3 0x89ABCDEF)) (.palData1Write 3 0x4567);
    Tbl.get 0 (t.engS 3).pal (256 * 2 + 255) = 0x456789ABCDEF ∧ t.rd (F.ENGn_PAL_ADDR.ENTRY 3) = 0 := by decide

/-- R143: a second request changes FENCE and leaves the flip pending. -/
theorem test_flip_second_request : let t := stp (stp State.reset (.flipReq 1 1 5)) (.flipReq 1 1 9);
    t.rd (F.ENGn_Bb_FLIP.FENCE 1 1) = 9 ∧ t.on (F.ENGn_Bb_FLIP_STATUS.PENDING 1 1) = true := by decide

/-- R158: a word of the active bank is not written. -/
theorem test_polder_active_bank : let t := stp State.reset (.pldTblWrite 0 5 1 7);
    t.on F.PLD_STATUS.WR_ACTIVE = true ∧ t.reg (R.PLD_TBLb (8 * 5 + 1)) = 0 := by decide

/-- R198: the expected cell is accepted and E wraps from 4,095. -/
theorem test_cell_accepted : let s := State.reset.modLane 24 (fun x => { x with st := 3, inRun := true, e := 4095 });
    ((stp s (.cellTick 24 4095 2 0 0 0 0 0)).laneS 24).e = 0 := by decide +kernel

/-- R240: TAIL beyond the ring is refused. -/
theorem test_blt_tail_refused : let t := stp State.reset (.bltTailWrite 1 65535);
    t.on (F.BLT_Qq_STATUS.CFG_REJECT 1) = true ∧ t.rd (F.BLT_Qq_TAIL.TAIL 1) = 0 := by decide

/-- R291: ENABLE starts channel 40 and shows it in DMA_ACTIVE1. -/
theorem test_dma_enable : let t := stp State.reset (.dmaEnable 40 1);
    t.rd (F.DMAn_CTRL.STATE 40) = 1 ∧ (t.reg R.DMA_ACTIVE1).testBit 8 = true := by decide

/-- R331: ADD wraps; g29 is written and PC moves on by 4. -/
theorem test_add_wraps : let t := stp (coreAt (wordA 0 0) 0xFFFFFFFF 2 0) (.add 3);
    t.gpr 3 29 = 1 ∧ (t.coreS 3).pc = 0x104 := by decide +kernel

/-- R332: 0x80000000 divided by -1 is 0x80000000, and a divisor of 0 gives 0xFFFFFFFF. -/
theorem test_div_corners :
    (stp (coreAt (wordA 1 4) 0x80000000 0xFFFFFFFF 0) (.div 3)).gpr 3 29 = 0x80000000 ∧
    (stp (coreAt (wordA 1 4) 5 0 0) (.div 3)).gpr 3 29 = 0xFFFFFFFF := by decide +kernel

/-- R345, R344: TRAP saves the next PC and enters with code 9; PIE takes IE, EXC is set. -/
theorem test_trap_enters : let t := stp (coreAt (wordX 31 3) 0 0 1) (.trap 3);
    (t.coreS 3).epc = 0x104 ∧ (t.coreS 3).cause = 0x1F09 ∧ (t.coreS 3).status % 8 = 6 := by decide +kernel

/-- R355: a claim returns the source and its COUNT, and clears COUNT. -/
theorem test_irq_claim : let s := stWith [(F.IRQ_SRCs.EN 338, 1), (F.IRQ_SRCs.PRIO 338, 15), (F.IRQ_SRCs.TARGET 338, 3), (F.IRQ_SRCs.COUNT 338, 5)];
    let t := stp s (.irqClaim 3);
    t.rdata = 338 + 5 * 65536 ∧ t.rd (F.IRQ_SRCs.COUNT 338) = 0 := by decide +kernel

/-- R384: without a filter a level driven on pin 95 is in GPIO_IN at once. -/
theorem test_pin_level : let t := stp State.reset (.pinChange 95 1);
    t.rd (F.GPIO_INb.IN 5) / 2 ^ 15 = 1 := by decide +kernel

/-- R396: EMIT of one bit from TXSH = 1, least significant bit first. -/
theorem test_clove_emit : let s := ((cloveAt 2 1 [] []).wr (F.CLVn_TXSH.TXSH 15) 3).wr (F.CLVn_SREG.TXLEFT 15) 2;
    (stp s (.emit 15)).rd (F.CLVn_TXSH.TXSH 15) = 3 / 2 ^ clvCnt (s.clvWord 15) := by decide

/-- R406: a timer at PERIOD goes to 0 and owes a period event. -/
theorem test_timer_wraps : let s : State := { stWith [(F.TMRn_CTRL.STATE 15, 2)] with tmr := [(15, { count := 9, period := 9 })] };
    let t := stp s (.countClock 15);
    (t.tmrS 15).count = 0 ∧ (t.tmrS 15).wrapped = true := by decide

/-- R468: an acknowledged class has no fault pending. -/
theorem test_fault_ack : (stp (stWith [(F.FLT_CLASS.PEND, 0xFF)]) (.fltAck 0x81)).rd F.FLT_CLASS.PEND = 0x7E := by decide

/-- R481: a doorbell queues an IDLE slot. -/
theorem test_doorbell : let t := stp State.reset (.mbDoorbell 0x80); t.slotSt 7 = 1 ∧ t.hst.order = [7] := by decide

/-- R13: a misaligned write of register space has no effect on the register. -/
theorem test_misaligned_write : let t := stp State.reset (.regWrite 0x30 (R.CLVn_CLKDIV 0 + 1) (some 0x1234));
    t.reg (R.CLVn_CLKDIV 0) = State.reset.reg (R.CLVn_CLKDIV 0) ∧ t.rd F.MEM_DECODE_CNT.COUNT = 1 := by decide +kernel

/-- R494: XSPI_RST_N rises 50 µs after PORST_N, the clock runs to step 1 at 150 µs. -/
theorem test_xspi_reset : let t := stp State.reset (.porstRelease 0 0);
    Emit.xspiRst true 30000 ∈ t.sent ∧ t.now = 90000 := by decide +kernel

/-- R18: a 1 does not clear a flag that hardware sets in the same cycle, and clears it a cycle later. -/
theorem test_w1c_same_cycle : let s := State.reset.hwSet F.HST_STATUS.LINK_CHG; let v := 2 ^ F.HST_STATUS.LINK_CHG.lo;
    (stp s (.regWrite 0x30 R.HST_STATUS (some v))).on F.HST_STATUS.LINK_CHG = true ∧
    (stp { s with now := 1 } (.regWrite 0x30 R.HST_STATUS (some v))).on F.HST_STATUS.LINK_CHG = false := by decide +kernel

/-- R463: of two faults of one cycle the lower INST is logged first, in whichever order the commands came. -/
theorem test_fault_order : let s := (((State.reset.fault 0x46 9).settle).fault 0x46 3).settle;
    s.flt.log.map (fun e => e.inst) = [3, 9] := by decide +kernel

/-- R53, R411: ENABLE leads to STARTING, which ends after 2 PCLK. -/
theorem test_timer_starts : let t := stp State.reset (.tmrEnable 15 1);
    t.tmrState 15 = 1 ∧ (stp { t with now := 6 } (.countClock 15)).tmrState 15 = 2 := by decide +kernel

/-- R65, R67: a WREG word on line 5 is bound to it with its fields; a row with another value is not the next command. -/
theorem test_ll_wreg : let s := llState [2 * 2 ^ 60 + 0x1100 * 2 ^ 32 + 6] 0 (some 5);
    ((stp s (.llWreg 0 0x1100 6)).engS 0).llItems = [{ k := 5, x := 0, cmd := .wreg 0x1100 6 }] ∧
    ((stp s (.llWreg 0 0x1100 7)).engS 0).llPos = 0 := by decide +kernel

/-- ECDSA P-384 with SHA-384 of "sample" as RFC 6979 A.2.6 gives it, made and verified, and refused for another message (R417). -/
theorem test_ecdsa_p384 :
    let d := 0x6B9D3DAD2E1B8C1C05B19875B6659F4DE23C3B667BF297BA9AA47740787137D896D5724E4C70A825F872C9EA60D2EDF5
    let k := 0x94ED910D1A099DAD3254E9242AE85ABDE4BA15168EAF0CA87A555FD56D10FBCA2907E3E83BA95368623B8C4686915CF9
    let sig := 0x99EF4AEB15F178CEA1FE40DB2603138F130E740A19624526203B6351D0A3A94FA329C145786E679E7B82C71A38628AC8
    let h := sha384 [0x73#8, 0x61#8, 0x6D#8, 0x70#8, 0x6C#8, 0x65#8]
    4#8 :: ecPublic d = rfcKey ∧ ecSignWith d h k = (rfcR, sig) ∧
      ecVerify rfcKey h (beBytes 48 rfcR ++ beBytes 48 sig) = true ∧ ecVerify rfcKey (sha384 []) (beBytes 48 rfcR ++ beBytes 48 sig) = false := by
  decide +kernel

/-- R497: 600 ECLK at 600 MHz are 500 CCLK at 500 MHz. -/
theorem test_cclk_rate : cclkAt 600 = 500 ∧ eclkOf 500 = 600 ∧ cclkAt (eclkOf 5) = 5 := by decide

/-- R193: the TICK a port sends is a broadcast: MODE 1. -/
theorem test_tick_is_broadcast : ((((stWith [(F.PLKn_LSTAT.LSTATE 3, 3)]).tickCell 3 false).laneS 3).queue.map (fun q => (q.cell.typ, q.cell.mode))) = [(2, 1)] := by
  decide +kernel

end Sys2Proof.Machine
end

section
/-! SUPPORT. A register write by access codes (R17, R24, R32), the writes of the frame length (R22, R23), and the
statement about them. -/

namespace Sys2Proof.Machine

/-- A write replaces the field: each of its bits is RW or RWS, and none is W1C. -/
abbrev RegSpec.Replaces (r : RegSpec) (f : Fld) : Prop :=
  f.lo + f.w ≤ 32 ∧ ∀ i < f.w, (r.rw ||| r.rws).testBit (f.lo + i) = true ∧ r.w1c.testBit (f.lo + i) = false

namespace State

/-! ### A register write by access codes (R17) -/

@[simp] theorem rwsNote_reg (s : State) (o old p : Nat) : (s.rwsNote o old).reg p = s.reg p := rfl

@[simp] theorem setAct_reg (s : State) (o v p : Nat) : (s.setAct o v).reg p = s.reg p := rfl

/-- A register whose active word is deleted from the table is active as its shadow has it (R24). -/
theorem actReg_ovr_del (s : State) (o : Nat) : ({ s with ovr := s.ovr.del o } : State).actReg o = s.reg o := by
  simp only [actReg, Tbl.find_del_same]
  rfl

/-- The shadow word that a write of `v` gives a register of masks `r`. -/
def codeWord (s : State) (r : RegSpec) (o v : Nat) : Nat :=
  let m := r.rw ||| r.rws ||| (if s.locked o then 0 else r.rwl)
  ((s.reg o &&& (0xFFFFFFFF ^^^ m)) ||| (v &&& m)) &&&
    (0xFFFFFFFF ^^^ (v &&& r.w1c &&& (0xFFFFFFFF ^^^ s.setNow o))) ||| (v &&& r.w1s)

theorem writeByCode_unassigned {s : State} {o : Nat} (h : specAt o = none) (v : Nat) : s.writeByCode o v = s := by
  unfold State.writeByCode
  rw [h]

/-- A write by access codes: the shadow word, then the active word as R24 and R32 have it. -/
theorem writeByCode_eq {s : State} {o : Nat} {r : RegSpec} (h : specAt o = some r) (v : Nat) :
    s.writeByCode o v =
      let w := s.codeWord r o (writable o v)
      if r.rws = 0 then s.setReg o w
      else if s.running then
        ((s.setReg o w).rwsNote o (s.reg o)).setAct o ((w &&& (0xFFFFFFFF ^^^ r.rws)) ||| (s.actReg o &&& r.rws))
      else { s.setReg o w with ovr := (s.setReg o w).ovr.del o } := by
  unfold State.writeByCode
  rw [h]
  rfl

/-- A write by access codes changes register words, active words and the record of the cycle, and nothing else. -/
theorem writeByCode_frame (s : State) (o v : Nat) :
    ∃ rs os c, s.writeByCode o v = { s with regs := rs, ovr := os, cyc := c } := by
  cases h : specAt o with
  | none => exact ⟨_, _, _, writeByCode_unassigned h v⟩
  | some r =>
    rw [writeByCode_eq h]
    dsimp only
    split
    · exact ⟨_, _, _, rfl⟩
    split
    · exact ⟨_, _, _, rfl⟩
    · exact ⟨_, _, _, rfl⟩

@[simp] theorem writeByCode_now (s : State) (o v : Nat) : (s.writeByCode o v).now = s.now := by
  obtain ⟨_, _, _, h⟩ := s.writeByCode_frame o v
  rw [h]

@[simp] theorem writeByCode_tick (s : State) (o v : Nat) : (s.writeByCode o v).tick = s.tick := by
  obtain ⟨_, _, _, h⟩ := s.writeByCode_frame o v
  rw [h]

@[simp] theorem writeByCode_mem (s : State) (o v : Nat) : (s.writeByCode o v).mem = s.mem := by
  obtain ⟨_, _, _, h⟩ := s.writeByCode_frame o v
  rw [h]

@[simp] theorem writeByCode_cores (s : State) (o v : Nat) : (s.writeByCode o v).cores = s.cores := by
  obtain ⟨_, _, _, h⟩ := s.writeByCode_frame o v
  rw [h]

/-- The shadow words after a write are those of a plain store of the new word. -/
theorem writeByCode_reg {s : State} {o : Nat} {r : RegSpec} (h : specAt o = some r) (v p : Nat) :
    (s.writeByCode o v).reg p = (s.setReg o (s.codeWord r o (writable o v))).reg p := by
  rw [writeByCode_eq h]
  dsimp only
  split
  · rfl
  split
  · rfl
  · rfl

theorem writeByCode_reg_other (s : State) {o p : Nat} (v : Nat) (hp : p ≠ o) : (s.writeByCode o v).reg p = s.reg p := by
  cases h : specAt o with
  | none => rw [writeByCode_unassigned h]
  | some r => rw [writeByCode_reg h, reg_setReg_other s _ hp]

theorem testBit_codeWord (s : State) {r : RegSpec} {f : Fld} (h : r.Replaces f) (v : Nat) {i : Nat} (hi : i < f.w) :
    (s.codeWord r f.off v).testBit (f.lo + i) = v.testBit (f.lo + i) := by
  obtain ⟨hw, hbits⟩ := h
  obtain ⟨hm, hc⟩ := hbits i hi
  have hall : (0xFFFFFFFF : Nat).testBit (f.lo + i) = true := by
    rw [show (0xFFFFFFFF : Nat) = 2 ^ 32 - 1 from rfl, Nat.testBit_two_pow_sub_one]
    exact decide_eq_true (by omega)
  rw [Nat.testBit_or] at hm
  simpa [codeWord, hm, hc, hall] using fun h _ => h

/-- A field that a write replaces reads back as written. -/
theorem rd_writeByCode {s : State} {r : RegSpec} {f : Fld} {v : Nat} (hr : specAt f.off = some r) (h : r.Replaces f)
    (hv : writable f.off v = v) : (s.writeByCode f.off v).rd f = bitsOf v f.lo f.w := by
  simp only [State.rd, writeByCode_reg hr, reg_setReg_same, hv]
  apply Nat.eq_of_testBit_eq
  intro i
  rw [testBit_bitsOf, testBit_bitsOf, Nat.testBit_mod_two_pow]
  by_cases hi : i < f.w
  · have h32 : f.lo + i < 32 := by have := h.1; omega
    simp [hi, h32, testBit_codeWord s h v hi]
  · simp [hi]

/-- While RUN = 0 a write of a register with RWS fields reaches its active copy at once (R24). -/
theorem act_writeByCode_stopped {s : State} {r : RegSpec} {f : Fld} (hr : specAt f.off = some r) (hrws : r.rws ≠ 0)
    (hrun : s.running = false) (v : Nat) : (s.writeByCode f.off v).act f = (s.writeByCode f.off v).rd f := by
  have hact : (s.writeByCode f.off v).actReg f.off = (s.writeByCode f.off v).reg f.off := by
    rw [writeByCode_eq hr]
    simp only [hrws, hrun, if_false, Bool.false_eq_true]
    exact actReg_ovr_del _ _
  simp only [State.act, State.rd, hact]

/-! ### What the end of a command keeps -/

theorem settle_act (s : State) {f : Fld} (h : quietOff f.off = false) : s.settle.act f = s.act f := by
  simp only [State.act, State.actReg, settle_ovr, settle_reg s h]

@[simp] theorem settle_accTick (s : State) : s.settle.accTick = s.accTick := by
  simp only [State.accTick, settle_tick, settle_now]

theorem regsKept_settle {s t : State} {ex : List Nat} (h : RegsKept s t ex) : RegsKept s t.settle ex :=
  fun o ho hq => (settle_reg t hq).trans (h o ho hq)

/-! ### The frame length (R22, R23) -/

theorem exec_tickPeriodWrite (frac : Bool) (v : Nat) (s : State) :
    exec (.tickPeriodWrite frac v) s = done (if frac then s.fracWrite v else s.periodWrite v) := rfl

theorem exec_periodWrite (v : Nat) (s : State) : exec (.tickPeriodWrite false v) s = done (s.periodWrite v) := by
  rw [exec_tickPeriodWrite, if_neg Bool.false_ne_true]

theorem exec_fracWrite (v : Nat) (s : State) : exec (.tickPeriodWrite true v) s = done (s.fracWrite v) := by
  rw [exec_tickPeriodWrite, if_pos rfl]

/-- A refused write sets CFG_REJECT, with its interrupt event. -/
theorem quiet_tickReject (s : State) : (s.wr F.ENG_TICK_STATUS.CFG_REJECT 1).Quiet s.tickReject :=
  (Quiet.cyc _ _).trans (quiet_irq _ 19)

theorem specAt_period : ∃ r, specAt R.ENG_TICK_PERIOD = some r ∧ r.rws ≠ 0 ∧ r.Replaces F.ENG_TICK_PERIOD.PERIOD :=
  ⟨_, rfl, by decide, by decide⟩

theorem specAt_frac : ∃ r, specAt R.ENG_TICK_FRAC = some r ∧ r.Replaces F.ENG_TICK_FRAC.DEN ∧
    r.Replaces F.ENG_TICK_FRAC.NUM := ⟨_, rfl, by decide, by decide⟩

theorem periodWrite_refused {s : State} {v : Nat} (h : bitsOf v 0 25 < 2500000 ∨ 25025000 < bitsOf v 0 25) :
    s.periodWrite v = s.tickReject := if_pos h

theorem periodWrite_accepted {s : State} {v : Nat} (hlo : 2500000 ≤ bitsOf v 0 25) (hhi : bitsOf v 0 25 ≤ 25025000) :
    s.periodWrite v = s.writeByCode R.ENG_TICK_PERIOD v := if_neg (by omega)

theorem fracWrite_refused {s : State} {v : Nat} (hden : bitsOf v 0 16 ≠ 0) (hnum : bitsOf v 0 16 ≤ bitsOf v 16 16) :
    s.fracWrite v = s.tickReject := if_pos ⟨hden, hnum⟩

/-- A pair of NUM and DEN that R23 accepts. -/
abbrev FracOk (v : Nat) : Prop := bitsOf v 0 16 = 0 ∨ bitsOf v 16 16 < bitsOf v 0 16

theorem fracWrite_same {s : State} {v : Nat} (h : FracOk v) (heq : s.reg R.ENG_TICK_FRAC = v % 2 ^ 32) :
    s.fracWrite v = s := (if_neg (by omega)).trans (if_pos heq)

/-- What a cycle in which FRAC changes remembers of acc: what it was before the cycle's first change. -/
def accNoted (s : State) : Option (Nat × Nat) :=
  if s.tick.accOld.any (fun e => e.1 == s.now) then s.tick.accOld else some (s.now, s.tick.acc)

theorem fracWrite_changed {s : State} {v : Nat} (h : FracOk v) (hne : s.reg R.ENG_TICK_FRAC ≠ v % 2 ^ 32) :
    s.fracWrite v =
      (s.writeByCode R.ENG_TICK_FRAC v).modTick (fun t => { t with acc := 0, accOld := s.accNoted }) :=
  (if_neg (by omega)).trans (if_neg hne)

/-- A tick of the cycle in which FRAC changes still finds acc as it was (R18). -/
theorem accTick_of_noted {s t : State} (hnow : t.now = s.now) (hold : t.tick.accOld = s.accNoted) :
    t.accTick = s.accTick := by
  unfold State.accTick
  rw [hold, hnow, accNoted]
  cases s.tick.accOld with
  | none => simp
  | some e =>
    by_cases he : e.1 = s.now
    · simp [he]
    · simp [he]

/-- What an accepted write of FRAC leaves. -/
theorem fracWrite_accepted (s : State) {v : Nat} (hv : v < 2 ^ 32) (h : FracOk v) :
    (s.fracWrite v).rd F.ENG_TICK_FRAC.DEN = bitsOf v 0 16 ∧ (s.fracWrite v).rd F.ENG_TICK_FRAC.NUM = bitsOf v 16 16 ∧
    (s.fracWrite v).tick = { s.tick with
      acc := if s.reg R.ENG_TICK_FRAC = v then s.tick.acc else 0, accOld := (s.fracWrite v).tick.accOld } ∧
    (s.fracWrite v).accTick = s.accTick ∧ (s.fracWrite v).mem = s.mem ∧ (s.fracWrite v).cores = s.cores ∧
    RegsKept s (s.fracWrite v) [R.ENG_TICK_FRAC] := by
  have hmod : v % 2 ^ 32 = v := Nat.mod_eq_of_lt hv
  by_cases heq : s.reg R.ENG_TICK_FRAC = v
  · rw [fracWrite_same h (heq.trans hmod.symm), if_pos heq]
    exact ⟨congrArg (bitsOf · 0 16) heq, congrArg (bitsOf · 16 16) heq, rfl, rfl, rfl, rfl, fun _ _ _ => rfl⟩
  · rw [fracWrite_changed h (fun e => heq (e.trans hmod)), if_neg heq]
    obtain ⟨r, hr, hden, hnum⟩ := specAt_frac
    refine ⟨rd_writeByCode hr hden rfl, rd_writeByCode hr hnum rfl, ?_, ?_, ?_, ?_, fun o ho _ => ?_⟩
    · simp
    · exact accTick_of_noted (by simp) rfl
    · simp
    · simp
    · exact writeByCode_reg_other s v (by simpa using ho)

end State

open State

/-- Settles O2: each branch of R23's checks, and for the accepted writes the fields that the access codes replace. -/
theorem frameLengthWrites : Obligations.FrameLengthWrites := by
  unfold Obligations.FrameLengthWrites
  refine ⟨fun s v hlo hhi => ?_, fun s v h => ?_, fun s v hden hnum => ?_, fun s v hv h => ?_⟩
  · refine Runs.mk (exec_periodWrite v s) ?_
    rw [periodWrite_accepted hlo hhi]
    obtain ⟨r, hr, hrws, hper⟩ := specAt_period
    have hrd : (s.writeByCode R.ENG_TICK_PERIOD v).rd F.ENG_TICK_PERIOD.PERIOD = bitsOf v 0 25 :=
      rd_writeByCode hr hper rfl
    refine ⟨?_, fun hrun => ?_, by simp, by simp, by simp,
      regsKept_settle fun o ho _ => writeByCode_reg_other s v (by simpa using ho)⟩
    · rw [settle_rd _ (by decide), hrd]
    · rw [settle_act _ (by decide), ← hrd]
      exact act_writeByCode_stopped (f := F.ENG_TICK_PERIOD.PERIOD) hr hrws hrun v
  · exact Leaves.mk (exec_periodWrite v s) (periodWrite_refused h ▸ s.quiet_tickReject)
  · exact Leaves.mk (exec_fracWrite v s) (fracWrite_refused hden hnum ▸ s.quiet_tickReject)
  · obtain ⟨hden, hnum, htick, hacc, hmem, hcores, hregs⟩ := s.fracWrite_accepted hv h
    refine Runs.mk (exec_fracWrite v s) ?_
    rw [settle_rd _ (by decide), settle_rd _ (by decide), settle_tick, settle_accTick, settle_mem, settle_cores]
    exact ⟨hden, hnum, htick, hacc, hmem, hcores, regsKept_settle hregs⟩

end Sys2Proof.Machine
end

section
/-! SUPPORT. The fault unit (21_faults_and_self_management.md): what an acknowledgement leaves of FLT_CLASS (R468), what
each stage of taking a fault does (R462, R464, R465, R473), and how the faults of one cycle are taken as a set (R463). -/

namespace Sys2Proof.Machine

/-! ### Bit fields -/

theorem bitsOf_mod (x : Nat) {lo w n : Nat} (h : lo + w ≤ n) : bitsOf (x % 2 ^ n) lo w = bitsOf x lo w := by
  apply Nat.eq_of_testBit_eq
  intro i
  rw [testBit_bitsOf, testBit_bitsOf, Nat.testBit_mod_two_pow]
  by_cases hi : i < w
  · have : lo + i < n := by omega
    simp [hi, this]
  · simp [hi]

/-- A field of a field. -/
theorem bitsOf_bitsOf (x lo : Nat) {w a b : Nat} (h : a + b ≤ w) : bitsOf (bitsOf x lo w) a b = bitsOf x (lo + a) b := by
  apply Nat.eq_of_testBit_eq
  intro i
  rw [testBit_bitsOf, testBit_bitsOf, testBit_bitsOf, Nat.add_assoc]
  by_cases hi : i < b
  · have : a + i < w := by omega
    simp [this]
  · simp [hi]

/-- Setting a bit replaces a field of one bit. -/
theorem setBitN_true (q k : Nat) : setBitN q k true = putBits q k 1 1 := by
  have hb : bitsOf q k 1 = (q.testBit k).toNat := by
    rw [bitsOf, Nat.testBit_eq_decide_div_mod_eq, Nat.shiftRight_eq_div_pow]
    rcases Nat.mod_two_eq_zero_or_one (q / 2 ^ k) with h | h
    · simp [h]
    · simp [h]
  unfold setBitN putBits
  rw [hb]
  cases h : q.testBit k
  · simp
  · have := Nat.ge_two_pow_of_testBit h
    simp only [beq_self_eq_true, if_true, Bool.toNat_true]
    omega

/-! ### The registers of the fault unit -/

/-- A count of faults shares its register with no field that taking a fault reads or writes. -/
theorem fltCnt_ne (src : Nat) {o : Nat} (h : o < 0x2404 ∨ o % 8 = 0) : o ≠ R.FLT_SRCs_CNT src := by
  unfold R.FLT_SRCs_CNT
  omega

/-- The class of a fault source is one of eight. -/
theorem faultInfo_class_lt {src cls sev : Nat} (h : faultInfo src = some (cls, sev)) : cls < 8 := by
  unfold faultInfo at h
  split at h
  · cases h
  · next e he =>
    have hall : ∀ e ∈ faultTable, e.2.1 < 8 := by decide
    have := hall e (List.mem_of_find?_eq_some he)
    rwa [Option.some.inj h] at this

theorem faultSrc_lt {src : Nat} (h : (faultInfo src).isSome = true) : src < 0x47 := by
  obtain ⟨_, hi⟩ := Option.isSome_iff_exists.1 h
  exact State.faultInfo_lt hi

/-- The bit of FLT_CLASS belongs to this class: one bit of PEND, two of LVL. -/
def classOfBit (i : Nat) : Nat := if i < 8 then i else (i - 8) / 2

/-- `ackClass` of the first `n` classes. -/
def ackFirst (w v n : Nat) : Nat :=
  (List.range n).foldl (fun w c => if v.testBit c then putBits (putBits w c 1 0) (8 + 2 * c) 2 0 else w) w

theorem ackClass_eq (w v : Nat) : ackClass w v = ackFirst w v 8 := rfl

theorem ackFirst_succ (w v n : Nat) : ackFirst w v (n + 1) =
    if v.testBit n then putBits (putBits (ackFirst w v n) n 1 0) (8 + 2 * n) 2 0 else ackFirst w v n := by
  simp [ackFirst, List.range_succ]

theorem testBit_ackFirst (w v i : Nat) : ∀ n, n ≤ 8 →
    (ackFirst w v n).testBit i = (w.testBit i && !(decide (classOfBit i < n) && v.testBit (classOfBit i)))
  | 0, _ => by simp [ackFirst]
  | n + 1, hn => by
    have ih := testBit_ackFirst w v i n (by omega)
    rw [ackFirst_succ]
    by_cases hi : classOfBit i = n
    · have hcleared : (putBits (putBits (ackFirst w v n) n 1 0) (8 + 2 * n) 2 0).testBit i = false := by
        simp only [testBit_putBits, Nat.zero_testBit]
        unfold classOfBit at hi
        split at hi <;> grind
      cases hv : v.testBit n
      · simp [ih, hi, hv]
      · simp [hcleared, hi, hv]
    · have hkept : (putBits (putBits (ackFirst w v n) n 1 0) (8 + 2 * n) 2 0).testBit i = (ackFirst w v n).testBit i := by
        unfold classOfBit at hi
        rw [testBit_putBits, if_neg (by split at hi <;> omega), testBit_putBits, if_neg (by split at hi <;> omega)]
      have hlt : (classOfBit i < n + 1) ↔ (classOfBit i < n) := by omega
      rw [apply_ite (fun x : Nat => x.testBit i), hkept, ite_self, ih]
      simp [hlt]

/-- An acknowledgement clears the bits of the classes it names (R468). -/
theorem testBit_ackClass (w v i : Nat) (h : classOfBit i < 8) :
    (ackClass w v).testBit i = (w.testBit i && !v.testBit (classOfBit i)) := by
  rw [ackClass_eq, testBit_ackFirst w v i 8 (Nat.le_refl 8)]
  simp [h]

theorem testBit_ackClass_pend (w v : Nat) {c : Nat} (hc : c < 8) :
    (ackClass w v).testBit c = (w.testBit c && !v.testBit c) := by
  have h : classOfBit c = c := if_pos hc
  rw [testBit_ackClass w v c (by rwa [h]), h]

theorem bitsOf_ackClass_lvl (w v : Nat) {c : Nat} (hc : c < 8) :
    bitsOf (ackClass w v) (8 + 2 * c) 2 = if v.testBit c then 0 else bitsOf w (8 + 2 * c) 2 := by
  apply Nat.eq_of_testBit_eq
  intro i
  rw [testBit_bitsOf, apply_ite (fun x : Nat => x.testBit i), testBit_bitsOf, Nat.zero_testBit]
  by_cases hi : i < 2
  · have h : classOfBit (8 + 2 * c + i) = c := by
      unfold classOfBit
      rw [if_neg (by omega)]
      omega
    rw [testBit_ackClass w v _ (by rwa [h]), h]
    cases v.testBit c
    · simp
    · simp
  · simp [hi]

namespace State

/-! ### What taking faults may touch -/

/-- `t` differs from `s` at most in the registers `rs`, the fault unit and the record of the cycle. -/
structure Within (s : State) (rs : List Nat) (t : State) : Prop where
  eq : ∃ g x c, t = { s with regs := g, flt := x, cyc := c }
  reg : ∀ o, o ∉ rs → t.reg o = s.reg o

namespace Within

variable {s t u : State} {rs qs : List Nat}

theorem refl (s : State) (rs : List Nat) : s.Within rs s := ⟨⟨_, _, _, rfl⟩, fun _ _ => rfl⟩

theorem trans (h : s.Within rs t) (k : t.Within rs u) : s.Within rs u := by
  obtain ⟨_, _, _, ht⟩ := h.eq
  obtain ⟨_, _, _, hu⟩ := k.eq
  exact ⟨⟨_, _, _, by rw [hu, ht]⟩, fun o ho => (k.reg o ho).trans (h.reg o ho)⟩

theorem mono (h : s.Within rs t) (hsub : rs ⊆ qs) : s.Within qs t := ⟨h.eq, fun o ho => h.reg o (fun m => ho (hsub m))⟩

theorem ite {p : Prop} [Decidable p] (h : s.Within rs t) (k : s.Within rs u) : s.Within rs (if p then t else u) := by
  split
  · exact h
  · exact k

theorem flt (s : State) (rs : List Nat) (x : FltS) : s.Within rs { s with flt := x } := ⟨⟨_, _, _, rfl⟩, fun _ _ => rfl⟩

theorem cyc (s : State) (rs : List Nat) (c : CycS) : s.Within rs { s with cyc := c } := ⟨⟨_, _, _, rfl⟩, fun _ _ => rfl⟩

theorem wr (s : State) {f : Fld} (v : Nat) (h : f.off ∈ rs) : s.Within rs (s.wr f v) :=
  ⟨⟨_, _, _, rfl⟩, fun _ ho => s.reg_wr_other v (fun e => ho (e ▸ h))⟩

theorem hwSet (s : State) {f : Fld} (h : f.off ∈ rs) : s.Within rs (s.hwSet f) := (wr s 1 h).trans (cyc _ _ _)

theorem incRc (s : State) {f : Fld} (h : f.off ∈ rs) : s.Within rs (s.incRc f) := (wr s _ h).trans (cyc _ _ _)

theorem rcBack (s : State) {f : Fld} (n : Nat) (h : f.off ∈ rs) : s.Within rs (s.rcBack f n) := by
  unfold State.rcBack
  split
  · exact (wr s _ h).trans (cyc _ _ _)
  · exact refl s rs

theorem foldl {α : Type} {step : State → α → State} (h : ∀ (a : State) x, a.Within rs (step a x)) (l : List α) (s : State) :
    s.Within rs (l.foldl step s) := by
  induction l generalizing s with
  | nil => exact refl s rs
  | cons x l ih => exact (h s x).trans (ih (step s x))

theorem now (h : s.Within rs t) : t.now = s.now := by obtain ⟨_, _, _, rfl⟩ := h.eq; rfl
theorem boot (h : s.Within rs t) : t.boot = s.boot := by obtain ⟨_, _, _, rfl⟩ := h.eq; rfl
theorem slc (h : s.Within rs t) : t.slc = s.slc := by obtain ⟨_, _, _, rfl⟩ := h.eq; rfl
theorem raised (h : s.Within rs t) : t.raised = s.raised := by obtain ⟨_, _, _, rfl⟩ := h.eq; rfl
theorem mem (h : s.Within rs t) : t.mem = s.mem := by obtain ⟨_, _, _, rfl⟩ := h.eq; rfl
theorem cores (h : s.Within rs t) : t.cores = s.cores := by obtain ⟨_, _, _, rfl⟩ := h.eq; rfl

theorem rd (h : s.Within rs t) {f : Fld} (hf : f.off ∉ rs) : t.rd f = s.rd f := by
  simp only [State.rd, h.reg _ hf]

theorem on (h : s.Within rs t) {f : Fld} (hf : f.off ∉ rs) : t.on f = s.on f := by
  simp only [State.on, h.rd hf]

end Within

@[simp] theorem on_setFlt (s : State) (x : FltS) (f : Fld) : ({ s with flt := x } : State).on f = s.on f := rfl

/-- A counter reads one more after an event, up to its largest value. -/
theorem rd_incRc_same (s : State) {f : Fld} (h : f.lo + f.w ≤ 32) : (s.incRc f).rd f = min (2 ^ f.w - 1) (s.rd f + 1) := by
  have hw := Nat.two_pow_pos f.w
  have e : (s.incRc f).rd f = (s.wr f (min (2 ^ f.w - 1) (s.rd f + 1))).rd f := rfl
  rw [e, rd_wr_same s f _ h, Nat.mod_eq_of_lt (by omega)]

/-! ### The classes -/

/-- PEND of a class. -/
abbrev pend (s : State) (c : Nat) : Bool := (s.rd F.FLT_CLASS.PEND).testBit c

/-- LVL of a class. -/
abbrev lvl (s : State) (c : Nat) : Nat := bitsOf (s.rd F.FLT_CLASS.LVL) (2 * c) 2

theorem pend_eq (s : State) {c : Nat} (hc : c < 8) : s.pend c = (s.rd fltCls).testBit c := by
  have h24 : c < 24 := by omega
  simp [pend, State.rd, F.FLT_CLASS.PEND, fltCls, testBit_bitsOf, hc, h24]

theorem lvl_eq (s : State) {c : Nat} (hc : c < 8) : s.lvl c = bitsOf (s.rd fltCls) (8 + 2 * c) 2 := by
  have hout : bitsOf (s.rd fltCls) (8 + 2 * c) 2 = bitsOf (s.reg R.FLT_CLASS) (0 + (8 + 2 * c)) 2 :=
    bitsOf_bitsOf _ _ (show 8 + 2 * c + 2 ≤ 24 by omega)
  have hin : s.lvl c = bitsOf (s.reg R.FLT_CLASS) (8 + 2 * c) 2 := bitsOf_bitsOf _ _ (show 2 * c + 2 ≤ 16 by omega)
  rw [hout, hin, Nat.zero_add]

/-- The classes of a state whose FLT_CLASS holds `w`. -/
theorem pend_of_rd {s : State} {w c : Nat} (h : s.rd fltCls = w % 2 ^ 24) (hc : c < 8) : s.pend c = w.testBit c := by
  have h24 : c < 24 := by omega
  rw [pend_eq s hc, h, Nat.testBit_mod_two_pow]
  simp [h24]

theorem lvl_of_rd {s : State} {w c : Nat} (h : s.rd fltCls = w % 2 ^ 24) (hc : c < 8) :
    s.lvl c = bitsOf w (8 + 2 * c) 2 := by
  rw [lvl_eq s hc, h, bitsOf_mod w (by omega)]

/-- The effective level of a fault of a source in a class (R462). -/
def faultLevel (s : State) (src cls : Nat) : Nat :=
  effLevel (s.pend cls) (s.lvl cls) (bitsOf (s.rd F.FLT_ESC_CAP.CAP) (2 * cls) 2) (s.rd (F.FLT_SRCs_CFG.SEV src))

theorem faultLevel_lt (s : State) (src cls : Nat) : s.faultLevel src cls < 4 := by
  have hsev : s.rd (F.FLT_SRCs_CFG.SEV src) < 2 ^ 2 := bitsOf_lt _ _ _
  have hcap : bitsOf (s.rd F.FLT_ESC_CAP.CAP) (2 * cls) 2 < 2 ^ 2 := bitsOf_lt _ _ _
  unfold faultLevel effLevel
  split
  · omega
  · omega

theorem faultLevel_not_pending {s : State} {cls : Nat} (h : s.pend cls = false) (src : Nat) :
    s.faultLevel src cls = s.rd (F.FLT_SRCs_CFG.SEV src) := by
  simp [faultLevel, effLevel, h]

/-! ### The stages of taking a fault -/

/-- The class becomes pending and its level rises to `e` (R462). -/
def markClass (s : State) (cls e : Nat) : State :=
  (s.wr F.FLT_CLASS.PEND (setBitN (s.rd F.FLT_CLASS.PEND) cls true)).wr F.FLT_CLASS.LVL
    (putBits ((s.wr F.FLT_CLASS.PEND (setBitN (s.rd F.FLT_CLASS.PEND) cls true)).rd F.FLT_CLASS.LVL) (2 * cls) 2
      (max (s.lvl cls) e))

/-- The log entry of a fault taken at level `e` (R473). -/
def faultEntry (s : State) (f : Nat × Nat) (e : Nat) : FltLog :=
  { src := f.1, level := e, esc := decide (s.rd (F.FLT_SRCs_CFG.SEV f.1) < e), inst := f.2 % 4096
    frame := s.tick.frameCnt % 2 ^ 32 }

/-- The interrupt of a fault taken at level `e` (R464). -/
def irqAt (s : State) (e : Nat) : State := if s.rd F.FLT_CTRL.IRQ_LEVEL ≤ e then s.irq 62 else s

/-- The ERR_N pulse of a fault taken at level `e` (R465). -/
def pulseAt (s : State) (e : Nat) : State := if s.rd F.FLT_PIN.LEVEL ≤ e then s.errPulse else s

/-- The fault is marked in its class, logged and counted as an interrupt event, all at level `e`. -/
def noteFault (s : State) (f : Nat × Nat) (cls e : Nat) : State :=
  ((s.markClass cls e).fltLogAdd (s.faultEntry f e)).irqAt e

theorem takeFault_disabled {s : State} {f : Nat × Nat} (h : s.on (F.FLT_SRCs_CFG.EN f.1) = false) : s.takeFault f = s := by
  unfold State.takeFault
  split
  · rfl
  · simp [h]

theorem takeFault_enabled {s : State} {f : Nat × Nat} {cls sev : Nat} (hi : faultInfo f.1 = some (cls, sev))
    (hen : s.on (F.FLT_SRCs_CFG.EN f.1) = true) :
    s.takeFault f = ((s.noteFault f cls (s.faultLevel f.1 cls)).pulseAt (s.faultLevel f.1 cls)).enterLevel
      (s.faultLevel f.1 cls) := by
  unfold State.takeFault
  rw [hi]
  simp only [hen, Bool.not_true, Bool.false_eq_true, if_false]
  rfl

theorem markClass_within (s : State) (cls e : Nat) : s.Within [R.FLT_CLASS] (s.markClass cls e) :=
  (Within.wr s _ (by decide)).trans (Within.wr _ _ (by decide))

theorem fltLogAdd_within (s : State) (e : FltLog) : s.Within [R.FLT_LOG_STATUS] (s.fltLogAdd e) :=
  Within.ite ((Within.flt s _ _).trans (Within.wr _ _ (by decide))) (Within.hwSet s (by decide))

/-- An event of the fault unit's interrupt source is counted unless the controller is powered down (R360). -/
theorem irq_fault (s : State) : s.irq 62 = if s.boot.sby < 5 then s.incRc (F.IRQ_SRCs.COUNT 62) else s := by
  simp [State.irq]

theorem irqAt_within (s : State) (e : Nat) : s.Within [R.IRQ_SRCs 62] (s.irqAt e) := by
  rw [irqAt, irq_fault]
  exact .ite (.ite (.incRc s (by decide)) (.refl s _)) (.refl s _)

theorem pulseAt_within (s : State) (e : Nat) : s.Within [R.FLT_STATUS] (s.pulseAt e) :=
  .ite ((Within.flt s _ _).trans (.wr _ _ (by decide))) (.refl s _)

theorem enterLevel_within (s : State) (e : Nat) : s.Within [R.FLT_STATUS] (s.enterLevel e) := by
  have h : s.Within [R.FLT_STATUS] { s with flt := { s.flt with lastT := s.now } } := .flt s _ _
  unfold State.enterLevel
  exact .ite (.refl s _) (.ite (.ite h (h.trans (.wr _ _ (by decide)))) (.ite h (h.trans (.wr _ _ (by decide)))))

theorem noteFault_within (s : State) (f : Nat × Nat) (cls e : Nat) :
    s.Within [R.FLT_CLASS, R.FLT_LOG_STATUS, R.IRQ_SRCs 62] (s.noteFault f cls e) :=
  (((s.markClass_within cls e).mono (by simp)).trans ((fltLogAdd_within _ _).mono (by simp))).trans
    ((irqAt_within _ _).mono (by simp))

/-- The registers that taking a fault writes. -/
abbrev takeRegs : List Nat := [R.FLT_CLASS, R.FLT_LOG_STATUS, R.IRQ_SRCs 62, R.FLT_STATUS]

theorem takeFault_within (s : State) (f : Nat × Nat) : s.Within takeRegs (s.takeFault f) := by
  cases hi : faultInfo f.1 with
  | none =>
    have : s.takeFault f = s := by simp [State.takeFault, hi]
    rw [this]
    exact .refl s _
  | some info =>
    cases hen : s.on (F.FLT_SRCs_CFG.EN f.1) with
    | false =>
      rw [takeFault_disabled hen]
      exact .refl s _
    | true =>
      rw [takeFault_enabled hi hen]
      exact (((s.noteFault_within f _ _).mono (by simp)).trans ((pulseAt_within _ _).mono (by simp))).trans
        ((enterLevel_within _ _).mono (by simp))

/-! #### FLT_CLASS -/

theorem rd_PEND_markClass (s : State) (cls e : Nat) :
    (s.markClass cls e).rd F.FLT_CLASS.PEND = setBitN (s.rd F.FLT_CLASS.PEND) cls true % 2 ^ 8 := by
  rw [markClass, rd_wr_field _ (f := F.FLT_CLASS.LVL) (g := F.FLT_CLASS.PEND) _ rfl (by decide) (by decide)]
  exact rd_wr_same s F.FLT_CLASS.PEND _ (by decide)

theorem rd_LVL_markClass (s : State) (cls e : Nat) :
    (s.markClass cls e).rd F.FLT_CLASS.LVL = putBits (s.rd F.FLT_CLASS.LVL) (2 * cls) 2 (max (s.lvl cls) e) % 2 ^ 16 := by
  rw [markClass, rd_wr_same _ _ _ (by decide),
    rd_wr_field s (f := F.FLT_CLASS.PEND) (g := F.FLT_CLASS.LVL) _ rfl (by decide) (by decide)]
  rfl

theorem pend_markClass (s : State) {cls c : Nat} (e : Nat) (hc : c < 8) :
    (s.markClass cls e).pend c = (decide (c = cls) || s.pend c) := by
  simp only [pend, rd_PEND_markClass, Nat.testBit_mod_two_pow, hc, setBitN_true, testBit_putBits]
  by_cases h : c = cls
  · simp [h]
  · rw [if_neg (by omega)]
    simp [h]

theorem lvl_markClass (s : State) {cls c e : Nat} (hcls : cls < 8) (hc : c < 8) (he : e < 4) :
    (s.markClass cls e).lvl c = if c = cls then max (s.lvl cls) e else s.lvl c := by
  have hl : s.lvl cls < 2 ^ 2 := bitsOf_lt _ _ _
  rw [lvl, rd_LVL_markClass, bitsOf_mod _ (by omega), ← bitsOf_mod (n := 32) _ (by omega)]
  split
  · next h =>
    rw [h, bitsOf_putBits_same _ _ _ _ (by omega), Nat.mod_eq_of_lt (by omega)]
  · rw [bitsOf_putBits_other _ _ _ _ _ _ (by omega) (by omega)]

/-! #### The log -/

theorem fltLogAdd_flt (s : State) (e : FltLog) : (s.fltLogAdd e).flt =
    if s.flt.log.length < 32 then { s.flt with log := s.flt.log ++ [e] } else s.flt := by
  unfold State.fltLogAdd
  split
  · rfl
  · rfl

theorem fltLogAdd_overflow {s : State} (h : 32 ≤ s.flt.log.length) (e : FltLog) :
    (s.fltLogAdd e).on F.FLT_LOG_STATUS.OVERFLOW = true := by
  rw [State.fltLogAdd, if_neg (by omega), hwSet_on, on_wr_same _ _ _ (by decide)]
  decide

/-! #### The interrupt and the pulse -/

@[simp] theorem irqAt_flt (s : State) (e : Nat) : (s.irqAt e).flt = s.flt := by
  unfold irqAt
  rw [irq_fault]
  split
  · split
    · rfl
    · rfl
  · rfl

theorem irqAt_count (s : State) (e : Nat) : (s.irqAt e).rd (F.IRQ_SRCs.COUNT 62) =
    if s.rd F.FLT_CTRL.IRQ_LEVEL ≤ e ∧ s.boot.sby < 5 then min 255 (s.rd (F.IRQ_SRCs.COUNT 62) + 1)
    else s.rd (F.IRQ_SRCs.COUNT 62) := by
  rw [irqAt, irq_fault]
  by_cases hlevel : s.rd F.FLT_CTRL.IRQ_LEVEL ≤ e
  · by_cases hsby : s.boot.sby < 5
    · rw [if_pos hlevel, if_pos hsby, if_pos ⟨hlevel, hsby⟩]
      exact rd_incRc_same s (by decide)
    · rw [if_pos hlevel, if_neg hsby, if_neg fun h => hsby h.2]
  · rw [if_neg hlevel, if_neg fun h => hlevel h.1]

theorem pulseAt_flt (s : State) (e : Nat) : (s.pulseAt e).flt = if s.rd F.FLT_PIN.LEVEL ≤ e then
    { s.flt with pulseEnd := s.now + clampN 1 1000 (s.rd F.FLT_PIN.MINW) * usT, errLow := true } else s.flt := by
  unfold pulseAt
  split
  · rfl
  · rfl

theorem pulseAt_state (s : State) (e : Nat) : (s.pulseAt e).rd F.FLT_STATUS.STATE = s.rd F.FLT_STATUS.STATE := by
  unfold pulseAt
  split
  · exact rd_wr_field _ _ rfl (by decide) (by decide)
  · rfl

theorem pulseAt_pulsing (s : State) (e : Nat) : (s.pulseAt e).on F.FLT_STATUS.PULSING =
    (decide (s.rd F.FLT_PIN.LEVEL ≤ e) || s.on F.FLT_STATUS.PULSING) := by
  unfold pulseAt
  split
  · next h =>
    rw [State.errPulse, on_wr_same _ _ _ (by decide)]
    simp [h, F.FLT_STATUS.PULSING]
  · next h => simp [h]

/-! #### DEGRADED and FROZEN -/

theorem enterLevel_flt (s : State) (e : Nat) : (s.enterLevel e).flt =
    if e < 2 then s.flt else { s.flt with lastT := s.now } := by
  simp only [State.enterLevel, apply_ite State.flt, State.wr_flt, ite_self]

/-- STATE once a fault is taken at level `e` (R464). -/
def stateAt (st e : Nat) : Nat := if e = 3 then 2 else if e = 2 ∧ st ≠ 2 then 1 else st

theorem enterLevel_state (s : State) {e : Nat} (he : e < 4) :
    (s.enterLevel e).rd F.FLT_STATUS.STATE = stateAt (s.rd F.FLT_STATUS.STATE) e := by
  have hwr : ∀ (x : State) v, v < 4 → (x.wr F.FLT_STATUS.STATE v).rd F.FLT_STATUS.STATE = v := fun x v hv =>
    (rd_wr_same x _ v (by decide)).trans (Nat.mod_eq_of_lt hv)
  unfold State.enterLevel stateAt
  by_cases h : e < 2
  · rw [if_pos h, if_neg (by omega), if_neg (by omega)]
  · rw [if_neg h]
    dsimp only
    split
    · split
      · next h2 => exact h2
      · exact hwr _ 2 (by decide)
    · next h3 =>
      split
      · next h2 => exact h2.trans (by simp [h2])
      · next h2 => rw [hwr _ 1 (by decide), if_pos ⟨by omega, h2⟩]

theorem enterLevel_pulsing (s : State) (e : Nat) :
    (s.enterLevel e).on F.FLT_STATUS.PULSING = s.on F.FLT_STATUS.PULSING := by
  have hwr : ∀ (x : State) v, (x.wr F.FLT_STATUS.STATE v).on F.FLT_STATUS.PULSING =
      x.on F.FLT_STATUS.PULSING := fun x v => by
    simp only [State.on, rd_wr_field x (f := F.FLT_STATUS.STATE) (g := F.FLT_STATUS.PULSING) v rfl (by decide) (by decide)]
  simp only [State.enterLevel, apply_ite (fun x : State => x.on F.FLT_STATUS.PULSING), hwr, on_setFlt, ite_self]

/-- Taking a fault writes no source's configuration. -/
theorem fltCfg_notMem_takeRegs {src : Nat} (h : src < 0x47) : R.FLT_SRCs_CFG src ∉ takeRegs := by
  simp only [takeRegs, R.FLT_SRCs_CFG, R.FLT_CLASS, R.FLT_LOG_STATUS, R.IRQ_SRCs, R.FLT_STATUS, List.mem_cons,
    List.not_mem_nil, or_false]
  omega

/-! ### One enabled fault (R462, R464) -/

section Enabled

variable {s : State} {f : Nat × Nat} {cls sev : Nat}

theorem takeFault_reg_class (hi : faultInfo f.1 = some (cls, sev)) (hen : s.on (F.FLT_SRCs_CFG.EN f.1) = true) :
    (s.takeFault f).reg R.FLT_CLASS = (s.markClass cls (s.faultLevel f.1 cls)).reg R.FLT_CLASS := by
  rw [takeFault_enabled hi hen, (enterLevel_within _ _).reg _ (by decide), (pulseAt_within _ _).reg _ (by decide), noteFault,
    (irqAt_within _ _).reg _ (by decide), (fltLogAdd_within _ _).reg _ (by decide)]

theorem takeFault_pend (hi : faultInfo f.1 = some (cls, sev)) (hen : s.on (F.FLT_SRCs_CFG.EN f.1) = true) {c : Nat}
    (hc : c < 8) : (s.takeFault f).pend c = (decide (c = cls) || s.pend c) := by
  rw [← s.pend_markClass (s.faultLevel f.1 cls) hc, pend_eq _ hc, pend_eq _ hc]
  exact congrArg (fun w => (bitsOf w 0 24).testBit c) (takeFault_reg_class hi hen)

theorem takeFault_lvl (hi : faultInfo f.1 = some (cls, sev)) (hen : s.on (F.FLT_SRCs_CFG.EN f.1) = true) {c : Nat}
    (hc : c < 8) : (s.takeFault f).lvl c = if c = cls then max (s.lvl cls) (s.faultLevel f.1 cls) else s.lvl c := by
  rw [← lvl_markClass s (faultInfo_class_lt hi) hc (s.faultLevel_lt f.1 cls), lvl_eq _ hc, lvl_eq _ hc]
  exact congrArg (fun w => bitsOf (bitsOf w 0 24) (8 + 2 * c) 2) (takeFault_reg_class hi hen)

theorem noteFault_flt (s : State) (f : Nat × Nat) (cls e : Nat) : (s.noteFault f cls e).flt =
    if s.flt.log.length < 32 then { s.flt with log := s.flt.log ++ [s.faultEntry f e] } else s.flt := by
  rw [noteFault, irqAt_flt, fltLogAdd_flt]
  rfl

theorem takeFault_log (hi : faultInfo f.1 = some (cls, sev)) (hen : s.on (F.FLT_SRCs_CFG.EN f.1) = true) :
    (s.takeFault f).flt.log = if s.flt.log.length < 32 then s.flt.log ++ [s.faultEntry f (s.faultLevel f.1 cls)]
      else s.flt.log := by
  simp only [takeFault_enabled hi hen, enterLevel_flt, pulseAt_flt, noteFault_flt, apply_ite FltS.log, ite_self]

theorem takeFault_pulseEnd (hi : faultInfo f.1 = some (cls, sev)) (hen : s.on (F.FLT_SRCs_CFG.EN f.1) = true) :
    (s.takeFault f).flt.pulseEnd = if s.rd F.FLT_PIN.LEVEL ≤ s.faultLevel f.1 cls
      then s.now + clampN 1 1000 (s.rd F.FLT_PIN.MINW) * usT else s.flt.pulseEnd := by
  have h := s.noteFault_within f cls (s.faultLevel f.1 cls)
  simp only [takeFault_enabled hi hen, enterLevel_flt, pulseAt_flt, noteFault_flt, apply_ite FltS.pulseEnd, ite_self, h.now]
  rw [h.rd (by decide), h.rd (by decide)]

theorem takeFault_lastT (hi : faultInfo f.1 = some (cls, sev)) (hen : s.on (F.FLT_SRCs_CFG.EN f.1) = true) :
    (s.takeFault f).flt.lastT = if s.faultLevel f.1 cls < 2 then s.flt.lastT else s.now := by
  simp only [takeFault_enabled hi hen, enterLevel_flt, pulseAt_flt, noteFault_flt, apply_ite FltS.lastT, ite_self,
    (pulseAt_within _ _).now, (noteFault_within _ _ _ _).now]

theorem takeFault_overflow (hi : faultInfo f.1 = some (cls, sev)) (hen : s.on (F.FLT_SRCs_CFG.EN f.1) = true)
    (hfull : 32 ≤ s.flt.log.length) : (s.takeFault f).on F.FLT_LOG_STATUS.OVERFLOW = true := by
  rw [takeFault_enabled hi hen, (enterLevel_within _ _).on (by decide), (pulseAt_within _ _).on (by decide), noteFault,
    (irqAt_within _ _).on (by decide)]
  exact fltLogAdd_overflow (s := s.markClass cls _) hfull _

theorem takeFault_state (hi : faultInfo f.1 = some (cls, sev)) (hen : s.on (F.FLT_SRCs_CFG.EN f.1) = true) :
    (s.takeFault f).rd F.FLT_STATUS.STATE = stateAt (s.rd F.FLT_STATUS.STATE) (s.faultLevel f.1 cls) := by
  rw [takeFault_enabled hi hen, enterLevel_state _ (s.faultLevel_lt f.1 cls), pulseAt_state,
    (noteFault_within _ _ _ _).rd (by decide)]

theorem takeFault_pulsing (hi : faultInfo f.1 = some (cls, sev)) (hen : s.on (F.FLT_SRCs_CFG.EN f.1) = true) :
    (s.takeFault f).on F.FLT_STATUS.PULSING =
      (decide (s.rd F.FLT_PIN.LEVEL ≤ s.faultLevel f.1 cls) || s.on F.FLT_STATUS.PULSING) := by
  have h := s.noteFault_within f cls (s.faultLevel f.1 cls)
  rw [takeFault_enabled hi hen, enterLevel_pulsing, pulseAt_pulsing, h.rd (by decide), h.on (by decide)]

theorem takeFault_irqCount (hi : faultInfo f.1 = some (cls, sev)) (hen : s.on (F.FLT_SRCs_CFG.EN f.1) = true) :
    (s.takeFault f).rd (F.IRQ_SRCs.COUNT 62) =
      if s.rd F.FLT_CTRL.IRQ_LEVEL ≤ s.faultLevel f.1 cls ∧ s.boot.sby < 5 then min 255 (s.rd (F.IRQ_SRCs.COUNT 62) + 1)
      else s.rd (F.IRQ_SRCs.COUNT 62) := by
  have h := ((s.markClass_within cls (s.faultLevel f.1 cls)).mono (qs := [R.FLT_CLASS, R.FLT_LOG_STATUS]) (by simp)).trans
    ((fltLogAdd_within _ (s.faultEntry f (s.faultLevel f.1 cls))).mono (by simp))
  rw [takeFault_enabled hi hen, (enterLevel_within _ _).rd (by decide), (pulseAt_within _ _).rd (by decide), noteFault,
    irqAt_count, h.boot, h.rd (by decide), h.rd (by decide)]

end Enabled

/-! ### The faults of a cycle as one set (R463) -/

/-- The log after the faults `l` were taken in this order: one entry more for each. -/
def Logged (old new : List FltLog) (l : List (Nat × Nat)) : Prop :=
  ∃ es, new = old ++ es ∧ es.map (fun e => (e.src, e.inst)) = l.map (fun f => (f.1, f.2 % 4096))

/-- Enabled faults for which the log has room are logged in the order in which they are taken (R473). -/
theorem foldl_takeFault_logged (l : List (Nat × Nat)) (s : State) (hroom : s.flt.log.length + l.length ≤ 32)
    (hl : ∀ f ∈ l, (faultInfo f.1).isSome = true ∧ s.on (F.FLT_SRCs_CFG.EN f.1) = true) :
    Logged s.flt.log (l.foldl State.takeFault s).flt.log l := by
  induction l generalizing s with
  | nil => exact ⟨[], by simp⟩
  | cons f l ih =>
    obtain ⟨hi, hen⟩ := hl f (by simp)
    obtain ⟨⟨cls, sev⟩, hi⟩ := Option.isSome_iff_exists.1 hi
    rw [List.length_cons] at hroom
    have hlog := takeFault_log hi hen
    rw [if_pos (by omega)] at hlog
    obtain ⟨es, hes, hmap⟩ := ih (s.takeFault f) (by rw [hlog, List.length_append, List.length_singleton]; omega)
      (fun g hg => ⟨(hl g (by simp [hg])).1, by
        rw [(s.takeFault_within f).on (fltCfg_notMem_takeRegs (faultSrc_lt (hl g (by simp [hg])).1))]
        exact (hl g (by simp [hg])).2⟩)
    refine ⟨s.faultEntry f (s.faultLevel f.1 cls) :: es, ?_, ?_⟩
    · rw [List.foldl_cons, hes, hlog, List.append_assoc, List.singleton_append]
    · simp [hmap, faultEntry]

/-- Standby was entered in the cycle at hand (R467). -/
def standbyEntry (s : State) : Bool := decide (s.boot.sby = 2) && decide (s.boot.sbyAt = s.now)

/-- An entry into Standby ends a freeze of its cycle (R467). -/
def freezeOff (s : State) : State :=
  if s.boot.sby = 2 ∧ s.boot.sbyAt = s.now ∧ s.rd F.FLT_STATUS.STATE = 2 then s.wr F.FLT_STATUS.STATE 0 else s

theorem freezeOff_within (s : State) : s.Within [R.FLT_STATUS] s.freezeOff := .ite (.wr s _ (by decide)) (.refl s _)

@[simp] theorem freezeOff_flt (s : State) : s.freezeOff.flt = s.flt := by
  unfold freezeOff
  split
  · rfl
  · rfl

theorem freezeOff_pulsing (s : State) : s.freezeOff.on F.FLT_STATUS.PULSING = s.on F.FLT_STATUS.PULSING := by
  unfold freezeOff
  split
  · simp only [State.on]
    rw [rd_wr_field s (f := F.FLT_STATUS.STATE) (g := F.FLT_STATUS.PULSING) 0 rfl (by decide) (by decide)]
  · rfl

theorem freezeOff_state (s : State) : s.freezeOff.rd F.FLT_STATUS.STATE =
    if s.standbyEntry = true ∧ s.rd F.FLT_STATUS.STATE = 2 then 0 else s.rd F.FLT_STATUS.STATE := by
  simp only [freezeOff, standbyEntry, Bool.and_eq_true, decide_eq_true_eq, and_assoc]
  split
  · exact rd_wr_same s _ 0 (by decide)
  · rfl

theorem freezeOff_of_no_entry {s : State} (h : s.standbyEntry = false) : s.freezeOff = s := by
  refine if_neg fun ⟨hsby, hat, _⟩ => ?_
  simp [standbyEntry, hsby, hat] at h

/-- With no recovery in the cycle, its faults are taken in the order of R463, and then only the record of the cycle
changes. -/
theorem takeSet_noRecovery (s : State) {c : FltCyc} (h : c.rec_ = false) : ∃ k,
    s.takeSet c = { ((fltSort c.set).foldl State.takeFault s).freezeOff with
      flt := { ((fltSort c.set).foldl State.takeFault s).flt with cyc := some { c with irqs := k } } } := by
  refine ⟨((fltSort c.set).foldl State.takeFault s).evNow (F.IRQ_SRCs.COUNT 62) - s.evNow (F.IRQ_SRCs.COUNT 62), ?_⟩
  rw [← freezeOff_flt]
  simp only [State.takeSet, h, Bool.not_false, if_true]
  rfl

theorem takeSet_within (s : State) {c : FltCyc} (h : c.rec_ = false) : s.Within takeRegs (s.takeSet c) := by
  obtain ⟨k, hk⟩ := s.takeSet_noRecovery h
  rw [hk]
  exact ((Within.foldl takeFault_within _ s).trans ((freezeOff_within _).mono (by simp))).trans (.flt _ _ _)

/-! #### The order of R463 -/

theorem fltInsert_perm (f : Nat × Nat) (l : List (Nat × Nat)) : (fltInsert f l).Perm (f :: l) := by
  induction l with
  | nil => exact .refl _
  | cons g l ih =>
    rw [fltInsert]
    split
    · exact .refl _
    · exact (ih.cons g).trans (.swap f g l)

theorem fltSort_perm (l : List (Nat × Nat)) : (fltSort l).Perm l := by
  induction l with
  | nil => exact .refl _
  | cons f l ih => exact (fltInsert_perm f _).trans (ih.cons f)

/-- Of two faults the one of the lower SRC, or of the lower INST of one SRC, is taken first. -/
theorem fltSort_pair (f g : Nat × Nat) :
    fltSort [f, g] = if g.1 < f.1 ∨ (g.1 = f.1 ∧ g.2 < f.2) then [g, f] else [f, g] := by
  have h : fltSort [f, g] = if f.1 < g.1 ∨ (f.1 = g.1 ∧ f.2 ≤ g.2) then [f, g] else [g, f] := rfl
  rw [h]
  split
  · rw [if_neg (by omega)]
  · rw [if_pos (by omega)]

/-- Two faults are taken in one order, whichever is raised first. -/
theorem fltSort_pair_comm (f g : Nat × Nat) : fltSort [f, g] = fltSort [g, f] := by
  rw [fltSort_pair, fltSort_pair]
  split
  · rw [if_neg (by omega)]
  · split
    · rfl
    · have hfg : f = g := Prod.ext (by omega) (by omega)
      rw [hfg]

theorem takeSet_logged {s : State} {c : FltCyc} (h : c.rec_ = false) (hroom : s.flt.log.length + c.set.length ≤ 32)
    (hl : ∀ f ∈ c.set, (faultInfo f.1).isSome = true ∧ s.on (F.FLT_SRCs_CFG.EN f.1) = true) :
    Logged s.flt.log (s.takeSet c).flt.log (fltSort c.set) := by
  obtain ⟨k, hk⟩ := s.takeSet_noRecovery h
  rw [hk]
  exact foldl_takeFault_logged _ s (by rwa [(fltSort_perm c.set).length_eq])
    (fun f hf => hl f ((fltSort_perm c.set).mem_iff.1 hf))

/-! #### Back to the state before the faults of the cycle -/

/-- The registers of the fault unit as the record of the cycle has them. -/
def fltWords (s : State) (c : FltCyc) : State := ((s.wr fltStat c.stat).wr fltCls c.cls).wr fltLogSt c.logSt

theorem fltBack_within_words (s : State) (c : FltCyc) :
    (s.fltWords c).Within [R.FLT_RECOV, R.IRQ_SRCs 62] (s.fltBack c) := by
  have h : (s.fltWords c).Within [R.FLT_RECOV, R.IRQ_SRCs 62] ((s.fltWords c).modCyc
    (fun y => { y with set := y.set.filter (fun e => e != (R.FLT_LOG_STATUS, 6)) })) := .cyc _ _ _
  exact ((Within.ite (h.trans (.wr _ _ (by decide))) h).trans (.flt _ _ _)).trans (.rcBack _ _ (by decide))

/-- The registers that coming back to the record of the cycle writes. -/
abbrev backRegs : List Nat := [R.FLT_CLASS, R.FLT_LOG_STATUS, R.IRQ_SRCs 62, R.FLT_STATUS, R.FLT_RECOV]

theorem fltBack_within (s : State) (c : FltCyc) : s.Within backRegs (s.fltBack c) :=
  (((Within.wr s _ (by decide)).trans (.wr _ _ (by decide))).trans (.wr _ _ (by decide))).trans
    ((s.fltBack_within_words c).mono (by simp))

/-- Coming back to the record of the cycle and taking its faults again. -/
theorem takeAgain_within (s : State) {c : FltCyc} (h : c.rec_ = false) : s.Within backRegs ((s.fltBack c).takeSet c) :=
  (s.fltBack_within c).trans ((takeSet_within _ h).mono (by simp))

/-- Coming back to the record of the cycle writes no source's configuration. -/
theorem fltCfg_notMem_backRegs {src : Nat} (h : src < 0x47) : R.FLT_SRCs_CFG src ∉ backRegs := by
  simp only [backRegs, R.FLT_SRCs_CFG, R.FLT_CLASS, R.FLT_LOG_STATUS, R.IRQ_SRCs, R.FLT_STATUS, R.FLT_RECOV, List.mem_cons,
    List.not_mem_nil, or_false]
  omega

theorem fltBack_cls (s : State) (c : FltCyc) : (s.fltBack c).rd fltCls = c.cls % 2 ^ 24 := by
  rw [(s.fltBack_within_words c).rd (by decide), fltWords, rd_wr_other (f := fltLogSt) (g := fltCls) _ _ (by decide)]
  exact rd_wr_same _ fltCls _ (by decide)

@[simp] theorem rcBack_flt (s : State) (f : Fld) (n : Nat) : (s.rcBack f n).flt = s.flt := by
  unfold State.rcBack
  split
  · rfl
  · rfl

@[simp] theorem fltBack_log (s : State) (c : FltCyc) : (s.fltBack c).flt.log = c.log := by
  simp [State.fltBack, State.irqBack]

/-! ### The end of a command -/

/-- Whether the fabric has anything to do depends on the fabric and the time alone. -/
theorem calm_congr {s t : State} (h : ({ s with raised := [] } : State).Calm) (hslc : t.slc = s.slc) (hnow : t.now = s.now) :
    ({ t with raised := [] } : State).Calm := by
  unfold State.Calm State.slcNext at *
  simpa only [hslc, hnow] using h

/-- The fabric of a calm state stays as it is (R362, R371). -/
theorem slcRun_of_calm {s : State} (h : ({ s with raised := [] } : State).Calm) : s.slcRun = s := by
  obtain ⟨-, hpulse, hidle⟩ := h
  have hs : ({ s with slc := { s.slc with pulse := [] } } : State) = s := by
    rw [← hpulse]
  unfold State.slcRun
  simp only [hs]
  split
  · rfl
  · next hact =>
    have hdue : s.slcNext.all (fun u => decide (s.now < u)) = true := hidle.resolve_left hact
    unfold State.slcUpTo
    split
    · rfl
    · next u hu =>
      have hlt : s.now < u := by simpa [hu] using hdue
      have hn : s.now + 1 - u = 0 := by omega
      rw [hn]
      rfl

theorem settle_of_calm {s : State} (h : s.Calm) : s.settle = s := by
  have hraised : s.raised = [] := h.1
  have hrun : s.slcRun = s := slcRun_of_calm (calm_congr (s := s) (by rw [← hraised]; exact h) rfl rfl)
  simp only [State.settle, hrun, hraised, if_true]

theorem Within.calm {s t : State} {rs : List Nat} (h : s.Within rs t) (hs : s.Calm) : t.Calm := by
  have ht : t.raised = [] := h.raised.trans hs.1
  have := calm_congr (s := s) (t := t) (by rw [← hs.1]; exact hs) h.slc h.now
  rwa [← ht] at this

/-- The faults raised so far are counted, whether their sources act or not (R462). -/
def counted (s : State) (l : List (Nat × Nat)) : State := l.foldl State.countFault { s with raised := [] }

@[simp] theorem countFault_flt (s : State) (f : Nat × Nat) : (s.countFault f).flt = s.flt := by
  unfold State.countFault
  split
  · rfl
  · rfl

theorem countFault_within (s : State) (f : Nat × Nat) : s.Within [R.FLT_SRCs_CNT f.1] (s.countFault f) :=
  .ite (.incRc s (by simp [F.FLT_SRCs_CNT.COUNT])) (.refl s _)

theorem foldl_countFault (l : List (Nat × Nat)) (s : State) :
    s.Within (l.map (fun f => R.FLT_SRCs_CNT f.1)) (l.foldl State.countFault s) ∧
      (l.foldl State.countFault s).flt = s.flt := by
  induction l generalizing s with
  | nil => exact ⟨.refl s _, rfl⟩
  | cons f l ih =>
    obtain ⟨hw, hf⟩ := ih (s.countFault f)
    exact ⟨((s.countFault_within f).mono (by simp)).trans (hw.mono (by simp)), hf.trans (s.countFault_flt f)⟩

theorem counted_within (s : State) (l : List (Nat × Nat)) :
    ({ s with raised := [] } : State).Within (l.map (fun f => R.FLT_SRCs_CNT f.1)) (s.counted l) := (foldl_countFault l _).1

@[simp] theorem counted_flt (s : State) (l : List (Nat × Nat)) : (s.counted l).flt = s.flt := (foldl_countFault l _).2

@[simp] theorem counted_now (s : State) (l : List (Nat × Nat)) : (s.counted l).now = s.now := (s.counted_within l).now

@[simp] theorem counted_boot (s : State) (l : List (Nat × Nat)) : (s.counted l).boot = s.boot := (s.counted_within l).boot

theorem counted_reg (s : State) (l : List (Nat × Nat)) {o : Nat} (h : o < 0x2404 ∨ o % 8 = 0) :
    (s.counted l).reg o = s.reg o :=
  (s.counted_within l).reg o (fun hm => by
    obtain ⟨f, -, hf⟩ := List.mem_map.1 hm
    exact fltCnt_ne f.1 h hf.symm)

theorem counted_rd (s : State) (l : List (Nat × Nat)) {g : Fld} (h : g.off < 0x2404 ∨ g.off % 8 = 0) :
    (s.counted l).rd g = s.rd g := by
  simp only [State.rd, s.counted_reg l h]

theorem fltCfg_off (src : Nat) : R.FLT_SRCs_CFG src < 0x2404 ∨ R.FLT_SRCs_CFG src % 8 = 0 := by
  unfold R.FLT_SRCs_CFG
  omega

theorem counted_enabled (s : State) (l : List (Nat × Nat)) (src : Nat) :
    (s.counted l).on (F.FLT_SRCs_CFG.EN src) = s.on (F.FLT_SRCs_CFG.EN src) := by
  simp only [State.on, s.counted_rd l (g := F.FLT_SRCs_CFG.EN src) (fltCfg_off src)]

theorem counted_fltNow (s : State) (l : List (Nat × Nat)) : (s.counted l).fltNow = s.fltNow := by
  simp only [State.fltNow, counted_flt, counted_now]

/-- The first faults of a cycle are counted and taken (R463). -/
theorem settle_first {s : State} {l : List (Nat × Nat)} (hr : s.raised = l) (hl : l ≠ [])
    (hcalm : ({ s with raised := [] } : State).Calm) (hnone : s.fltNow = none) :
    s.settle = (s.counted l).takeSet { (s.counted l).fltSnap with set := l } := by
  have hn : (s.counted l).fltNow = none := (s.counted_fltNow l).trans hnone
  unfold counted at hn ⊢
  simp only [State.settle, slcRun_of_calm hcalm, hr, if_neg hl, hn]

/-- Later faults of a cycle are taken again with those before them (R463). -/
theorem settle_again {s : State} {l : List (Nat × Nat)} {c : FltCyc} (hr : s.raised = l) (hl : l ≠ [])
    (hcalm : ({ s with raised := [] } : State).Calm) (hsome : s.fltNow = some c) :
    s.settle = ((s.counted l).fltBack c).takeSet { c with set := l ++ c.set } := by
  have hn : (s.counted l).fltNow = some c := (s.counted_fltNow l).trans hsome
  unfold counted at hn ⊢
  simp only [State.settle, slcRun_of_calm hcalm, hr, if_neg hl, hn]

end State
end Sys2Proof.Machine
end

section
/-! SUPPORT. Acknowledgement of fault classes (R468), and the statement about it. -/

namespace Sys2Proof.Machine

namespace State

theorem exec_fltAck (v : Nat) (s : State) : exec (.fltAck v) s = done (s.fltAck v) := rfl

theorem fltAck_first {s : State} (h : s.fltNow = none) (v : Nat) :
    s.fltAck v = s.wr fltCls (ackClass (s.rd fltCls) v) := by
  simp only [State.fltAck, h]

theorem fltAck_again {s : State} {c : FltCyc} (h : s.fltNow = some c) (v : Nat) :
    s.fltAck v = (s.fltBack { c with cls := ackClass c.cls v }).takeSet { c with cls := ackClass c.cls v } := by
  simp only [State.fltAck, h]

/-- The classes of a state that took one enabled fault of a class that was not pending. -/
theorem takeFault_not_pending {s : State} {f : Nat × Nat} {cls sev : Nat} (hi : faultInfo f.1 = some (cls, sev))
    (hen : s.on (F.FLT_SRCs_CFG.EN f.1) = true) (hpend : s.pend cls = false) (hlvl : s.lvl cls = 0) :
    (s.takeFault f).pend cls = true ∧ (s.takeFault f).lvl cls = s.rd (F.FLT_SRCs_CFG.SEV f.1) ∧
      ∀ c, c < 8 → c ≠ cls → (s.takeFault f).pend c = s.pend c ∧ (s.takeFault f).lvl c = s.lvl c := by
  have hcls := faultInfo_class_lt hi
  refine ⟨by simp [takeFault_pend hi hen hcls], ?_, fun c hc hne => ?_⟩
  · rw [takeFault_lvl hi hen hcls, if_pos rfl, hlvl, faultLevel_not_pending hpend, Nat.zero_max]
  · rw [takeFault_pend hi hen hc, takeFault_lvl hi hen hc, if_neg hne]
    simp [hne]

/-- A set of one fault, with no recovery in the cycle: the fault's own words, but for FLT_STATUS. -/
theorem takeSet_single {s : State} {c : FltCyc} {f : Nat × Nat} (h : c.rec_ = false) (hset : c.set = [f]) : ∃ k,
    s.takeSet c = { (s.takeFault f).freezeOff with
      flt := { (s.takeFault f).flt with cyc := some { c with irqs := k } } } := by
  obtain ⟨k, hk⟩ := s.takeSet_noRecovery h
  have hsort : fltSort c.set = [f] := by rw [hset]; rfl
  rw [hsort] at hk
  exact ⟨k, hk⟩

theorem takeSet_single_rd {s : State} {c : FltCyc} {f : Nat × Nat} (h : c.rec_ = false) (hset : c.set = [f]) {g : Fld}
    (hg : g.off ≠ R.FLT_STATUS) : (s.takeSet c).rd g = (s.takeFault f).rd g := by
  obtain ⟨k, hk⟩ := takeSet_single (s := s) h hset
  rw [hk]
  exact (freezeOff_within (s.takeFault f)).rd (by simpa using hg)

/-- A fault of the cycle taken again, over classes of which its own is clear. -/
theorem takeSet_fltBack_single {s : State} {y : FltCyc} {f : Nat × Nat} {cls sev : Nat} (hset : y.set = [f])
    (hi : faultInfo f.1 = some (cls, sev)) (hrec : y.rec_ = false) (hen : s.on (F.FLT_SRCs_CFG.EN f.1) = true)
    (hpend : y.cls.testBit cls = false) (hlvl : bitsOf y.cls (8 + 2 * cls) 2 = 0) :
    ((s.fltBack y).takeSet y).pend cls = true ∧
      ((s.fltBack y).takeSet y).lvl cls = s.rd (F.FLT_SRCs_CFG.SEV f.1) ∧
      ∀ c, c < 8 → c ≠ cls → ((s.fltBack y).takeSet y).pend c = y.cls.testBit c ∧
        ((s.fltBack y).takeSet y).lvl c = bitsOf y.cls (8 + 2 * c) 2 := by
  have hback := s.fltBack_within y
  have hcls := s.fltBack_cls y
  have hcfg := fltCfg_notMem_backRegs (faultInfo_lt hi)
  have hc8 := faultInfo_class_lt hi
  obtain ⟨hp, hl, hrest⟩ := takeFault_not_pending hi ((hback.on hcfg).trans hen) ((pend_of_rd hcls hc8).trans hpend)
    ((lvl_of_rd hcls hc8).trans hlvl)
  simp only [pend, lvl, takeSet_single_rd (g := F.FLT_CLASS.PEND) hrec hset (by decide),
    takeSet_single_rd (g := F.FLT_CLASS.LVL) hrec hset (by decide)]
  exact ⟨hp, hl.trans (hback.rd hcfg), fun c hc hne =>
    ⟨((hrest c hc hne).1).trans (pend_of_rd hcls hc), ((hrest c hc hne).2).trans (lvl_of_rd hcls hc)⟩⟩

theorem fltAck_again_within {s : State} {y : FltCyc} (h : s.fltNow = some y) (hrec : y.rec_ = false) (v : Nat) :
    s.Within backRegs (s.fltAck v) := by
  rw [fltAck_again h]
  exact takeAgain_within s (c := { y with cls := ackClass y.cls v }) hrec

end State

open State

/-- Settles O50: FLT_ACK clears its classes, and a fault of the cycle is taken over the cleared classes. -/
theorem faultAcknowledgement : Obligations.FaultAcknowledgement := by
  unfold Obligations.FaultAcknowledgement
  intro s v hcalm
  refine ⟨fun hnone => Runs.mk (exec_fltAck v s) ?_,
    fun y hy src inst hset cls sev hi hrec hen hv => Runs.mk (exec_fltAck v s) ?_⟩
  · have hw : s.Within [R.FLT_CLASS] (s.wr fltCls (ackClass (s.rd fltCls) v)) := .wr s _ (by decide)
    have hcls : (s.wr fltCls (ackClass (s.rd fltCls) v)).rd fltCls = ackClass (s.rd fltCls) v % 2 ^ 24 :=
      rd_wr_same s fltCls _ (by decide)
    rw [fltAck_first hnone, settle_of_calm (hw.calm hcalm)]
    refine ⟨fun c hc => ⟨?_, ?_⟩, hw.rd (by decide), rfl, rfl, fun o ho => hw.reg o (by simpa using ho), hw.mem, hw.cores⟩
    · exact (pend_of_rd hcls hc).trans ((testBit_ackClass_pend _ v hc).trans (congrArg (· && _) (s.pend_eq hc).symm))
    · exact (lvl_of_rd hcls hc).trans ((bitsOf_ackClass_lvl _ v hc).trans
        (congrArg (fun l => if v.testBit c then 0 else l) (s.lvl_eq hc).symm))
  · have hw := fltAck_again_within hy hrec v
    have hc8 := faultInfo_class_lt hi
    have hpend : (ackClass y.cls v).testBit cls = false := (testBit_ackClass_pend _ v hc8).trans (by simp [hv])
    have hlvl : bitsOf (ackClass y.cls v) (8 + 2 * cls) 2 = 0 := (bitsOf_ackClass_lvl _ v hc8).trans (if_pos hv)
    obtain ⟨hp, hl, hrest⟩ := takeSet_fltBack_single (s := s) (y := { y with cls := ackClass y.cls v }) (f := (src, inst))
      hset hi hrec hen hpend hlvl
    rw [settle_of_calm (hw.calm hcalm)]
    rw [fltAck_again hy] at hw ⊢
    exact ⟨hp, hl, fun c hc hne => ⟨(hrest c hc hne).1.trans (testBit_ackClass_pend _ v hc),
      (hrest c hc hne).2.trans (bitsOf_ackClass_lvl _ v hc)⟩, hw.mem, hw.cores⟩

end Sys2Proof.Machine
end

section
/-! SUPPORT. The order of the faults of one cycle (R463), and the statement about it. -/

namespace Sys2Proof.Machine

namespace State

/-- The log holds its earlier entries and then one for each of `l`, where each INST has 12 bits. -/
theorem Logged.split {old new : List FltLog} {l : List (Nat × Nat)} (h : Logged old new l) (hl : ∀ f ∈ l, f.2 < 4096) :
    new.take old.length = old ∧ (new.drop old.length).map (fun e => (e.src, e.inst)) = l := by
  obtain ⟨es, hnew, hmap⟩ := h
  rw [hnew, List.take_left, List.drop_left, hmap]
  have hid : l.map (fun f => (f.1, f.2 % 4096)) = l.map id :=
    List.map_congr_left fun f hf => Prod.ext rfl (Nat.mod_eq_of_lt (hl f hf))
  exact ⟨rfl, hid.trans (List.map_id l)⟩

/-- The faults that begin a cycle, the log having room for them, are logged in the order of R463. -/
theorem settle_first_logged {s : State} {l : List (Nat × Nat)} (hr : s.raised = l) (hne : l ≠ [])
    (hcalm : ({ s with raised := [] } : State).Calm) (hnone : s.fltNow = none) (hroom : s.flt.log.length + l.length ≤ 32)
    (hl : ∀ f ∈ l, (faultInfo f.1).isSome = true ∧ s.on (F.FLT_SRCs_CFG.EN f.1) = true) :
    Logged s.flt.log s.settle.flt.log (fltSort l) := by
  rw [settle_first hr hne hcalm hnone]
  have h := takeSet_logged (s := s.counted l) (c := { (s.counted l).fltSnap with set := l }) rfl
    (by rwa [counted_flt]) (fun f hf => by rw [counted_enabled]; exact hl f hf)
  rwa [counted_flt] at h

/-- Later faults of a cycle are logged in one order with those before them. -/
theorem settle_again_logged {s : State} {l : List (Nat × Nat)} {c : FltCyc} (hr : s.raised = l) (hne : l ≠ [])
    (hcalm : ({ s with raised := [] } : State).Calm) (hsome : s.fltNow = some c) (hrec : c.rec_ = false)
    (hroom : c.log.length + (l ++ c.set).length ≤ 32)
    (hl : ∀ f ∈ l ++ c.set, (faultInfo f.1).isSome = true ∧ s.on (F.FLT_SRCs_CFG.EN f.1) = true) :
    Logged c.log s.settle.flt.log (fltSort (l ++ c.set)) := by
  rw [settle_again hr hne hcalm hsome]
  have h := takeSet_logged (s := (s.counted l).fltBack c) (c := { c with set := l ++ c.set }) hrec
    (by rwa [fltBack_log]) (fun f hf => by
      obtain ⟨hi, hen⟩ := hl f hf
      refine ⟨hi, ?_⟩
      rw [(fltBack_within _ c).on (fltCfg_notMem_backRegs (faultSrc_lt hi)), counted_enabled]
      exact hen)
  rwa [fltBack_log] at h

/-- After the first faults of a cycle its record holds them, with the log as it was. -/
theorem settle_first_record {s : State} {l : List (Nat × Nat)} (hr : s.raised = l) (hne : l ≠ [])
    (hcalm : ({ s with raised := [] } : State).Calm) (hnone : s.fltNow = none) :
    ∃ c, s.settle.fltNow = some c ∧ c.log = s.flt.log ∧ c.set = l ∧ c.rec_ = false := by
  have hnow : s.settle.now = s.now := s.settle_now
  rw [settle_first hr hne hcalm hnone] at hnow ⊢
  obtain ⟨k, hk⟩ := takeSet_noRecovery (s.counted l) (c := { (s.counted l).fltSnap with set := l }) rfl
  refine ⟨{ (s.counted l).fltSnap with set := l, irqs := k }, ?_, congrArg FltS.log (s.counted_flt l), rfl, rfl⟩
  rw [State.fltNow, hnow, hk]
  exact if_pos (s.counted_now l)

/-- Between the first faults of a cycle and later ones the fabric has nothing to do. -/
theorem settle_first_calm {s : State} {l : List (Nat × Nat)} (hr : s.raised = l) (hne : l ≠ [])
    (hcalm : ({ s with raised := [] } : State).Calm) (hnone : s.fltNow = none) :
    ({ s.settle with raised := [] } : State).Calm := by
  refine calm_congr hcalm ?_ s.settle_now
  rw [settle_first hr hne hcalm hnone, (takeSet_within (s.counted l) rfl).slc, (s.counted_within l).slc]

/-- The end of a command leaves every source's configuration alone. -/
theorem fltCfg_notQuiet {src : Nat} (h : src < 0x47) : quietOff (R.FLT_SRCs_CFG src) = false := by
  rw [Bool.eq_false_iff, ne_eq, quietOff_iff]
  unfold R.FLT_SRCs_CFG
  omega

theorem settle_enabled (s : State) {src : Nat} (h : src < 0x47) :
    s.settle.on (F.FLT_SRCs_CFG.EN src) = s.on (F.FLT_SRCs_CFG.EN src) := s.settle_on (fltCfg_notQuiet h)

end State

open State

/-- Settles O52: the cycle's faults are sorted before they are taken, those of an earlier command among them. -/
theorem faultsOfOneCycle : Obligations.FaultsOfOneCycle := by
  unfold Obligations.FaultsOfOneCycle
  intro s f g hr hcalm hnone hroom hfi hgi hfe hge hf hg
  have hboth : ∀ l : List (Nat × Nat), (∀ x ∈ l, x = f ∨ x = g) → ∀ x ∈ l,
      (faultInfo x.1).isSome = true ∧ s.on (F.FLT_SRCs_CFG.EN x.1) = true := fun l hl x hx => by
    rcases hl x hx with rfl | rfl
    · exact ⟨hfi, hfe⟩
    · exact ⟨hgi, hge⟩
  have hinst : ∀ x ∈ fltSort [f, g], x.2 < 4096 := fun x hx => by
    have hmem : x ∈ [f, g] := (fltSort_perm [f, g]).mem_iff.1 hx
    simp only [List.mem_cons, List.not_mem_nil, or_false] at hmem
    rcases hmem with rfl | rfl
    · exact hf
    · exact hg
  have hone : ∀ l : List (Nat × Nat), l.length = 2 → (∀ x ∈ l, x = f ∨ x = g) →
      Logged s.flt.log ({ s with raised := l } : State).settle.flt.log (fltSort l) := fun l hlen hl =>
    settle_first_logged (s := { s with raised := l }) rfl (fun h => by simp [h] at hlen) hcalm hnone
      (by change s.flt.log.length + l.length ≤ 32; omega) (hboth l hl)
  have htwo : Logged s.flt.log ({ s.settle with raised := [g] } : State).settle.flt.log (fltSort [g, f]) := by
    obtain ⟨c, hc, hlog, hset, hrec⟩ := settle_first_record hr (List.cons_ne_nil _ _) hcalm hnone
    have hlist : [g] ++ c.set = [g, f] := by rw [hset]; rfl
    have h := settle_again_logged (s := { s.settle with raised := [g] }) (c := c) rfl (List.cons_ne_nil _ _)
      (settle_first_calm hr (List.cons_ne_nil _ _) hcalm hnone) hc hrec
      (by rw [hlist, hlog]; change s.flt.log.length + 2 ≤ 32; omega)
      (fun x hx => by
        obtain ⟨hi, hen⟩ := hboth [g, f] (by simp) x (hlist ▸ hx)
        exact ⟨hi, (s.settle_enabled (faultSrc_lt hi)).trans hen⟩)
    rwa [hlog, hlist] at h
  intro order u hu
  have horder : fltSort [f, g] = order := fltSort_pair f g
  have hlogged : Logged s.flt.log u.flt.log (fltSort [f, g]) := by
    simp only [List.mem_cons, List.not_mem_nil, or_false] at hu
    rcases hu with rfl | rfl | rfl
    · rw [fltSort_pair_comm]
      exact htwo
    · exact hone [f, g] rfl (by simp)
    · rw [fltSort_pair_comm]
      exact hone [g, f] rfl (by simp)
  rw [← horder]
  exact hlogged.split hinst

end Sys2Proof.Machine
end

section
/-! SUPPORT. The first fault of a cycle: its count, its effective level and what is done at it (R462, R464), and the statement about it. -/

namespace Sys2Proof.Machine

namespace State

/-- One fault waits to be taken, of a source of class `cls`, and none of its cycle was taken before. -/
structure FirstFault (s : State) (f : Nat × Nat) (cls : Nat) : Prop where
  raised : s.raised = [f]
  calm : ({ s with raised := [] } : State).Calm
  fresh : s.fltNow = none
  info : ∃ sev, faultInfo f.1 = some (cls, sev)

namespace FirstFault

variable {s : State} {f : Nat × Nat} {cls : Nat}

theorem settle_eq (h : s.FirstFault f cls) : ∃ c, s.settle = { ((s.counted [f]).takeFault f).freezeOff with
    flt := { ((s.counted [f]).takeFault f).flt with cyc := c } } := by
  rw [settle_first h.raised (List.cons_ne_nil _ _) h.calm h.fresh]
  obtain ⟨k, hk⟩ := takeSet_single (s := s.counted [f]) (c := { (s.counted [f]).fltSnap with set := [f] }) rfl rfl
  exact ⟨_, hk⟩

theorem settle_reg (h : s.FirstFault f cls) (o : Nat) :
    s.settle.reg o = ((s.counted [f]).takeFault f).freezeOff.reg o := by
  obtain ⟨c, hc⟩ := h.settle_eq
  rw [hc]
  rfl

/-- A field outside FLT_STATUS is as the fault left it. -/
theorem settle_rd (h : s.FirstFault f cls) {g : Fld} (hg : g.off ≠ R.FLT_STATUS) :
    s.settle.rd g = ((s.counted [f]).takeFault f).rd g := by
  rw [← (freezeOff_within ((s.counted [f]).takeFault f)).rd (by simpa using hg)]
  exact congrArg (fun w => bitsOf w g.lo g.w) (h.settle_reg g.off)

theorem settle_status (h : s.FirstFault f cls) (lo w : Nat) : s.settle.rd ⟨R.FLT_STATUS, lo, w⟩ =
    ((s.counted [f]).takeFault f).freezeOff.rd ⟨R.FLT_STATUS, lo, w⟩ :=
  congrArg (fun x => bitsOf x lo w) (h.settle_reg R.FLT_STATUS)

theorem settle_flt (h : s.FirstFault f cls) :
    s.settle.flt = { ((s.counted [f]).takeFault f).flt with cyc := s.settle.flt.cyc } := by
  obtain ⟨c, hc⟩ := h.settle_eq
  rw [hc]

theorem settle_count (h : s.FirstFault f cls) :
    s.settle.rd (F.FLT_SRCs_CNT.COUNT f.1) = min 255 (s.rd (F.FLT_SRCs_CNT.COUNT f.1) + 1) := by
  obtain ⟨sev, hi⟩ := h.info
  have hne : ∀ o, o < 0x2404 ∨ o % 8 = 0 → R.FLT_SRCs_CNT f.1 ≠ o := fun o ho => (fltCnt_ne f.1 ho).symm
  have hnot : R.FLT_SRCs_CNT f.1 ∉ takeRegs := by
    simp only [takeRegs, List.mem_cons, List.not_mem_nil, or_false, not_or]
    exact ⟨hne _ (by decide), hne _ (by decide), hne _ (by decide), hne _ (by decide)⟩
  have hcnt : s.counted [f] = ({ s with raised := [] } : State).incRc (F.FLT_SRCs_CNT.COUNT f.1) :=
    if_pos (by rw [hi]; rfl)
  rw [h.settle_rd (hne _ (by decide)), (takeFault_within _ f).rd hnot, hcnt]
  exact rd_incRc_same _ (show 0 + 8 ≤ 32 by decide)

theorem standbyEntry_take : ((s.counted [f]).takeFault f).standbyEntry = s.standbyEntry := by
  have hw := (s.counted [f]).takeFault_within f
  simp only [standbyEntry, hw.boot, hw.now, counted_boot, counted_now]

/-- A source with EN = 0 is counted and has no other effect (R462). -/
theorem settle_disabled (h : s.FirstFault f cls) (hen : s.on (F.FLT_SRCs_CFG.EN f.1) = false) :
    s.settle.flt = { s.flt with cyc := s.settle.flt.cyc } ∧
      ∀ o, o ≠ R.FLT_SRCs_CNT f.1 → o ≠ R.FLT_STATUS ∨ s.standbyEntry = false → s.settle.reg o = s.reg o := by
  have htake : (s.counted [f]).takeFault f = s.counted [f] := takeFault_disabled ((s.counted_enabled [f] f.1).trans hen)
  refine ⟨by rw [h.settle_flt, htake, counted_flt], fun o ho hor => ?_⟩
  have hcnt : (s.counted [f]).reg o = s.reg o := (s.counted_within [f]).reg o (by simpa using ho)
  rw [h.settle_reg]
  rcases hor with hst | hentry
  · rw [(freezeOff_within _).reg o (by simpa using hst), htake, hcnt]
  · rw [freezeOff_of_no_entry (standbyEntry_take.trans hentry), htake, hcnt]

theorem level_counted : (s.counted [f]).faultLevel f.1 cls = s.faultLevel f.1 cls := by
  simp only [faultLevel, pend, lvl, counted_rd (g := F.FLT_CLASS.PEND) s [f] (by decide),
    counted_rd (g := F.FLT_CLASS.LVL) s [f] (by decide), counted_rd (g := F.FLT_ESC_CAP.CAP) s [f] (by decide),
    counted_rd (g := F.FLT_SRCs_CFG.SEV f.1) s [f] (fltCfg_off f.1)]

/-! #### An enabled source -/

theorem settle_classes (h : s.FirstFault f cls) (hen : s.on (F.FLT_SRCs_CFG.EN f.1) = true) {c : Nat} (hc : c < 8) :
    s.settle.pend c = (decide (c = cls) || s.pend c) ∧
      s.settle.lvl c = if c = cls then max (s.lvl cls) (s.faultLevel f.1 cls) else s.lvl c := by
  obtain ⟨sev, hi⟩ := h.info
  have hen' := (s.counted_enabled [f] f.1).trans hen
  have hp := takeFault_pend hi hen' hc
  have hl := takeFault_lvl hi hen' hc
  rw [level_counted] at hl
  simp only [pend, lvl, counted_rd (g := F.FLT_CLASS.PEND) s [f] (by decide),
    counted_rd (g := F.FLT_CLASS.LVL) s [f] (by decide)] at hp hl
  simp only [pend, lvl, h.settle_rd (g := F.FLT_CLASS.PEND) (by decide), h.settle_rd (g := F.FLT_CLASS.LVL) (by decide)]
  exact ⟨hp, hl⟩

theorem settle_log (h : s.FirstFault f cls) (hen : s.on (F.FLT_SRCs_CFG.EN f.1) = true) : s.settle.flt.log =
    if s.flt.log.length < 32 then s.flt.log ++ [(s.counted [f]).faultEntry f (s.faultLevel f.1 cls)] else s.flt.log := by
  obtain ⟨sev, hi⟩ := h.info
  have hlog := takeFault_log hi ((s.counted_enabled [f] f.1).trans hen)
  rw [level_counted, counted_flt] at hlog
  rw [h.settle_flt]
  exact hlog

theorem settle_overflow (h : s.FirstFault f cls) (hen : s.on (F.FLT_SRCs_CFG.EN f.1) = true)
    (hfull : 32 ≤ s.flt.log.length) : s.settle.on F.FLT_LOG_STATUS.OVERFLOW = true := by
  obtain ⟨sev, hi⟩ := h.info
  rw [State.on, h.settle_rd (by decide)]
  exact takeFault_overflow hi ((s.counted_enabled [f] f.1).trans hen) (by rwa [counted_flt])

theorem settle_state (h : s.FirstFault f cls) (hen : s.on (F.FLT_SRCs_CFG.EN f.1) = true) :
    s.settle.rd F.FLT_STATUS.STATE =
      if s.standbyEntry = true ∧ stateAt (s.rd F.FLT_STATUS.STATE) (s.faultLevel f.1 cls) = 2 then 0
      else stateAt (s.rd F.FLT_STATUS.STATE) (s.faultLevel f.1 cls) := by
  obtain ⟨sev, hi⟩ := h.info
  have hst := takeFault_state hi ((s.counted_enabled [f] f.1).trans hen)
  rw [level_counted, counted_rd s [f] (by decide)] at hst
  rw [← standbyEntry_take (f := f), ← hst]
  exact (h.settle_status 0 2).trans (freezeOff_state _)

theorem settle_pulse (h : s.FirstFault f cls) (hen : s.on (F.FLT_SRCs_CFG.EN f.1) = true) :
    s.settle.on F.FLT_STATUS.PULSING =
        (decide (s.rd F.FLT_PIN.LEVEL ≤ s.faultLevel f.1 cls) || s.on F.FLT_STATUS.PULSING) ∧
      s.settle.flt.pulseEnd = if s.rd F.FLT_PIN.LEVEL ≤ s.faultLevel f.1 cls
        then s.now + clampN 1 1000 (s.rd F.FLT_PIN.MINW) * usT else s.flt.pulseEnd := by
  obtain ⟨sev, hi⟩ := h.info
  have hen' := (s.counted_enabled [f] f.1).trans hen
  have hon := takeFault_pulsing hi hen'
  have hend := takeFault_pulseEnd hi hen'
  simp only [level_counted, counted_flt, counted_now, State.on, counted_rd (g := F.FLT_PIN.LEVEL) s [f] (by decide),
    counted_rd (g := F.FLT_PIN.MINW) s [f] (by decide), counted_rd (g := F.FLT_STATUS.PULSING) s [f] (by decide)] at hon hend
  refine ⟨?_, ?_⟩
  · exact (congrArg (· != 0) (h.settle_status 2 1)).trans ((freezeOff_pulsing _).trans hon)
  · rw [h.settle_flt]
    exact hend

theorem settle_lastT (h : s.FirstFault f cls) (hen : s.on (F.FLT_SRCs_CFG.EN f.1) = true) :
    s.settle.flt.lastT = if s.faultLevel f.1 cls < 2 then s.flt.lastT else s.now := by
  obtain ⟨sev, hi⟩ := h.info
  have hlast := takeFault_lastT hi ((s.counted_enabled [f] f.1).trans hen)
  rw [level_counted, counted_flt, counted_now] at hlast
  rw [h.settle_flt]
  exact hlast

theorem settle_irqCount (h : s.FirstFault f cls) (hen : s.on (F.FLT_SRCs_CFG.EN f.1) = true) :
    s.settle.rd (F.IRQ_SRCs.COUNT 62) = if s.rd F.FLT_CTRL.IRQ_LEVEL ≤ s.faultLevel f.1 cls ∧ s.boot.sby < 5
      then min 255 (s.rd (F.IRQ_SRCs.COUNT 62) + 1) else s.rd (F.IRQ_SRCs.COUNT 62) := by
  obtain ⟨sev, hi⟩ := h.info
  have hcount := takeFault_irqCount hi ((s.counted_enabled [f] f.1).trans hen)
  simp only [level_counted, counted_boot, counted_rd (g := F.FLT_CTRL.IRQ_LEVEL) s [f] (by decide),
    counted_rd (g := F.IRQ_SRCs.COUNT 62) s [f] (by decide)] at hcount
  exact (h.settle_rd (by decide)).trans hcount

end FirstFault
end State

open State

/-- Settles O51: the fault is counted, and with EN = 1 each stage of taking it leaves its own words to be read at the end. -/
theorem faultsEscalate : Obligations.FaultsEscalate := by
  unfold Obligations.FaultsEscalate
  intro s src inst cls sev0 hr hcalm hnone hi sev lvl cap e
  have h : s.FirstFault (src, inst) cls := ⟨hr, hcalm, hnone, sev0, hi⟩
  have he : s.faultLevel src cls = e := rfl
  refine ⟨h.settle_count, h.settle_disabled, fun hen => ⟨fun c hc => h.settle_classes hen hc, fun hroom => ?_,
    fun hfull => ⟨?_, h.settle_overflow hen hfull⟩, h.settle_state hen, fun hpulse => ?_, fun hquiet => ?_, ?_,
    h.settle_irqCount hen⟩⟩
  · refine ⟨_, (h.settle_log hen).trans (if_pos hroom), rfl, he, ?_, rfl⟩
    rw [← he]
    exact congrArg (fun x => decide (x < s.faultLevel src cls))
      (s.counted_rd [(src, inst)] (g := F.FLT_SRCs_CFG.SEV src) (fltCfg_off src))
  · exact (h.settle_log hen).trans (if_neg (Nat.not_lt.2 hfull))
  · exact ⟨(h.settle_pulse hen).1.trans (by simp [he, hpulse]), (h.settle_pulse hen).2.trans (if_pos hpulse)⟩
  · have hno : ¬ s.rd F.FLT_PIN.LEVEL ≤ e := Nat.not_le.2 hquiet
    exact ⟨(h.settle_pulse hen).1.trans (by simp [he, hno]), (h.settle_pulse hen).2.trans (if_neg hno)⟩
  · rw [h.settle_lastT hen, he]
    by_cases h2 : e < 2
    · rw [if_pos h2, if_neg (by omega)]
    · rw [if_neg h2, if_pos (by omega)]
end Sys2Proof.Machine
end
